-- ==== Sys2Proof/Word.lean ====
section
/-! DEFINITION. Word types of the device and the sparse table type its large arrays are held in. -/

namespace Sys2Proof

abbrev Byte := BitVec 8
abbrev Word := BitVec 64

/-- A table indexed by `Nat` in which almost every entry has its default: the entries that differ,
in strictly rising order of index. -/
abbrev SMap (α : Type) := List (Nat × α)

/-- Global frame index (R5). -/
abbrev FrameId := Fin 384
/-- Arvond port ap0–ap31 (R5). -/
abbrev Port := Fin 32
/-- Job record index (R305). -/
abbrev JobIx := Fin 256

end Sys2Proof
end

