-- ==== Sys2Proof/Operand.lean ====
section
/-! DEFINITION. The types of the commands' operands. -/

namespace Sys2Proof

/-- The operations of the frame instruction set (R151–R186). -/
inductive Op where
  | nop | add | sub | mul | andS | orS | xorS | shl | shr | sra | addi | andi | shli | shri | cmp
  | cmpi | amov | aadd | smova | kand | kor | knot | b | bz | bnz | bk | br | li64 | ai64 | mmaF
  | mmaH2 | mmaQ4 | vadd | vsub | vmul | vfma | vmax | vmin | vabs | vneg | vcmp | vsel | vand
  | vor | vxor | vshl | vshr | vexp2 | vlog2 | vrcp | vrsqrt | vsqrt | vexp | vtanh | vsigm
  | vrsum | vrmax | vrmin | cvt | cvtg | gadd | cvtx | mov | tld | tldl | tst | twr | trd | taddb
  | text | lds | sts | ldsl | stsl | lda | sta | tyinit | tydata | tyrd | tywr | waitAc | waitMc
  | waitAcr | waitMcr | waitAll | done | bell
  deriving DecidableEq, Repr

/-- The register fields and modifier of a frame instruction's first word (R137). -/
structure Insn where
  dst : BitVec 6 := 0
  a   : BitVec 6 := 0
  b   : BitVec 6 := 0
  c   : BitVec 6 := 0
  mod : BitVec 32 := 0
  deriving DecidableEq, Repr

/-- An access in flight on a frame that an error response may answer (R135). -/
inductive Access where
  | load (i : Nat) | store (i : Nat) | move (i : Nat) (line : Nat) | mma | vec
  deriving DecidableEq, Repr

/-- A task named by the graph it belongs to and its index there (R231). -/
structure TaskRef where
  graph : Nat
  idx   : Nat
  deriving DecidableEq, Repr

/-- An Exchange packet as a flit brings it: the flit fields of R353 and the header and data of R317. -/
structure XPkt where
  port    : BitVec 5 := 0
  src     : BitVec 15
  job     : BitVec 16
  poison  : Bool
  kind    : Byte
  flags   : Byte
  ctrl    : Byte
  fmt     : Byte
  step    : BitVec 32
  bucket  : BitVec 16
  srcRank : BitVec 16
  index   : BitVec 32
  data    : List Byte
  deriving DecidableEq, Repr

/-- A bell flit (R354): `proto` 0x02. -/
structure BellMsg where
  src   : BitVec 15
  job   : BitVec 16
  addr  : BitVec 64
  value : Word
  add   : Bool
  tag   : BitVec 32
  deriving DecidableEq, Repr

/-- What the DRAM dies or an SRAM bank return for a 64-byte line (R197, R212, R216, R218, R219). For DRAM: the error pattern
left in the 68 stored symbols once the inner code has corrected (symbol position, difference), the five inner flags, the
line of the same comb die that came instead of the one addressed, and an answer of another comb die. For SRAM: the words
of the line (0–7) with an error, none for a single-bit one and otherwise the syndrome, and the poison bits found flipped.
`again` is whether the patrol's second read meets the error again (R224). A SCRUB_READ with `demand` set is no patrol read but the
read of the line by another unit, whose command follows (DESIGN CHOICE, assumption 83). -/
structure ScrubObs where
  errs   : List (Nat × Byte) := []
  corr   : BitVec 5 := 0
  uncorr : BitVec 5 := 0
  other  : Option Nat := none
  misdir : Bool := false
  words  : List (Nat × Option Byte) := []
  pflip  : BitVec 2 := 0
  again  : Bool := false
  demand : Bool := false
  deriving DecidableEq, Repr

/-- What the lines that a command reads return where a memory's code finds an error (R212, R219): line number and
observation. -/
abbrev LineErrs := List (Nat × ScrubObs)

/-- A class B read request (R354). -/
structure BReadMsg where
  src  : BitVec 15
  job  : BitVec 16
  addr : BitVec 64
  len  : Nat
  tag  : BitVec 32
  deriving DecidableEq, Repr

/-- A class B write (R354), at most 224 data bytes, and what the lines that it covers in part return (R220). -/
structure BWriteMsg where
  src    : BitVec 15
  job    : BitVec 16
  addr   : BitVec 64
  tag    : BitVec 32
  data   : List Byte
  poison : Bool
  errs   : LineErrs := []
  deriving DecidableEq, Repr

/-- Class B read data (R354). -/
structure BDataMsg where
  tag    : BitVec 32
  off    : Nat
  data   : List Byte
  poison : Bool
  deriving DecidableEq, Repr

/-- A Waggle exchange message (R388); a time is in units of 2^-16 ns. -/
structure WagMsg where
  state : BitVec 3
  root  : BitVec 15
  seq   : BitVec 32
  t1    : Nat
  t2    : Nat
  t3    : Nat
  deriving DecidableEq, Repr

/-- A barrier message (R400) with the job of its flit. -/
structure BarMsg where
  job     : BitVec 16
  key     : BitVec 32
  episode : Word
  round   : Byte
  member  : BitVec 16
  deriving DecidableEq, Repr

/-- A row group's instruction whose last output is written: the cycles that feeders and drain were held (R85), and what the
lines that its writes read return (R220). -/
structure MmaEnd where
  frame : FrameId
  group : Fin 4
  feed  : BitVec 16 := 0
  drain : BitVec 16 := 0
  errs  : LineErrs := []
  deriving DecidableEq, Repr

/-- The line of a move that lands, and what the lines read for it return (R216, R219, R220). -/
structure LandedLine where
  line : Nat
  errs : LineErrs := []
  deriving DecidableEq, Repr

/-- The load whose data lands, and what the lines it read return (R216, R219). -/
structure LandedLoad where
  load : Nat
  errs : LineErrs := []
  deriving DecidableEq, Repr

/-- One interval of the ramp: its highest demand, and the cycles in which a feeder was held (R94, R101). -/
structure RampObs where
  demand : Nat
  held   : Nat := 0
  deriving DecidableEq, Repr

/-- The 256 bytes of a flit as they come from the link, and the codewords since the last one that FEC could not correct
(R353, R382). -/
structure LinkFlit where
  bytes : List Byte
  fec   : Nat := 0
  deriving DecidableEq, Repr

/-- One host access through BAR2, with what the lines that it reads return (R216, R219, R220), or its size set through the
Resizable BAR capability (R275). -/
inductive Bar2Op where
  | read (off len : Nat) (errs : LineErrs)
  | write (off : Nat) (data : List Byte) (poison : Bool) (errs : LineErrs)
  | resize (log2 : Nat)
  deriving DecidableEq, Repr

/-- One routing-table write (R367, R369). -/
inductive RouteOp where
  | rtb (i : Fin 64) (v : Word)
  | rtr (i : Fin 512) (v : Word)
  deriving DecidableEq, Repr

/-- The datagram that carries a command (R451, R452): what its header holds, the bytes of its body and its signature; and
where the message came in fragments, the body and signature of each earlier one, which sets MORE (R453). -/
structure Auth where
  flags   : BitVec 16
  session : BitVec 128
  seq     : Word
  body    : List Byte
  sig     : List Byte
  before  : List (List Byte × List Byte) := []
  deriving DecidableEq, Repr

/-- Whether an announced UTC offset is valid, and the leap flags of an Announce message (R456): the last minute of the day
has 61 or 59 seconds. -/
structure UtcFlags where
  valid  : Bool
  leap61 : Bool := false
  leap59 : Bool := false
  deriving DecidableEq, Repr

/-- A wiring plan entry (R376). -/
structure PlanEntry where
  peerId   : BitVec 16
  peerPort : Byte
  medium   : Byte := 0
  lengthDm : BitVec 16 := 0
  preset   : Byte := 0
  flags    : Byte := 0
  rsvd     : Word := 0
  deriving DecidableEq, Repr

/-- An equalisation hint (R373). -/
structure EqHint where
  peerId   : BitVec 16
  peerPort : Byte
  laneMask : Byte
  tx       : List Byte
  rx       : List Byte
  deriving DecidableEq, Repr

/-- One entry of a retirement and sparing list (R453): DRAM die, retired line or spared row, address. -/
structure RepairEntry where
  die  : Nat
  row  : Bool
  addr : Nat
  deriving DecidableEq, Repr

/-- What the release of PERST_N brings: the TEST strap (R492), and what the self-test of DRAM finds at each boot from then on
(R227, R444). -/
structure BootPins where
  test  : Bool
  found : List RepairEntry := []
  deriving DecidableEq, Repr

/-- The result of one frame's boot self-test (R90): rows that failed, column groups that failed, cells
that failed (row, column), whether it passed only on its retry, whether it failed beyond repair. -/
structure SelfTest where
  rows  : List Nat := []
  grps  : List Nat := []
  cells : List (Nat × Nat) := []
  retry : Bool := false
  fail  : Bool := false
  deriving DecidableEq, Repr

/-- What a link training state found (R371): good lanes, tap codes, a partner that sends NOT_READY (R481), or the shares of C
and B that fit the round trip of the cable (R359). -/
structure TrainObs where
  laneMask : Byte := 0
  txTaps   : List Byte := []
  rxTaps   : List Byte := []
  notReady : Bool := false
  shares   : Option (BitVec 16 × BitVec 16) := none
  deriving DecidableEq, Repr

/-- The firmware processors (R441). -/
inductive CoreId where
  | security | power | scheduler | control (cl : Fin 64)
  deriving DecidableEq, Repr

/-- JTAG instructions that take the pins (R497). -/
inductive JtagInsn where
  | extest | extestPulse | extestTrain | clamp | highz
  deriving DecidableEq, Repr

/-- What the 8-bit instruction register of the TAP holds (R496), whose codes the manual does not give. -/
inductive TapInsn where
  | idcode
  | takes (i : JtagInsn)
  deriving DecidableEq, Repr

/-- A job record image of JOB_ADMIT (R305, R453), with rank map and ring plan. -/
structure JobReq where
  step     : BitVec 32 := 0
  bank     : Bool := false
  policy   : Byte
  job      : BitVec 16
  ctx      : BitVec 16
  queue    : BitVec 16
  barrier  : BitVec 16
  nrank    : BitVec 16
  rank     : BitVec 16
  nboard   : BitVec 16
  pos      : BitVec 16
  slotmask : Byte
  nplane   : Byte
  timeout  : BitVec 32
  rankmapA : Word
  ringplanA : Word
  cring    : Word
  chead    : Word
  csem     : BitVec 32
  stepSem  : BitVec 32
  clog2    : Byte
  rankmap  : List (BitVec 16)
  ring     : List (BitVec 16)
  planes   : List Byte
  defPolicy  : Bool := false
  defTimeout : Bool := false
  deriving DecidableEq, Repr

/-- A barrier descriptor image of BARRIER_SETUP (R398, R453), with the group and the member list. -/
structure BarReq where
  group   : Fin 1024
  mode    : Byte
  nIn     : Byte
  nOut    : BitVec 16
  member  : BitVec 16
  key     : BitVec 32
  ctx     : BitVec 16
  job     : BitVec 16
  membersA : Word
  relSem  : BitVec 32
  members : List (BitVec 16)
  episode : Word := 0
  deriving DecidableEq, Repr

/-- A management command of the Apiary port that is answered by RESULT, with its body (R453, R454). -/
inductive ApiaryCmd where
  | mgmtKey (key : List Byte)
  | leaveQuarantine (p : Port)
  | quarantine (p : Port)
  | retrain (p : Port)
  | wiringPlan (dev : BitVec 16) (gen : BitVec 32) (entries : List PlanEntry)
  | eqHints (mask : BitVec 32) (hints : List EqHint)
  | repairList (more : Bool) (entries : List RepairEntry)
  | suspicion (levels : List (BitVec 2))
  | waggleRoot (root : BitVec 15)
  | frameExclude (mask : BitVec 384)
  | powerCfg (watts celsius : Nat)
  | jobAdmit (r : JobReq)
  | barrierSetup (r : BarReq)
  | jobKill (job : BitVec 16)
  | ledgerAck (seq : BitVec 32)
  | logReq (first : BitVec 32) (count : Nat)
  | attestReq (nonce : List Byte)
  deriving DecidableEq, Repr

end Sys2Proof
end

