-- ==== Sys2Proof/Config.lean ====
section
/-! DEFINITION. What an implementation fixes and the free values: constants without a body, of which
nothing can be proved but what holds of every value. -/

namespace Sys2Proof.Config

/-- Free values of one step: the value number `n` drawn, where the manual leaves a result open and the
device goes on (DESIGN CHOICE, assumption 8). -/
opaque free : Nat → BitVec 64

/-- The bytes of a DRAM region whose MEM_REGION entry changed (R199) and those of a save image's parts without a layout
(R261): number of the change or save, address. -/
opaque lostByte : Nat → Nat → BitVec 8

/-- The bank of a row of a DRAM die (R226): the manual does not map die addresses to banks. -/
opaque dramBank : Nat → Nat → BitVec 6

/-- The deviation of a transcendental result from the true value, in units of 2^-32 ulp, before it is
clamped to the bound of R170; a fixed function of the operation and the input bits (DESIGN CHOICE, assumption 12). -/
opaque transDev : Op → Nat → Int

/-- The guard sampler's 24-bit draw number `n` of a frame, under the seed of boot number `boot` (R420). -/
opaque guardDraw : (boot frame n : Nat) → BitVec 24

/-- The 16-byte session nonce of boot number `n` (R452). -/
opaque nonce : Nat → BitVec 128

/-- The cause code of BOOT_STATUS for the n-th check of a load, from 1 (R447, R453). -/
opaque bootCause : Nat → BitVec 8

/-- Base addresses the firmware gives its rings at boot (R435, R458). -/
opaque ledgerBase : Nat → BitVec 48
opaque logBase : Nat → BitVec 48

/-- The fixed transmit latency of a port in units of 2^-16 ns, by which a send stamp is corrected (R389). -/
opaque txLatency : Nat → Nat

/-- The fixed receive latency of a port in units of 2^-16 ns, by which a receive stamp is corrected (R389). -/
opaque rxLatency : Nat → Nat

/-- Board and slot of the rack leader of a rack whose boards this device does not see (R386). -/
opaque rackLeader : Nat → BitVec 6

/-- Firmware version reported at attach (R300) and ROM version in BOOT_REQ (R453). -/
opaque fwVer : BitVec 32
opaque romVer : BitVec 32

/-- The silicon stepping and manufacturer of IDCODE (R496). -/
opaque stepping : BitVec 4
opaque jep106 : BitVec 11

end Sys2Proof.Config
end

