-- ==== Sys2Proof/Machine/FrameState.lean ====
section
/-! DEFINITION. The state of one frame: registers, units with the instructions they hold, array, drain,
tally unit, fault registers and place in the task market. -/

namespace Sys2Proof.Machine

/-- The formats of R113, in the order of their codes. -/
inductive Fmt where
  | t2 | q4 | q8 | q16 | q32 | f4 | f6 | f8a | f8b | f16 | f24 | f32 | f40 | x8 | g32
  deriving DecidableEq, Repr

/-- An exact value: NaN, an infinity, or (-1)^neg × mag × 2^exp (R50, R51). -/
inductive Num where
  | nan
  | inf (neg : Bool)
  | fin (neg : Bool) (mag : Nat) (exp : Int)
  deriving DecidableEq, Repr

/-- A tensor descriptor with its fields taken apart (R112). -/
structure Tensor where
  base : Nat
  e0 : Nat
  e1 : Nat
  e2 : Nat
  e3 : Nat
  s1 : Int := 0
  s2 : Int := 0
  s3 : Int := 0
  fmt : Fmt
  signed : Bool := false
  scaled : Bool := false
  red : Bool := false
  space : Bool := false
  scaleSpace : Bool := false
  scale : Nat := 0
  deriving DecidableEq, Repr

/-- A t register (R108). -/
structure TReg where
  desc : BitVec 512 := 0
  valid : Bool := false
  deriving DecidableEq, Repr

/-- The registers of R108 and the counters of R130. -/
structure Regs where
  s : Vector Word 64 := Vector.replicate 64 0
  a : Vector Word 16 := Vector.replicate 16 0
  t : Vector TReg 32 := Vector.replicate 32 {}
  k : Vector (BitVec 256) 8 := Vector.replicate 8 0
  ac : Vector (BitVec 32) 16 := Vector.replicate 16 0
  mc : Vector (BitVec 32) 8 := Vector.replicate 8 0
  deriving DecidableEq, Repr

/-- FRM_STATE.STATE (R142). -/
inductive FState where
  | idle | running | ending | faulted | saving | restoring | outOfService
  deriving DecidableEq, Repr

/-- FRM_FAULT, FRM_FAULT_ADDR and FRM_FAULT_INSN (R144). -/
structure FaultRec where
  code : Byte := 0
  unit : BitVec 4 := 0
  precise : Bool := false
  addrV : Bool := false
  addr : BitVec 52 := 0
  space : Bool := false
  insn : Word := 0
  deriving DecidableEq, Repr

/-- An instruction with its operation and second word, as the sequencer holds it (R105, R107, R131, R150, R184). -/
structure Held where
  op : Op
  x : Insn
  imm : Word := 0
  deriving DecidableEq, Repr

/-- A register an instruction reads or writes that may be locked (R150); `eff` is the effect table while its list comes from
another device (R506). -/
inductive Dest where
  | s (i : BitVec 6) | t (i : BitVec 6) | k (i : BitVec 6) | eff
  deriving DecidableEq, Repr

/-- Why an access failed: cause of R205, table level (0xFF none), the entry, the virtual address, and for causes 0x07
and 0x08 the fabric address. A bell has no virtual address. -/
structure XErr where
  cause : Nat
  level : Nat := 0xFF
  pte : Word := 0
  va : Nat := 0
  fab : Option Nat := none
  bell : Bool := false
  deriving DecidableEq, Repr

/-- A sequencer load in flight: where its data goes, the data, whether the data has arrived, is poisoned or failed, and the
place in this device's memory it comes from (R149, R150, R222); whether it went through a translation, and the invalidation
that waits for it (R207). -/
structure Load where
  dst : Dest
  word : Word
  data : List Byte := []
  poison : Bool := false
  ready : Bool := true
  err : Option XErr := none
  addr : BitVec 52 := 0
  tag : Option (BitVec 32) := none
  pa : Option Nat := none
  virt : Bool := false
  inv : Option (BitVec 32) := none
  deriving DecidableEq, Repr

/-- A sequencer store in flight (R180, R207). -/
structure Store where
  word : Word
  err : Option XErr := none
  addr : BitVec 52 := 0
  tag : Option (BitVec 32) := none
  virt : Bool := false
  inv : Option (BitVec 32) := none
  deriving DecidableEq, Repr

/-- The array shapes of R72. -/
inductive Shape where
  | f | h2 | q4
  deriving DecidableEq, Repr

/-- A cell of a weight-limb set: signed limbs, the exponent of limb 0's unit, the class of the element
(0 finite, 1 infinity, 2 NaN), its poison (R56, R66, R79). -/
structure Cell where
  cls : BitVec 2 := 0
  neg : Bool := false
  l0 : Int := 0
  l1 : Int := 0
  l2 : Int := 0
  exp : Int := 0
  poison : Bool := false
  deriving DecidableEq, Repr

/-- What a row group's active weights are, for KEEP (R161). -/
structure Kept where
  shape : Shape
  fmt : Fmt
  signed : Bool
  half : Bool
  n : Nat
  k : Nat
  scaled : Bool
  scales : SMap Byte
  deriving DecidableEq, Repr

/-- A matrix instruction in the matrix unit with its captured operands (R106, R155, R156), and from its first vector on
the weights it streams against, which a chained successor may replace in the array (R67, R68). `tile` is the tile it streams or
is about to stream, `drawn` and `hit` that tile's draw, `guardRec` its guard record (R418, R422). -/
structure MmaJob where
  word : Word
  shape : Shape
  group : Nat
  mode : BitVec 3
  start : Bool
  final : Bool
  fast : Bool
  merge : Bool
  keep : Bool
  cbase : Nat
  k : Nat
  m : Nat
  n : Nat
  act : Tensor
  wgt : Option Tensor
  wfmt : Fmt
  wsigned : Bool
  dst : Tensor
  third : Option Tensor
  int : Bool
  planes : Nat
  loaded : Nat := 0
  streaming : Bool := false
  tile : Nat := 0
  drawn : Bool := false
  hit : Bool := false
  guardRec : Option Nat := none
  bufHold : Bool := false
  startHold : Bool := false
  cells : SMap Cell := []
  weights : Option Kept := none
  deriving DecidableEq, Repr

/-- A vector or convert instruction in the vector unit with its captured operands (R106, R165, R174). -/
structure VecJob where
  word : Word
  op : Op
  x : Insn
  dst : Option Tensor
  a : Tensor
  b : Option Tensor := none
  c : Option Tensor := none
  sb : Word := 0
  pred : BitVec 256 := 0
  sel : BitVec 256 := 0
  deriving DecidableEq, Repr

/-- A place a move reads or writes: a tensor, or for COPY a run of bytes of memory or of the host (R281). -/
inductive Place where
  | tensor (t : Tensor)
  | virt (va : Nat)
  | host (addr : Nat)
  deriving DecidableEq, Repr

/-- A move in the mover (R127–R130). Lines are counted in walk order; `landed` holds those past `front`
that have landed; `credited` of them have raised the arrival counter. `rdata` are bytes read from other devices,
by virtual address; `rtags` and `wtags` the class B reads (with their address) and writes (with their line and address)
without an answer; `block` the 4 KiB block of host writes that passed its commit point; `stamp` its place in issue order; `begun` the 4 KiB chunks that the mover has begun (R129). -/
structure Move where
  word : Word
  src : Place
  dst : Place
  len : Nat := 0
  ac : Fin 16 := 0
  mc : Fin 8 := 0
  tch : Option (Fin 64) := none
  copy : Bool := false
  lines : Nat
  front : Nat := 0
  landed : List Nat := []
  credited : Nat := 0
  poison : Bool := false
  acked : Bool := false
  rdata : SMap (Byte × Bool) := []
  rtags : List (BitVec 32 × Nat) := []
  wtags : List (BitVec 32 × Nat × Nat) := []
  block : Option Nat := none
  stamp : Nat := 0
  begun : Nat := 0
  deriving DecidableEq, Repr

/-- One tally channel (R183, R413). -/
structure Chan where
  crc32 : Bool := false
  v : Word := 0
  poison : Bool := false
  deriving DecidableEq, Repr

/-- One accumulator entry (R74). -/
structure Acc where
  v : Word := 0
  poison : Bool := false
  deriving DecidableEq, Repr

/-- The array and the drain (R66, R74, R160, R162). Accumulator entry g × (65536 / groups) + row × columns
+ column; `rows` has the type of each entry in flight, 1 for F40 and 2 for integer, and `issued` the types that the
instructions issued so far will leave. `keep`, `next` and `loadedBy` have a place for each group of each shape: what the active
weights are, what the shadow set holds, and what the loads issued so far will make active (R161). -/
structure Array where
  active : SMap Cell := []
  shadow : SMap Cell := []
  keep : Vector (Option Kept) 7 := Vector.replicate 7 none
  acc : SMap Acc := []
  rows : SMap Nat := []
  issued : SMap Nat := []
  shape : Option Shape := none
  loadedBy : Vector (Option Kept) 7 := Vector.replicate 7 none
  next : Vector (Option Kept) 7 := Vector.replicate 7 none
  deriving DecidableEq, Repr

/-- What an instruction in the tally unit does, with its captured operands (R105, R183, R184). -/
inductive TyJob where
  | init (ch : Fin 64) (crc32 : Bool) (pfx : List Byte)
  | data (ch : Fin 64) (t : Tensor)
  | read (ch : Fin 64) (dst : BitVec 6)
  | write (ch : Fin 64) (v : Word)
  deriving DecidableEq, Repr

/-- An instruction in the tally unit, with its place in issue order among moves (R105, R184). -/
structure TyEnt where
  stamp : Nat
  job : TyJob
  deriving DecidableEq, Repr

/-- FRM_RAMP, FRM_ARR_HOLD (R93–R101). -/
structure Ramp where
  level : Nat := 0
  cap : Nat := 8
  startHold : Bool := false
  feedHold : BitVec 16 := 0
  drainHold : BitVec 16 := 0
  rampHold : BitVec 16 := 0
  tiles : BitVec 16 := 0
  deriving DecidableEq, Repr

/-- FRM_GEOM and FRM_REPAIR (R98, R99). -/
structure Geom where
  rows : Nat := 0
  colgrp : Nat := 0
  byp : Nat := 0
  spares : Nat := 0
  fillAdj : Int := 0
  fail0 : Option (BitVec 8) := none
  fail1 : Option (BitVec 8) := none
  deriving DecidableEq, Repr

/-- Service and suspicion of a frame (R21, R22, R421, R437). `before` is whether it was in service before the reset that
the next self-test ends (R26, R27). -/
structure Service where
  insvc : Bool := false
  tested : Bool := false
  before : Option Bool := none
  cause : BitVec 4 := 0
  atGen : BitVec 31 := 0
  flagged : Bool := false
  excluded : Bool := false
  susp : BitVec 2 := 0
  sampled : BitVec 32 := 0
  lost : Byte := 0
  passed : Nat := 0
  draws : Nat := 0
  lsCe : Nat := 0
  deriving DecidableEq, Repr

/-- A frame (R104–R147). `pend` is the fault that stopped the task until the frame records it (R134); `stamp` numbers moves and
tally instructions in issue order, and `turn` is that of the move the mover served last (R129). -/
structure Frame where
  regs : Regs := {}
  fmtFlags : BitVec 10 := 0
  state : FState := .idle
  ctx : BitVec 12 := 0
  ctxV : Bool := false
  pc : BitVec 52 := 0
  taskVa : BitVec 52 := 0
  taskV : Bool := false
  fault : FaultRec := {}
  pend : Option FaultRec := none
  preempt : Bool := false
  step : Bool := false
  stepWait : Bool := false
  eff : Vector (BitVec 128) 16 := Vector.replicate 16 0
  chunks : BitVec 32 := 0
  geom : Geom := {}
  ramp : Ramp := {}
  held : Option Held := none
  loads : List Load := []
  stores : List Store := []
  mmaQ : List MmaJob := []
  vecQ : List VecJob := []
  tyQ : List TyEnt := []
  stamp : Nat := 0
  turn : Nat := 0
  moves : List Move := []
  arr : Array := {}
  chans : Vector Chan 64 := Vector.replicate 64 {}
  poison : Bool := false
  stall : BitVec 9 := 0
  stallV : Bool := false
  svc : Service := {}
  task : Option TaskRef := none
  wantTake : Bool := false
  granted : Option TaskRef := none
  guardWork : List Nat := []
  guardRun : Option Nat := none
  cycles : Nat := 0
  killing : Bool := false
  ringing : Option (Word × Word × Bool) := none
  deriving DecidableEq, Repr

/-- Every unit queue empty and every issued instruction and move complete (R131). -/
def Frame.quiet (fr : Frame) : Bool :=
  fr.mmaQ.isEmpty && fr.vecQ.isEmpty && fr.tyQ.isEmpty && fr.loads.isEmpty && fr.stores.isEmpty
    && fr.moves.all (·.acked)

end Sys2Proof.Machine
end

