-- ==== Sys2Proof/Machine/Blocks.lean ====
section
/-! DEFINITION. The state of the units outside the frames: memory and translation, Task Market, queues and
host link, Exchange, Arvond links, Waggle time, tallies, guard passes, power, firmware and pins. -/

namespace Sys2Proof.Machine

/-! ### Memory (R194–R229) -/

/-- A cached translation (R206): tag, level of the leaf, page number at that level, the leaf. -/
structure TlbE where
  ctx : BitVec 12
  level : Nat
  vpn : Nat
  pte : Word
  deriving DecidableEq, Repr

/-- The scope of an invalidation: what its removal matches (R209). -/
inductive Tlbi where
  | va (ctx : BitVec 12) (va : Nat) | ctx (ctx : BitVec 12) | all
  deriving DecidableEq, Repr

/-- A MEM_REGION entry (R200). -/
structure Region where
  pinned : Bool := false
  cd : BitVec 4 := 0
  slot : BitVec 9
  deriving DecidableEq, Repr

/-- A remote window (R211). -/
structure RWin where
  base : BitVec 36 := 0
  job : BitVec 16 := 0
  pages : BitVec 28 := 0
  r : Bool := false
  w : Bool := false
  bell : Bool := false
  v : Bool := false
  deriving DecidableEq, Repr

/-- The RC counters of MEM_DERRn and MEM_SERRn (R229). -/
structure MErr where
  inner : BitVec 16 := 0
  outer : BitVec 16 := 0
  ue : BitVec 12 := 0
  deriving DecidableEq, Repr

/-- A corrected line or SRAM word waiting for its write-back, stale once a newer write reached it (R217, R219). -/
structure WBack where
  pa : Nat
  data : List Byte
  stale : Bool := false
  deriving DecidableEq, Repr

/-- A DRAM row spared or being copied to its spare (R226). -/
structure RowCopy where
  die : Nat
  bank : Nat
  row : Nat
  deriving DecidableEq, Repr

/-- Memory and its protection (chapter 06). `tlbiWait` holds the writes of MEM_TLBI that wait while 16 invalidations are
pending (R209). `mem` lists by physical address the bytes that are not 0;
`poison` lists the poisoned 32-byte sectors by address / 32. `lost` lists the DRAM regions whose contents a change
of their MEM_REGION entry left undefined, each with the number of its free bytes (R199). -/
structure Memory where
  mem : SMap Byte := []
  poison : SMap Bool := []
  lost : SMap Nat := []
  retired : List (Nat × Nat) := []
  spared : List RowCopy := []
  copying : List RowCopy := []
  wbacks : List WBack := []
  hard : List Nat := []
  hardSram : List Nat := []
  region : Vector Region 384 := Vector.ofFn fun i => { slot := BitVec.ofNat 9 i.val }
  tlbs : SMap (List TlbE) := []
  tlbiIssued : BitVec 32 := 0
  tlbiDone : BitVec 32 := 0
  tlbiWait : List Tlbi := []
  dramHours : Byte := 24
  sramMin : BitVec 6 := 10
  scrubOn : Bool := true
  passes : BitVec 32 := 0
  derr : Vector MErr 64 := Vector.replicate 64 {}
  serr : Vector MErr 64 := Vector.replicate 64 {}
  rwin : Vector RWin 32 := Vector.replicate 32 {}
  deriving DecidableEq, Repr

/-! ### The Task Market (R230–R272) -/

inductive CtxState where
  | free | active | saving | saved | restoring | faulted | killed | stateLost | destroying
  deriving DecidableEq, Repr

/-- Discard counts of a destroy (R295). -/
structure Discards where
  tasks : Nat := 0
  insns : Nat := 0
  chunks : Nat := 0
  withdrawn : Nat := 0
  entries : Nat := 0
  start : Nat := 0
  entry : Option Nat := none
  late : Bool := false
  deriving DecidableEq, Repr

/-- A context record (R248) and what the Market and the frames' units keep for it. -/
structure Ctx where
  state : CtxState := .free
  orphaned : Bool := false
  bound : Bool := false
  insnPreempt : Bool := false
  cls : BitVec 2 := 0
  weight : Byte := 0
  job : BitVec 16 := 0
  stall : BitVec 16 := 0
  ptRoot : Word := 0
  saveArea : Word := 0
  faultArea : Word := 0
  maxTasks : BitVec 32 := 0
  minFrames : BitVec 16 := 0
  maxFrames : BitVec 16 := 0
  preemptWait : BitVec 32 := 1000
  fmtFlags : Word := 0
  saveGen : Word := 0
  frameCycles : Word := 0
  deficit : Int := 0
  semFirst : BitVec 32 := 0
  semCount : BitVec 32 := 0
  needW128 : Bool := false
  offerSeq : Nat := 0
  mktFault : BitVec 7 := 0
  taint : Bool := false
  waiting : Bool := false
  memFault : Bool := false
  unbinding : Bool := false
  orphanStop : Bool := false
  saveFault : Bool := false
  disc : Discards := {}
  resetWait : Bool := false
  destroyWait : Bool := false
  deriving DecidableEq, Repr

/-- Task states (R236). -/
inductive TState where
  | pending | creditWait | offered | taken | saved | done | faulted | discarded
  deriving DecidableEq, Repr

/-- A live task: its record (R231) and the Market's tables (R236–R239). -/
structure Task where
  va : BitVec 52 := 0
  prog : BitVec 52 := 0
  arg : Word := 0
  eff : BitVec 52 := 0
  effN : Nat := 0
  prio : BitVec 3 := 0
  w128 : Bool := false
  credit : Bool := false
  succ : List Nat := []
  crdCh : Nat := 0
  crdN : Nat := 0
  tag : Word := 0
  ctr : Nat := 0
  state : TState := .pending
  offer : Nat := 0
  frame : Option FrameId := none
  deriving DecidableEq, Repr

/-- What launched a group of tasks (R230, R281). -/
inductive GKind where
  | graph | batch | copy (src dst : Nat) (len : Nat) (srcHost dstHost : Bool)
  deriving DecidableEq, Repr

/-- A launched graph, batch or copy (R230, R234, R235). -/
structure Graph where
  id : Nat
  ctx : BitVec 12
  queue : Nat
  seq : Nat
  kind : GKind
  tasks : List Task
  doneSem : Word := 0
  doneVal : Word := 0
  bell : Bool := false
  bellAdd : Bool := false
  tag : Word := 0
  hung : Bool := false
  completed : Bool := false
  aborted : Bool := false
  destroyed : Bool := false
  recWaits : Bool := false
  deriving DecidableEq, Repr

/-- A decrement of a task's counter (R238), with the context, queue and tag of the graph it belongs to. -/
structure Dec where
  task : TaskRef
  ctx : BitVec 12
  queue : Nat
  tag : Word
  deriving DecidableEq, Repr

/-- What a watcher does when it fires (R246). -/
inductive WTarget where
  | task (x : Dec)
  | entry (q seq : Nat)
  deriving DecidableEq, Repr

structure Watcher where
  sem : Nat
  target : Nat
  what : WTarget
  deriving DecidableEq, Repr

/-- A semaphore update on its way to cn2 (R245), with the SIGNAL_SEM entry it completes. -/
structure SemUpd where
  sem : Nat
  value : Word
  add : Bool
  entry : Option (Nat × Nat) := none
  deriving DecidableEq, Repr

/-- A credit channel (R256, R271). -/
structure Credit where
  sem : BitVec 17 := 0
  v : Bool := false
  waiters : List TaskRef := []
  cycles : Word := 0
  deriving DecidableEq, Repr

/-- A frame image of a save image (R261): the frame's state at the save and the saved task. -/
structure Image where
  pa : Nat
  frame : FrameId
  colgrp : Nat
  task : TaskRef
  st : Frame
  deriving DecidableEq, Repr

/-- The image of a saved context (R259, R260). -/
structure SaveImg where
  ctx : BitVec 12
  gen : Word
  images : List Image
  deriving DecidableEq, Repr

structure Market where
  ctxs : SMap Ctx := []
  graphs : List Graph := []
  nextGraph : Nat := 0
  sems : SMap Word := []
  semQ : List SemUpd := []
  watchers : List Watcher := []
  decs : List Dec := []
  credits : SMap Credit := []
  rr : SMap Nat := []
  stallIdle : SMap Word := []
  takes : Word := 0
  dispatchRefused : Bool := false
  bellRefused : Bool := false
  imageInvalid : Bool := false
  refusals : BitVec 16 := 0
  ctxSel : BitVec 12 := 0
  crdSel : BitVec 12 := 0
  stallSel : BitVec 9 := 0
  saves : List SaveImg := []
  deriving DecidableEq, Repr

/-! ### Queues and the host link (R273–R301) -/

inductive QState where
  | free | idle | fetching | held | stopped | destroying
  deriving DecidableEq, Repr

/-- An entry fetched and not completed (R279–R282). -/
inductive EState where
  | fetched | running | watching | arrived
  deriving DecidableEq, Repr

structure Entry where
  seq : Nat
  bytes : List Byte
  state : EState := .fetched
  graph : Option Nat := none
  deriving DecidableEq, Repr

/-- A queue record (R276) and its fetcher (R283–R285). -/
structure QRec where
  state : QState := .free
  admin : Bool := false
  hostDma : Bool := false
  tailSem : Bool := false
  ctx : BitVec 16 := 0
  log2 : Nat := 0
  cring : BitVec 16 := 0
  ring : Word := 0
  headA : Word := 0
  tailA : Word := 0
  sem : BitVec 32 := 0
  hangMs : BitVec 32 := 0
  completed : Word := 0
  dbDropped : Word := 0
  head : Nat := 0
  tail : Nat := 0
  snap : Bool := false
  rung : Bool := false
  holder : Option Nat := none
  entries : List Entry := []
  disc : Discards := {}
  headOwed : Bool := false
  deriving DecidableEq, Repr

/-- A completion ring record (R287) and its writer (R288–R290). -/
structure CRing where
  active : Bool := false
  irqAll : Bool := false
  ctx : BitVec 16 := 0
  log2 : Nat := 0
  vector : BitVec 16 := 0
  ring : Word := 0
  headA : Word := 0
  modUs : BitVec 32 := 0
  count : Nat := 0
  modRunning : Bool := false
  modPending : Bool := false
  errSeen : Bool := false
  deriving DecidableEq, Repr

/-- A completion record that waits for room in its ring, in the order of its context (R289). -/
structure WaitRec where
  ring : Nat
  ctx : BitVec 16
  bytes : List Byte
  irq : Bool
  graph : Option Nat := none
  deriving DecidableEq, Repr

structure Hif where
  queues : SMap QRec := []
  crings : SMap CRing := []
  fwReady : Bool := false
  attached : Bool := false
  gen : BitVec 4 := 0
  width : BitVec 3 := 0
  bar2Map : BitVec 48 := 0
  bar2Log2 : Nat := 28
  heartbeat : Word := 0
  beat : Bool := false
  misses : Nat := 0
  orphanLimit : BitVec 32 := 600
  irqCause : BitVec 4 := 0
  faultArea : BitVec 48 := 0
  mbxBusy : Bool := false
  mbxOverrun : Bool := false
  mbxSeq : BitVec 16 := 0
  mbxReq : SMap Byte := []
  mbxRsp : SMap Byte := []
  mbxHeld : Option (Byte × BitVec 16) := none
  agreed : BitVec 256 := 0
  msixTable : SMap Byte := []
  msixPending : SMap Bool := []
  aer : Nat := 0
  waiting : List WaitRec := []
  deriving DecidableEq, Repr

/-! ### The Exchange (R302–R350) -/

inductive JState where
  | free | open | committing | overdue | faulted
  deriving DecidableEq, Repr

/-- A collective of this attempt that has completed: its bucket, its last redo, and whether it was spoiled (R320, R340). -/
structure Finished where
  bucket : BitVec 16
  redo : Nat := 0
  bad : Bool := false
  deriving DecidableEq, Repr

/-- A job record (R305) and what the Exchange keeps for the job. -/
structure Job where
  state : JState := .free
  policy : Bool := false
  attempt : Nat := 0
  bank : Bool := false
  step : BitVec 32 := 0
  job : BitVec 16 := 0
  ctx : BitVec 16 := 0
  queue : BitVec 16 := 0
  barrier : BitVec 16 := 0
  nrank : Nat := 0
  rank : Nat := 0
  nboard : Nat := 0
  pos : Nat := 0
  slotmask : Byte := 0
  nplane : Nat := 0
  timeout : Nat := 0
  rankmapA : Word := 0
  ringplanA : Word := 0
  cring : Word := 0
  chead : Word := 0
  csem : BitVec 32 := 0
  stepSem : BitVec 32 := 0
  clog2 : Nat := 0
  cfg : BitVec 32 := 0
  stale : Word := 0
  aborts : BitVec 32 := 0
  redos : BitVec 32 := 0
  resends : BitVec 32 := 0
  mismatches : BitVec 32 := 0
  head : Nat := 0
  rankmap : List (BitVec 16) := []
  ring : List Nat := []
  planes : List Nat := []
  hellos : List Nat := []
  jobAbortFwd : Bool := false
  killWaits : Bool := false
  finished : List Finished := []
  results : List (BitVec 16 × Nat × Word × Bool) := []
  owned : List (BitVec 16 × Word × Bool × List Nat) := []
  tallied : List (BitVec 16 × Word) := []
  withdrawn : Bool := false
  nextAbort : List (Nat × Nat × Nat) := []
  deriving DecidableEq, Repr

/-- One received packet of a stream (R317, R319). -/
structure RxPkt where
  data : List Byte
  ld : Nat := 0
  ovf : BitVec 3 := 0
  last : Bool := false
  deriving DecidableEq, Repr

/-- One stream received: stage, sender, packets by index, tallies by segment, segments that checked,
the tally channel of each segment, the mismatches of each segment with its own and the received tally of the last (R319, R335, R336), and for a withdrawn stream the free values that stand for what it does
not bring. -/
structure Rx where
  stage : Nat
  src : Nat
  probe : Bool := false
  withdrawn : Option Nat := none
  pkts : SMap RxPkt := []
  tallies : SMap Word := []
  good : List Nat := []
  chs : SMap Nat := []
  bad : SMap (Nat × Word × Word) := []
  deriving DecidableEq, Repr

/-- Adder entry states (R349). -/
inductive BState where
  | early | waitStart | active | redo | done | spoiled
  deriving DecidableEq, Repr

/-- A collective descriptor fetched (R311), with its phase start or its last report (R314, R341): in Waggle time where `onWag`, else
on the device's own clock (R384). -/
structure CDesc where
  op : Nat
  timed : Bool
  g32 : Bool
  indexed : Bool
  attempt : Nat
  srcFmt : Fmt
  step : BitVec 32
  bucket : BitVec 16
  wire : Fmt
  dstFmt : Fmt
  root : Nat
  src : Nat
  dst : Nat
  count : Nat
  start : Word
  doneSem : BitVec 32
  idxBase : Nat
  hist : Nat
  phase : Nat := 0
  onWag : Bool := false
  overdue : Bool := false
  deriving DecidableEq, Repr

/-- A bucket in the adders: the streams received and, once its collective is fetched, the collective
with its contribution as it goes onto the wire (R319, R349). Of one that is complete, `owes` says that it has segments still to
send (R337), `leaves` that no result tally is awaited any more. -/
structure Bucket where
  job : Nat
  step : BitVec 32
  bucket : BitVec 16
  attempt : Nat
  redo : Nat := 0
  state : BState := .early
  ents : List (Nat × Nat) := []
  rx : List Rx := []
  desc : Option CDesc := none
  phase : Nat := 0
  onWag : Bool := false
  owes : Bool := false
  leaves : Bool := false
  probe : Bool := false
  contrib : List (BitVec 64) := []
  exps : List Nat := []
  sats : List Nat := []
  sent : List (Nat × Nat × Nat) := []
  hist : List Nat := []
  bad : Bool := false
  overdue : Bool := false
  deriving DecidableEq, Repr

/-- A packet sent, with its plane and the link die that keeps it (R302, R337). -/
structure SentPkt where
  pkt : XPkt
  plane : Option Nat
  ld : Nat
  deriving DecidableEq, Repr

/-- A segment sent and not acknowledged (R337); `ch` is its link-die tally channel, die × 64 + channel (R414). -/
structure SentSeg where
  job : Nat
  dst : Nat
  step : BitVec 32
  bucket : BitVec 16
  attempt : Nat
  redo : Nat
  stage : Nat
  seg : Nat
  probe : Bool := false
  ch : Nat := 0
  pkts : List SentPkt
  deriving DecidableEq, Repr

structure Exchange where
  jobs : Vector Job 256 := Vector.replicate 256 {}
  bkts : List Bucket := []
  sent : List SentSeg := []
  heldDesc : SMap CDesc := []
  commits : SMap CDesc := []
  early : List XPkt := []
  unknownJob : Bool := false
  cfgMismatch : Bool := false
  resultMismatch : Bool := false
  resendFail : Bool := false
  unknownCount : BitVec 16 := 0
  bktSel : BitVec 12 := 0
  deriving DecidableEq, Repr

/-! ### Arvond links (R351–R382) -/

inductive PState where
  | offline | detect | eq | laneMap | fecLock | hello | active | quarantined | failed | notReady
  deriving DecidableEq, Repr

/-- The forwarded bytes of a data flit (R353): bytes 0x00–0x07, LEN and payload. `pad` are the bytes of the payload field past
LEN, empty when they are 0; `stamp` is the receive time of a Waggle message (R389). -/
structure Flit where
  cls : BitVec 2
  poison : Bool := false
  proto : Byte
  job : BitVec 16
  dst : BitVec 15
  src : BitVec 15
  payload : List Byte
  pad : List Byte := []
  plane : Option Nat := none
  stamp : BitVec 80 := 0
  deriving DecidableEq, Repr

/-- One Arvond port: registers of R381 and R382 and the link layer of R355–R360. `peerId` and `peerPort` are as HELLO gave
them (R376); `preset` is the one EQ starts from without a hint (R372); `arb` are the weights that the deficits of its
arbitration were filled with (R380). -/
structure LPort where
  state : PState := .offline
  lanes : Nat := 0
  laneMask : Byte := 0
  qcause : BitVec 3 := 0
  hintUsed : Bool := false
  retrains : BitVec 16 := 0
  peerId : BitVec 16 := 0
  peerV : Bool := false
  peerPort : Byte := 0
  crcErr : BitVec 16 := 0
  replays : BitVec 16 := 0
  fecUncorr : BitVec 16 := 0
  laneDrops : BitVec 16 := 0
  malformed : Byte := 0
  unsupported : Byte := 0
  creditOvr : Byte := 0
  violRetrains : Byte := 0
  txSeq : BitVec 32 := 0
  rxSeq : BitVec 32 := 0
  replay : List (BitVec 32 × Flit) := []
  resend : Nat := 0
  nak : Bool := false
  rx : List Flit := []
  freed : Vector (BitVec 16) 3 := Vector.replicate 3 0
  sentC : Vector (BitVec 16) 3 := Vector.replicate 3 0
  shares : Vector (BitVec 16) 3 := #v[64, 2560, 1472]
  limit : Vector (BitVec 16) 3 := #v[64, 2560, 1472]
  egW : List Flit := []
  egC : List Flit := []
  egB : List Flit := []
  tokens : Nat := 0
  tokenCnt : Nat := 0
  defC : Nat := 0
  defB : Nat := 0
  arb : Nat × Nat := (3, 1)
  slot : Nat := 0
  msgs : List (List Byte) := []
  viol : List Nat := []
  retrainAt : List Nat := []
  parked : Bool := false
  noPlace : Bool := false
  fromHint : Bool := false
  preset : BitVec 4 := 7
  obs : TrainObs := {}
  deriving DecidableEq, Repr

/-- Who waits for an answer to a class B request or bell (R354, R210). -/
inductive Origin where
  | load (f : FrameId)
  | store (f : FrameId)
  | moveRead (f : FrameId)
  | moveWrite (f : FrameId)
  | taskBell (f : FrameId) (ctx : BitVec 12) (task : TaskRef) (word : Word) (add : Bool) (q : Nat) (tag : Word)
  | graphBell (ctx : BitVec 12) (q : Nat) (tag : Word) (add : Bool)
  | entryBell (q seq : Nat)
  | other (ctx : BitVec 12)
  deriving DecidableEq, Repr

/-- A class B request or bell without its answer: what its flits brought so far, piece by piece from the byte each piece
starts at, whether any was poisoned (R354), and the invalidation that waits for it (R207). -/
structure Req where
  tag : BitVec 32
  origin : Origin
  addr : Word
  bytes : Nat := 0
  store : Bool := false
  got : SMap (List Byte) := []
  psn : Bool := false
  inv : Option (BitVec 32) := none
  deriving DecidableEq, Repr

structure Links where
  devId : BitVec 15 := 0
  devV : Bool := false
  cWeight : Byte := 3
  bWeight : Byte := 1
  ports : Vector LPort 32 := Vector.replicate 32 {}
  rtb : Vector Word 64 := Vector.replicate 64 0
  rtr : SMap Word := []
  planGen : BitVec 32 := 0
  plan : Option (List PlanEntry) := none
  hints : List (Nat × EqHint) := []
  wave : Option (Fin 4) := none
  reqs : List Req := []
  nextTag : BitVec 32 := 0
  degraded : Bool := false
  refusedB : BitVec 16 := 0
  deriving DecidableEq, Repr

/-! ### Waggle time and barriers (R383–R408) -/

inductive WState where
  | freeRun | acquiring | locked | holdover | root
  deriving DecidableEq, Repr

inductive GState where
  | free | idle | arrived | broken
  deriving DecidableEq, Repr

/-- Who arrives at a barrier group (R399). -/
inductive Arrival where
  | entry (q seq : Nat)
  | commit (episode : Word)
  deriving DecidableEq, Repr

/-- A barrier group: descriptor of R398 and the flags of R401; `failed` are the messages to send again, by episode, round and
member (R405). -/
structure Group where
  state : GState := .free
  tagged : Bool := false
  nIn : Nat := 0
  nOut : Nat := 0
  member : Nat := 0
  key : BitVec 32 := 0
  ctx : BitVec 16 := 0
  job : BitVec 16 := 0
  membersA : Word := 0
  episode : Word := 0
  relSem : BitVec 32 := 0
  round : Nat := 0
  completions : Word := 0
  stale : BitVec 32 := 0
  members : List (BitVec 16) := []
  flags : List (Nat × Nat) := []
  later : Option (Word × List (Nat × Nat)) := none
  past : Bool := false
  entry : Option (Nat × Nat) := none
  waiters : List Arrival := []
  failed : List (Word × Nat × Nat) := []
  deriving DecidableEq, Repr

/-- A timed bell handed to the link dies (R188, R394). -/
structure TBell where
  addr : Word
  value : Word
  add : Bool
  time : Word
  job : BitVec 16
  origin : Origin
  deriving DecidableEq, Repr

/-- The Waggle counter, 64 bits of nanoseconds over 16 of fraction, what its rate has added below the fraction in units of
2^-32 ns, and the servo (R383–R391). `heard` is when the parent last answered, or became the parent, on the local clock, and `portLost` that the port toward it has
left ACTIVE since (R387). -/
structure Waggle where
  ctr : BitVec 80 := 0
  sub : BitVec 16 := 0
  valid : Bool := false
  state : WState := .freeRun
  role : BitVec 2 := 0
  parent : Option (BitVec 15) := none
  primary : Option (BitVec 15) := none
  parentPort : BitVec 5 := 0
  portLost : Bool := false
  fallback : Bool := false
  earlyRel : BitVec 16 := 0
  offset : BitVec 32 := 0
  rate : Int := 0
  fi : Int := 0
  window : List (Int × Int) := []
  reqSeq : BitVec 32 := 0
  good : Nat := 0
  badRun : Nat := 0
  primGood : Nat := 0
  primSeq : BitVec 32 := 0
  primAns : Bool := false
  heard : Nat := 0
  root : BitVec 15 := 0
  rootV : Bool := false
  rootNamed : Bool := false
  slot : BitVec 6 := 0
  heldCnt : BitVec 16 := 0
  starts : List Nat := []
  tbells : List TBell := []
  groups : SMap Group := []
  deriving DecidableEq, Repr

/-! ### Tallies (R414–R417) -/

/-- A running scan (R415). -/
structure Scan where
  pa : Nat
  len : Nat
  deriving DecidableEq, Repr

/-- A DRAM-controller channel with its scan registers (R415, R417). -/
structure UChan where
  c : Chan := {}
  scan : Option Scan := none
  base : BitVec 48 := 0
  len : BitVec 39 := 0
  err : Bool := false
  kibDone : BitVec 32 := 0
  deriving DecidableEq, Repr

/-- The selected channel and the DRAM-controller channels; those of the link dies stand with the segments they serve (R414). -/
structure Tally where
  ch : BitVec 6 := 0
  kind : BitVec 2 := 0
  unit : BitVec 6 := 0
  dram : SMap UChan := []
  deriving DecidableEq, Repr

/-! ### Guard passes and ledger (R418–R437) -/

/-- What the guard buffer mirrors of a tile (R422): each activation row with the block scales and poison bits, and the
instruction with the planes it streams against, which holds what the 64-byte record does. -/
structure Mirror where
  job : MmaJob
  rows : List (List Cell × List Byte) := []
  deriving DecidableEq, Repr

/-- A sampled tile that awaits its verdict: its mirrored operands, the prefix of its tallies and the runs so far
(R422–R425). -/
structure GTile where
  id : Nat
  frame : FrameId
  ctx : BitVec 12
  seq : Word
  n : Nat
  half : Bool
  bytes : Nat
  mirror : Mirror
  pfx : List Byte
  unver : Bool := false
  tally : Option Word := none
  guard : Option FrameId := none
  guardTally : Option Word := none
  referee : Option FrameId := none
  deriving DecidableEq, Repr

/-- A commit point under R430: what it does once every tile sampled before it has its verdict. `nextJob` is the COMMIT that its job
holds for the next step (R313). -/
inductive Commit where
  | taskDone (f : FrameId)
  | bell (f : FrameId)
  | graph (g : Nat)
  | signal (q seq : Nat)
  | copy (f : FrameId)
  | job (j : Nat)
  | nextJob (j : Nat)
  deriving DecidableEq, Repr

/-- The tiles that a commit point waits for, in the order the waits began; a COMMIT has its set from its fetch, before its wait
has begun (R430). -/
structure Held430 where
  ctx : BitVec 12
  what : Commit
  tiles : List Nat
  begun : Bool := true
  deriving DecidableEq, Repr

structure Guard where
  enable : Bool := true
  rateLog2 : BitVec 4 := 6
  waitMs : BitVec 14 := 100
  sampled : BitVec 32 := 0
  mismatch : BitVec 16 := 0
  poisonSkip : BitVec 32 := 0
  unverified : BitVec 32 := 0
  fsel : BitVec 9 := 0
  csel : BitVec 12 := 0
  tiles : List GTile := []
  nextId : Nat := 0
  seq : Word := 0
  waits : List Held430 := []
  ledgerBase : BitVec 48 := 0
  written : BitVec 32 := 0
  exported : BitVec 32 := 0
  lost : BitVec 32 := 0
  suppressed : BitVec 32 := 0
  window : SMap Nat := []
  deriving DecidableEq, Repr

/-! ### Power (R462–R466, R483) -/

/-- A comb die: its rail code, CAP, the levels of it that package power took (R466), and its hottest sensor. -/
structure Die where
  code : Nat := 28
  cap : Nat := 8
  cut : Nat := 0
  tj : Byte := 0
  deriving DecidableEq, Repr

/-- `next` is what POWER_CFG set, until the next control interval (R454). -/
structure Power where
  watts : BitVec 12 := 1800
  tThrottle : Byte := 95
  pkgW : BitVec 12 := 0
  tjMax : Byte := 0
  capped : Bool := false
  thermal : Bool := false
  dies : Vector Die 16 := Vector.replicate 16 {}
  means : List Nat := []
  low : Nat := 0
  forced : Bool := false
  held4 : Bool := false
  next : Option (BitVec 12 × Byte) := none
  deriving DecidableEq, Repr

/-! ### Firmware and the Apiary port (R441–R461) -/

inductive BootPhase where
  | off | reset | thermalHold | testHold | apiaryUp | fetching | backoff | started | ready
  deriving DecidableEq, Repr

/-- An image load in progress (R445–R447, R453). -/
structure BootLoad where
  length : Nat
  nchunk : Nat
  server : BitVec 128
  frags : SMap (List Byte) := []
  header : Option (List Byte) := none
  hashes : Option (List Byte) := none
  chunks : List Nat := []
  asked : Nat := 0
  tries : SMap Nat := []
  deriving DecidableEq, Repr

/-- An entry of the image's section table (R445): payload offset, length, target, entry offset. -/
structure Section where
  off    : Nat
  len    : Nat
  target : Byte
  entry  : Word
  deriving DecidableEq, Repr

/-- A firmware processor that runs (R441–R443): its private SRAM as its image section filled it, where it was entered, and
when it last wrote its kick register, in ns of the local clock. -/
structure FwCore where
  sram  : List Byte
  entry : Word
  kick  : Nat
  deriving DecidableEq, Repr

/-- A report that awaits its acknowledgement (R453). -/
structure Report where
  seq : Word
  type : Byte
  body : List Byte
  deriving DecidableEq, Repr

/-- Fused values (R19, R90, R446, R448, R452), and the ROM's digests of the four Tolord signing keys (R446). -/
structure Fuses where
  secret : List Byte := List.replicate 32 0
  keyDigests : Vector (List Byte) 4 := Vector.replicate 4 (List.replicate 64 0)
  owner : Option (List Byte) := none
  revoked : BitVec 4 := 0
  minSvn : BitVec 16 := 0
  shipped : BitVec 9 := 384
  badFrames : BitVec 384 := 0
  repairs : List (FrameId × SelfTest) := []
  deriving DecidableEq, Repr

/-- Boot, Apiary, log and trace. `bist` is what the ROM's self-test of DRAM finds at a boot (R227); `reserve` holds the chunks
of the image in the firmware reserve (R442, R446), and `sections` its section table; `engineKey` is the private key in the
identity engine, and `fusesBlocked` that no fuse can be read until the next reset (R448); `tested`, `repairDone` and `listLate`
are the self-test, the repair list and its timeout of step 5 (R444); `leap` is the leap second announced, by the PTP second
from which its offset is in force (R456); `addrs` are the addresses formed by SLAAC (R451); `traceCnt` records were written to the trace ring in second `traceSec` (R459). -/
structure Firmware where
  phase : BootPhase := .reset
  load : Option BootLoad := none
  fails : Nat := 0
  loadTries : Byte := 0
  fwId : Word := 0
  svn : BitVec 16 := 0
  imageDigest : List Byte := []
  keyIndex : Byte := 0
  serial : List Byte := []
  fuses : Fuses := {}
  session : BitVec 128 := 0
  boots : Nat := 0
  key : Option (List Byte) := none
  lastSeq : Option Word := none
  lastResult : List Byte := []
  cmdWait : List (Word × ApiaryCmd) := []
  txSeq : Word := 0
  reports : List Report := []
  logBase : BitVec 48 := 0
  logLevel : BitVec 2 := 2
  logHead : BitVec 32 := 0
  traceBase : BitVec 48 := 0
  traceLog2 : BitVec 5 := 16
  traceWritten : BitVec 32 := 0
  traceDropped : BitVec 32 := 0
  traceSec : Nat := 0
  traceCnt : Nat := 0
  traceMask : Vector Word 16 := Vector.replicate 16 0
  wdog : BitVec 16 := 0
  apyDropped : BitVec 32 := 0
  suspLoaded : Bool := false
  bist : List RepairEntry := []
  repairFrags : List RepairEntry := []
  repairDone : Bool := false
  listLate : Bool := false
  tested : Bool := false
  reserve : SMap (List Byte) := []
  sections : List Section := []
  cores : SMap FwCore := []
  engineKey : Option (List Byte) := none
  fusesBlocked : Bool := false
  ptpGood : Nat := 0
  wallV : Bool := false
  utcOffset : Int := 0
  utcValid : Bool := false
  wallOff : Int := 0
  addrs : List (List Byte) := []
  leap : Option (Int × Int) := none
  restarting : List CoreId := []
  deriving DecidableEq, Repr

/-! ### Resets and pins (R467–R500) -/

structure Pins where
  level : BitVec 3 := 5
  cause : BitVec 5 := 0
  rail : BitVec 5 := 0
  count : BitVec 16 := 0
  tjTrip : Byte := 0
  power : Bool := true
  perst : Bool := true
  railHold : Bool := false
  jtagHold : Bool := false
  thermN : Bool := false
  ir : TapInsn := .idcode
  board : BitVec 3 := 0
  slot : BitVec 3 := 0
  test : Bool := false
  node0 : BitVec 9 := 0
  en0 : Bool := false
  node1 : BitVec 9 := 0
  en1 : Bool := false
  deriving DecidableEq, Repr

/-! ### What the device sends out -/

/-- A UDP datagram of the Apiary port (R451): addresses as their 16 bytes, the management station's where the manual names no
destination, the port, and header and body. -/
structure Datagram where
  src     : List Byte
  dst     : Option (List Byte)
  port    : Nat
  payload : List Byte
  deriving DecidableEq, Repr

/-- Something the device sent to the outside (the model's own log, not read back by any command). -/
inductive Out where
  | flit (port : Port) (bytes : List Byte)
  | control (port : Port) (bytes : List Byte)
  | msix (v : Nat)
  | hostWrite (addr : Nat) (data : List Byte) (poison : Bool)
  | hostReadReq (addr len : Nat)
  | completion (data : List Byte) (poison : Bool)
  | completerAbort
  | apiary (x : Datagram)
  | vr (bus : Nat) (frame : BitVec 16)
  | thermN (low : Bool)
  | notReady (port : Port)
  | train (port : Port) (st : PState)
  deriving DecidableEq, Repr

end Sys2Proof.Machine
end

