-- ==== Sys2Proof/Syntax.lean ====
section
/-! DEFINITION. The commands of the device: one constructor of `Instr` for each row of the table of
operations and events, with the operands the event carries. -/

namespace Sys2Proof

/-- The commands: one constructor for each row of the table. -/
inductive Instr where
  /-- NOP (R151). -/
  | nop (f : FrameId) (x : Insn)
  /-- ADD (R151). -/
  | add (f : FrameId) (x : Insn)
  /-- SUB (R151). -/
  | sub (f : FrameId) (x : Insn)
  /-- MUL (R151). -/
  | mul (f : FrameId) (x : Insn)
  /-- AND (R151). -/
  | andS (f : FrameId) (x : Insn)
  /-- OR (R151). -/
  | orS (f : FrameId) (x : Insn)
  /-- XOR (R151). -/
  | xorS (f : FrameId) (x : Insn)
  /-- SHL (R151). -/
  | shl (f : FrameId) (x : Insn)
  /-- SHR (R151). -/
  | shr (f : FrameId) (x : Insn)
  /-- SRA (R151). -/
  | sra (f : FrameId) (x : Insn)
  /-- ADDI (R151). -/
  | addi (f : FrameId) (x : Insn)
  /-- ANDI (R151). -/
  | andi (f : FrameId) (x : Insn)
  /-- SHLI (R151). -/
  | shli (f : FrameId) (x : Insn)
  /-- SHRI (R151). -/
  | shri (f : FrameId) (x : Insn)
  /-- CMP (R152). -/
  | cmp (f : FrameId) (x : Insn)
  /-- CMPI (R152). -/
  | cmpi (f : FrameId) (x : Insn)
  /-- AMOV (R151). -/
  | amov (f : FrameId) (x : Insn)
  /-- AADD (R151). -/
  | aadd (f : FrameId) (x : Insn)
  /-- SMOVA (R151). -/
  | smova (f : FrameId) (x : Insn)
  /-- KAND (R151). -/
  | kand (f : FrameId) (x : Insn)
  /-- KOR (R151). -/
  | kor (f : FrameId) (x : Insn)
  /-- KNOT (R151). -/
  | knot (f : FrameId) (x : Insn)
  /-- B (R151). -/
  | b (f : FrameId) (x : Insn)
  /-- BZ (R151). -/
  | bz (f : FrameId) (x : Insn)
  /-- BNZ (R151). -/
  | bnz (f : FrameId) (x : Insn)
  /-- BK (R111). -/
  | bk (f : FrameId) (x : Insn)
  /-- BR (R153). -/
  | br (f : FrameId) (x : Insn)
  /-- LI64 (R154). -/
  | li64 (f : FrameId) (x : Insn) (imm : Word)
  /-- AI64 (R154). -/
  | ai64 (f : FrameId) (x : Insn) (imm : Word)
  /-- MMA_F (R161). -/
  | mmaF (f : FrameId) (x : Insn)
  /-- MMA_H2 (R161). -/
  | mmaH2 (f : FrameId) (x : Insn)
  /-- MMA_Q4 (R161). -/
  | mmaQ4 (f : FrameId) (x : Insn)
  /-- WEIGHT_PLANE_LOADED (R68). -/
  | weightPlaneLoaded (f : FrameId)
  /-- MMA_COMPLETE (R163). -/
  | mmaComplete (m : MmaEnd)
  /-- VADD (R167). -/
  | vadd (f : FrameId) (x : Insn)
  /-- VSUB (R167). -/
  | vsub (f : FrameId) (x : Insn)
  /-- VMUL (R167). -/
  | vmul (f : FrameId) (x : Insn)
  /-- VFMA (R167). -/
  | vfma (f : FrameId) (x : Insn)
  /-- VMAX (R168). -/
  | vmax (f : FrameId) (x : Insn)
  /-- VMIN (R168). -/
  | vmin (f : FrameId) (x : Insn)
  /-- VABS (R169). -/
  | vabs (f : FrameId) (x : Insn)
  /-- VNEG (R169). -/
  | vneg (f : FrameId) (x : Insn)
  /-- VCMP (R168). -/
  | vcmp (f : FrameId) (x : Insn)
  /-- VSEL (R168). -/
  | vsel (f : FrameId) (x : Insn)
  /-- VAND (R169). -/
  | vand (f : FrameId) (x : Insn)
  /-- VOR (R169). -/
  | vor (f : FrameId) (x : Insn)
  /-- VXOR (R169). -/
  | vxor (f : FrameId) (x : Insn)
  /-- VSHL (R169). -/
  | vshl (f : FrameId) (x : Insn)
  /-- VSHR (R169). -/
  | vshr (f : FrameId) (x : Insn)
  /-- VEXP2 (R170). -/
  | vexp2 (f : FrameId) (x : Insn)
  /-- VLOG2 (R170). -/
  | vlog2 (f : FrameId) (x : Insn)
  /-- VRCP (R170). -/
  | vrcp (f : FrameId) (x : Insn)
  /-- VRSQRT (R170). -/
  | vrsqrt (f : FrameId) (x : Insn)
  /-- VSQRT (R170). -/
  | vsqrt (f : FrameId) (x : Insn)
  /-- VEXP (R170). -/
  | vexp (f : FrameId) (x : Insn)
  /-- VTANH (R170). -/
  | vtanh (f : FrameId) (x : Insn)
  /-- VSIGM (R170). -/
  | vsigm (f : FrameId) (x : Insn)
  /-- VRSUM (R172). -/
  | vrsum (f : FrameId) (x : Insn)
  /-- VRMAX (R171). -/
  | vrmax (f : FrameId) (x : Insn)
  /-- VRMIN (R171). -/
  | vrmin (f : FrameId) (x : Insn)
  /-- CVT (R175). -/
  | cvt (f : FrameId) (x : Insn)
  /-- CVTG (R176). -/
  | cvtg (f : FrameId) (x : Insn)
  /-- GADD (R176). -/
  | gadd (f : FrameId) (x : Insn)
  /-- CVTX (R177). -/
  | cvtx (f : FrameId) (x : Insn)
  /-- VECTOR_COMPLETE (R173). -/
  | vectorComplete (f : FrameId)
  /-- MOV (R128). -/
  | mov (f : FrameId) (x : Insn)
  /-- MOVE_LINE_LANDED (R130). -/
  | moveLineLanded (f : FrameId) (i : Nat) (line : LandedLine) (host : List Byte) (hostPoison : Bool)
  /-- MOVE_ACKNOWLEDGED (R130). -/
  | moveAcknowledged (f : FrameId) (i : Nat)
  /-- TLD (R178). -/
  | tld (f : FrameId) (x : Insn)
  /-- TLDL (R178). -/
  | tldl (f : FrameId) (x : Insn)
  /-- TST (R178). -/
  | tst (f : FrameId) (x : Insn)
  /-- TWR (R178). -/
  | twr (f : FrameId) (x : Insn)
  /-- TRD (R178). -/
  | trd (f : FrameId) (x : Insn)
  /-- TADDB (R179). -/
  | taddb (f : FrameId) (x : Insn)
  /-- TEXT (R178). -/
  | text (f : FrameId) (x : Insn)
  /-- LDS (R178). -/
  | lds (f : FrameId) (x : Insn)
  /-- STS (R178). -/
  | sts (f : FrameId) (x : Insn)
  /-- LDSL (R178). -/
  | ldsl (f : FrameId) (x : Insn)
  /-- STSL (R178). -/
  | stsl (f : FrameId) (x : Insn)
  /-- LDA (R178). -/
  | lda (f : FrameId) (x : Insn)
  /-- STA (R178). -/
  | sta (f : FrameId) (x : Insn)
  /-- LOCKED_REGISTER_UNLOCK (R150). -/
  | lockedRegisterUnlock (f : FrameId) (l : LandedLoad)
  /-- STORE_ACKNOWLEDGED (R180). -/
  | storeAcknowledged (f : FrameId) (i : Nat)
  /-- TYINIT (R183). -/
  | tyinit (f : FrameId) (x : Insn)
  /-- TYDATA (R183). -/
  | tydata (f : FrameId) (x : Insn)
  /-- TYRD (R184). -/
  | tyrd (f : FrameId) (x : Insn)
  /-- TYWR (R184). -/
  | tywr (f : FrameId) (x : Insn)
  /-- WAIT_AC (R131). -/
  | waitAc (f : FrameId) (x : Insn)
  /-- WAIT_MC (R131). -/
  | waitMc (f : FrameId) (x : Insn)
  /-- WAIT_ACR (R186). -/
  | waitAcr (f : FrameId) (x : Insn)
  /-- WAIT_MCR (R186). -/
  | waitMcr (f : FrameId) (x : Insn)
  /-- WAIT_ALL (R131). -/
  | waitAll (f : FrameId) (x : Insn)
  /-- ISSUE_HOLD_RELEASE (R131). -/
  | issueHoldRelease (f : FrameId)
  /-- DONE (R133). -/
  | done (f : FrameId) (x : Insn)
  /-- BELL (R188). -/
  | bell (f : FrameId) (x : Insn)
  /-- TASK_DONE_SIGNAL (R237). -/
  | taskDoneSignal (f : FrameId)
  /-- TASK_FAULT_SIGNAL (R134). -/
  | taskFaultSignal (f : FrameId)
  /-- MEMORY_ERROR_RESPONSE (R135). -/
  | memoryErrorResponse (f : FrameId) (acc : Access)
  /-- FETCH_FAULT (R122). -/
  | fetchFault (f : FrameId)
  /-- RAMP_RISE_INTERVAL (R94). -/
  | rampRiseInterval (f : FrameId) (r : RampObs)
  /-- RAMP_FALL_INTERVAL (R95). -/
  | rampFallInterval (f : FrameId) (demand : Nat)
  /-- GUARD_BUFFER_FREED (R422). -/
  | guardBufferFreed (f : FrameId)
  /-- GUARD_TAKE (R424). -/
  | guardTake (f : FrameId)
  /-- GUARD_RUN_COMPLETE (R425). -/
  | guardRunComplete (f : FrameId) (tally : Word)
  /-- GUARD_WAIT_EXPIRY (R430). -/
  | guardWaitExpiry (ctx : BitVec 12)
  /-- FLAGGED_FRAME_REMOVAL (R426). -/
  | flaggedFrameRemoval (f : FrameId)
  /-- TAKE_REQUEST (R240). -/
  | takeRequest (f : FrameId)
  /-- TAKE_GRANT (R252). -/
  | takeGrant (f : FrameId) (req : Option TaskRef)
  /-- TAKE_COMPLETE (R506). -/
  | takeComplete (f : FrameId)
  /-- SUCCESSOR_DECREMENT (R238). -/
  | successorDecrement
  /-- SEMAPHORE_UPDATE (R245). -/
  | semaphoreUpdate
  /-- LAUNCH_HOLD_RELEASE (R234). -/
  | launchHoldRelease (q : BitVec 14)
  /-- GRAPH_HANG (R292). -/
  | graphHang (g : Nat)
  /-- CONTEXT_BIND (R264). -/
  | contextBind (ctx : BitVec 12) (stall : Nat)
  /-- CONTEXT_UNBIND (R254). -/
  | contextUnbind (ctx : BitVec 12)
  /-- PREEMPT_WAIT_EXPIRY (R254). -/
  | preemptWaitExpiry (ctx : BitVec 12)
  /-- STALL_REALLOCATION (R253). -/
  | stallReallocation (moves : List (FrameId × Option Nat))
  /-- SAVE_IMAGE_WRITTEN (R262). -/
  | saveImageWritten (ctx : BitVec 12)
  /-- RESTORE_COMPLETE (R264). -/
  | restoreComplete (ctx : BitVec 12)
  /-- CONTEXT_DESTROY_COMPLETE (R249). -/
  | contextDestroyComplete (ctx : BitVec 12)
  /-- STALL_RESET (R472). -/
  | stallReset (stall : Nat)
  /-- SAVE_RESET_WAIT_EXPIRY (R474). -/
  | saveResetWaitExpiry (ctx : BitVec 12)
  /-- FRM_CTRL_PREEMPT (R145). -/
  | frmCtrlPreempt (f : FrameId)
  /-- FRM_CTRL_STEP (R145). -/
  | frmCtrlStep (f : FrameId) (on : Bool)
  /-- DOORBELL (R283). -/
  | doorbell (q : BitVec 14)
  /-- ENTRY_FETCH (R285). -/
  | entryFetch (q : BitVec 14)
  /-- QUEUE_HOLD_END (R284). -/
  | queueHoldEnd (q : BitVec 14)
  /-- GRAPH_LAUNCH (R234). -/
  | graphLaunch (q : BitVec 14)
  /-- TASK_BATCH (R281). -/
  | taskBatch (q : BitVec 14)
  /-- COPY (R281). -/
  | copy (q : BitVec 14)
  /-- WAIT_SEM (R282). -/
  | waitSem (q : BitVec 14)
  /-- WAIT_SEM_TIMEOUT (R281). -/
  | waitSemTimeout (q : BitVec 14)
  /-- SIGNAL_SEM (R281). -/
  | signalSem (q : BitVec 14)
  /-- BARRIER (R399). -/
  | barrier (q : BitVec 14)
  /-- NOP_ENTRY (R280). -/
  | nopEntry (q : BitVec 14)
  /-- CREATE_CTX (R250). -/
  | createCtx (semFirst : Nat)
  /-- DESTROY_CTX (R286). -/
  | destroyCtx
  /-- RESUME_CTX (R251). -/
  | resumeCtx
  /-- CREATE_QUEUE (R286). -/
  | createQueue
  /-- DESTROY_QUEUE (R294). -/
  | destroyQueue
  /-- ADOPT_CTX (R301). -/
  | adoptCtx
  /-- CREATE_CRING (R286). -/
  | createCring
  /-- DESTROY_CRING (R286). -/
  | destroyCring
  /-- SET_SCHED (R286). -/
  | setSched
  /-- QUEUE_QUIESCED (R295). -/
  | queueQuiesced (q : BitVec 14)
  /-- QUIESCE_TIMEOUT (R295). -/
  | quiesceTimeout (q : BitVec 14)
  /-- CRING_HEAD_POLL (R289). -/
  | cringHeadPoll (r : BitVec 14)
  /-- IRQ_MODERATION_EXPIRY (R290). -/
  | irqModerationExpiry (r : BitVec 14)
  /-- HOST_READ_FAILURE (R297). -/
  | hostReadFailure (f : FrameId)
  /-- ATTACH (R300). -/
  | attach (seq : BitVec 16)
  /-- DETACH (R300). -/
  | detach (seq : BitVec 16)
  /-- HEARTBEAT (R299). -/
  | heartbeat (v : Word)
  /-- HEARTBEAT_SAMPLE (R301). -/
  | heartbeatSample
  /-- ORPHAN_LIMIT_EXPIRY (R301). -/
  | orphanLimitExpiry (ctx : BitVec 12)
  /-- MEM_TLBI_VA (R207). -/
  | memTlbiVa (ctx : BitVec 12) (va : BitVec 52)
  /-- MEM_TLBI_CTX (R207). -/
  | memTlbiCtx (ctx : BitVec 12)
  /-- MEM_TLBI_ALL (R207). -/
  | memTlbiAll
  /-- TLBI_DONE (R207). -/
  | tlbiDone
  /-- SCAN_GO (R415). -/
  | scanGo (v : Word)
  /-- SCAN_COMPLETE (R415). -/
  | scanComplete (die : Fin 64) (ch : Fin 64)
  /-- DBG_RESET_WARM (R476). -/
  | dbgResetWarm (v : Word)
  /-- DBG_RESET_COLD (R484). -/
  | dbgResetCold (v : Word)
  /-- REGISTER_WRITE (R505). -/
  | registerWrite (core : Bool) (addr : Nat) (size : Nat) (v : Word)
  /-- REGISTER_READ_CLEAR (R505). -/
  | registerReadClear (addr : Nat) (size : Nat)
  /-- HOST_ACCESS_ABORT (R274). -/
  | hostAccessAbort (off : Nat) (size : Nat) (write : Bool)
  /-- BAR2_ACCESS (R275). -/
  | bar2Access (op : Bar2Op)
  /-- ALL_REDUCE (R322). -/
  | allReduce (j : JobIx)
  /-- REDUCE_SCATTER (R322). -/
  | reduceScatter (j : JobIx)
  /-- ALL_GATHER (R332). -/
  | allGather (j : JobIx)
  /-- BROADCAST (R325). -/
  | broadcast (j : JobIx)
  /-- ALL_TO_ALL (R312). -/
  | allToAll (j : JobIx)
  /-- MAX_IDX (R326). -/
  | maxIdx (j : JobIx)
  /-- MIN_IDX (R326). -/
  | minIdx (j : JobIx)
  /-- COMMIT (R344). -/
  | commit (j : JobIx)
  /-- TIMED_COLLECTIVE_START (R314). -/
  | timedCollectiveStart (j : JobIx) (bucket : BitVec 16)
  /-- COLLECTIVE_COMPLETE (R315). -/
  | collectiveComplete (j : JobIx) (bucket : BitVec 16)
  /-- COLLECTIVE_TIMEOUT (R341). -/
  | collectiveTimeout (j : JobIx) (bucket : BitVec 16)
  /-- RESEND_REPEAT (R336). -/
  | resendRepeat (j : JobIx) (bucket : BitVec 16)
  /-- DATA (R319). -/
  | data (p : XPkt)
  /-- TALLY (R336). -/
  | tally (p : XPkt)
  /-- SEG_ACK (R337). -/
  | segAck (p : XPkt)
  /-- RESEND (R336). -/
  | resend (p : XPkt)
  /-- JOB_HELLO (R307). -/
  | jobHello (p : XPkt)
  /-- STEP_ABORT (R342). -/
  | stepAbort (p : XPkt)
  /-- JOB_ABORT (R345). -/
  | jobAbort (p : XPkt)
  /-- RESULT_TALLY (R338). -/
  | resultTally (p : XPkt)
  /-- DATA_FLIT (R358). -/
  | dataFlit (p : Port) (fl : LinkFlit)
  /-- LINK_CONTROL_FLIT (R356). -/
  | linkControlFlit (p : Port) (fl : LinkFlit)
  /-- LINK_HELLO (R376). -/
  | linkHello (p : Port) (id : BitVec 16) (peerPort : Byte) (gen : BitVec 32)
  /-- UNSUPPORTED (R378). -/
  | unsupported (p : Port) (hdr : List Byte)
  /-- CREDIT_VIOLATION (R378). -/
  | creditViolation (p : Port) (cls : Byte) (n : BitVec 16)
  /-- LANE_DROP (R375). -/
  | laneDrop (p : Port) (mask : Byte) (count : Byte)
  /-- RETRAIN (R378). -/
  | retrain (p : Port) (cause : Byte)
  /-- QUARANTINE (R378). -/
  | quarantine (p : Port) (cause : Byte)
  /-- BELL_FLIT (R210). -/
  | bellFlit (m : BellMsg)
  /-- B_READ_REQUEST (R210). -/
  | bReadRequest (m : BReadMsg)
  /-- B_READ_DATA (R354). -/
  | bReadData (m : BDataMsg)
  /-- B_WRITE (R210). -/
  | bWrite (m : BWriteMsg)
  /-- B_WRITE_ACKNOWLEDGEMENT (R354). -/
  | bWriteAcknowledgement (tag : BitVec 32) (n : Nat)
  /-- ERROR_RESPONSE (R210). -/
  | errorResponse (tag : BitVec 32) (cause : Byte)
  /-- REMOTE_REQUEST_TIMEOUT (R354). -/
  | remoteRequestTimeout (tag : BitVec 32)
  /-- LANE_FAILURE (R374). -/
  | laneFailure (p : Port) (lane : Fin 8)
  /-- ROUTE_CHANGE (R370). -/
  | routeChange (ops : List RouteOp)
  /-- TRAINING_WAVE_START (R480). -/
  | trainingWaveStart (wave : Fin 4)
  /-- TRAINING_STATE_COMPLETE (R371). -/
  | trainingStateComplete (p : Port) (o : TrainObs)
  /-- TRAINING_TIMEOUT (R371). -/
  | trainingTimeout (p : Port)
  /-- TRAINING_RETRY (R371). -/
  | trainingRetry (p : Port)
  /-- PARKED_PORT_RELEASE (R481). -/
  | parkedPortRelease (p : Port)
  /-- PORT_LEAVE_QUARANTINE (R454). -/
  | portLeaveQuarantine (au : Auth) (p : Port)
  /-- PORT_QUARANTINE (R454). -/
  | portQuarantine (au : Auth) (p : Port)
  /-- PORT_RETRAIN (R454). -/
  | portRetrain (au : Auth) (p : Port)
  /-- WAGGLE_EXCHANGE_TIMER (R386). -/
  | waggleExchangeTimer
  /-- WAGGLE_REQ (R389). -/
  | waggleReq (p : Port) (src : BitVec 15) (m : WagMsg)
  /-- WAGGLE_RSP (R390). -/
  | waggleRsp (p : Port) (src : BitVec 15) (m : WagMsg)
  /-- PARENT_LOST (R387). -/
  | parentLost
  /-- TIMED_BELL_RELEASE (R394). -/
  | timedBellRelease (i : Nat)
  /-- POWER_SLOT_START (R397). -/
  | powerSlotStart
  /-- BARRIER_MESSAGE (R402). -/
  | barrierMessage (m : BarMsg)
  /-- BARRIER_RESEND (R405). -/
  | barrierResend (g : Fin 1024)
  /-- SCRUB_READ (R224). -/
  | scrubRead (line : Nat) (o : ScrubObs)
  /-- CORRECTION_WRITE_BACK (R219). -/
  | correctionWriteBack (i : Nat)
  /-- ROW_SPARE_COMPLETE (R226). -/
  | rowSpareComplete (i : Nat)
  /-- LEDGER_WINDOW_END (R435). -/
  | ledgerWindowEnd
  /-- POWER_CONTROL_INTERVAL (R463). -/
  | powerControlInterval (watts : Nat) (temps : List Nat)
  /-- POWER_FAST_CHECK (R463). -/
  | powerFastCheck (watts : Nat)
  /-- VOLTAGE_STEP (R493). -/
  | voltageStep (die : Fin 16) (up : Bool)
  /-- VR_ALERT (R494). -/
  | vrAlert
  /-- THERMAL_FORCE (R483). -/
  | thermalForce (celsius : Nat)
  /-- THERMAL_FORCE_RELEASE (R483). -/
  | thermalForceRelease (celsius : Nat)
  /-- THERMAL_TRIP (R483). -/
  | thermalTrip (celsius : Nat)
  /-- THERMAL_HOLD_END (R483). -/
  | thermalHoldEnd (celsius : Nat)
  /-- RAIL_FAULT (R470). -/
  | railFault (rail : Fin 20)
  /-- RAIL_RECOVERY (R470). -/
  | railRecovery
  /-- POWER_REMOVED (R471). -/
  | powerRemoved
  /-- PERST_N_ASSERT (R472). -/
  | perstNAssert
  /-- PERST_N_RELEASE (R478). -/
  | perstNRelease (board slot : BitVec 3) (boot : BootPins)
  /-- FUNCTION_LEVEL_RESET (R475). -/
  | functionLevelReset
  /-- WARM_RESET (R473). -/
  | warmReset
  /-- WATCHDOG_EXPIRY (R443). -/
  | watchdogExpiry (core : CoreId)
  /-- CORE_RESTART_COMPLETE (R443). -/
  | coreRestartComplete (core : CoreId)
  /-- JTAG_PIN_TAKEOVER (R497). -/
  | jtagPinTakeover (i : JtagInsn)
  /-- TAP_RESET (R497). -/
  | tapReset
  /-- BOOT_REQ (R447). -/
  | bootReq
  /-- BOOT_OFFER (R453). -/
  | bootOffer (len : Nat) (nchunk : Nat) (server : BitVec 128)
  /-- CHUNK_DATA (R446). -/
  | chunkData (region : Byte) (piece : Nat) (frag : Nat) (bytes : List Byte)
  /-- BOOT_LOAD_ABANDON (R447). -/
  | bootLoadAbandon
  /-- BOOT_RETRY (R447). -/
  | bootRetry
  /-- REPAIR_LIST_TIMEOUT (R444). -/
  | repairListTimeout
  /-- APIARY_HELLO (R452). -/
  | apiaryHello
  /-- MGMT_KEY (R452). -/
  | mgmtKey (au : Auth) (key : List Byte)
  /-- WIRING_PLAN (R454). -/
  | wiringPlan (au : Auth) (dev : BitVec 16) (gen : BitVec 32) (entries : List PlanEntry)
  /-- EQ_HINTS (R373). -/
  | eqHints (au : Auth) (mask : BitVec 32) (hints : List EqHint)
  /-- REPAIR_LIST (R227). -/
  | repairList (au : Auth) (more : Bool) (entries : List RepairEntry)
  /-- SUSPICION (R421). -/
  | suspicion (au : Auth) (levels : List (BitVec 2))
  /-- WAGGLE_ROOT (R393). -/
  | waggleRoot (au : Auth) (root : BitVec 15)
  /-- FRAME_EXCLUDE (R454). -/
  | frameExclude (au : Auth) (mask : BitVec 384)
  /-- POWER_CFG (R464). -/
  | powerCfg (au : Auth) (watts celsius : Nat)
  /-- JOB_ADMIT (R308). -/
  | jobAdmit (au : Auth) (r : JobReq)
  /-- BARRIER_SETUP (R398). -/
  | barrierSetup (au : Auth) (r : BarReq)
  /-- JOB_KILL (R454). -/
  | jobKill (au : Auth) (job : BitVec 16)
  /-- LEDGER_EXPORT (R435). -/
  | ledgerExport
  /-- LEDGER_ACK (R453). -/
  | ledgerAck (au : Auth) (seq : BitVec 32)
  /-- REPORT_RESEND (R453). -/
  | reportResend
  /-- LOG_REQ (R453). -/
  | logReq (au : Auth) (first : BitVec 32) (count : Nat)
  /-- ATTEST_REQ (R450). -/
  | attestReq (au : Auth) (nonce : List Byte)
  /-- STATUS_REPORT (R453). -/
  | statusReport
  /-- PTP_SYNC (R456). -/
  | ptpSync (offset : Int) (ptpNs : Nat)
  /-- PTP_ANNOUNCE (R456). -/
  | ptpAnnounce (utcOffset : Int) (utc : UtcFlags)
  /-- PTP_SYNC_LOSS (R456). -/
  | ptpSyncLoss
  /-- POWER_UP (R472). -/
  | powerUp
  /-- FLIT_SLOT (R360). -/
  | flitSlot (p : Port)
  /-- FRAME_SELF_TEST_COMPLETE (R444). -/
  | frameSelfTestComplete (res : List (FrameId × SelfTest))
  /-- ATB_INSTRUMENT_WRITE (R499). -/
  | atbInstrumentWrite (node0 : BitVec 9) (en0 : Bool) (node1 : BitVec 9) (en1 : Bool)
  /-- ROUTER_ADVERTISEMENT (R451). -/
  | routerAdvertisement (pfx : BitVec 64)
  /-- RESULT_ECHO (R453). -/
  | resultEcho (seq : Word)
  deriving DecidableEq, Repr

end Sys2Proof
end

