-- ==== Sys2Proof/Machine/State.lean ====
section
/-! DEFINITION. The whole state of the device, the reasons a step could stop, and the state after reset. -/

namespace Sys2Proof.Machine

/-- The in-service block (R18–R23). The maps and COUNT follow from the frames. -/
structure InSvc where
  gen : BitVec 31 := 0
  busy : Bool := false
  causeSel : BitVec 9 := 0
  deriving DecidableEq, Repr

/-- Everything of the device but the queue of waiting commands. -/
structure Dev where
  mem : Memory := {}
  fr : Vector Frame 384 := Vector.replicate 384 {}
  insvc : InSvc := {}
  mkt : Market := {}
  hif : Hif := {}
  xch : Exchange := {}
  lnk : Links := {}
  wag : Waggle := {}
  tly : Tally := {}
  grd : Guard := {}
  pwr : Power := {}
  sec : Firmware := {}
  dbg : Pins := {}
  out : List Out := []
  fresh : Nat := 0
  ns : Nat := 0
  hostRead : Option (List Byte) := none
  deriving DecidableEq, Repr

/-- The state of the machine: the device and the commands that wait, first in first out. -/
structure State extends Dev where
  pending : List Instr := []
  deriving DecidableEq, Repr

/-- Reasons for a fault. No meaning answers one: every command of the table has the effect the manual gives
it, and a command whose event cannot occur in the state leaves the state unchanged (DESIGN CHOICE, assumption 1). -/
inductive Fault where
  /-- Raised by no command. Safe: it adds no behaviour. -/
  | impossible
  deriving DecidableEq, Repr

/-- Reasons for a refusal. -/
inductive Refusal where
  /-- Raised by the dispatcher for a command that has no meaning yet. Safe: it adds no behaviour. -/
  | notModelled (mnemonic : String)
  deriving DecidableEq, Repr

/-- The device just powered up with its rails in tolerance and PERST_N still low, and no command waiting
(DESIGN CHOICE, assumption 3). -/
def State.reset : State := { toDev := {}, pending := [] }

end Sys2Proof.Machine
end

