-- ==== Sys2Proof/Machine/Ops.lean ====
section
/-! DEFINITION. The named operations over tables, bytes, check values, memory, translation and the records
the device keeps (ledger, log, trace, memory fault record). -/

namespace Sys2Proof

/-! ### Sparse tables -/

/-- The entry of a table at an index. -/
def SMap.get? {α : Type} : SMap α → Nat → Option α
  | [], _ => none
  | (k, v) :: m, i => if i = k then some v else if i < k then none else SMap.get? m i

/-- Write an entry, keeping the indices rising. -/
def SMap.put {α : Type} : SMap α → Nat → α → SMap α
  | [], i, x => [(i, x)]
  | (k, v) :: m, i, x =>
    if i = k then (i, x) :: m else if i < k then (i, x) :: (k, v) :: m else (k, v) :: SMap.put m i x

/-- Remove an entry. -/
def SMap.del {α : Type} : SMap α → Nat → SMap α
  | [], _ => []
  | (k, v) :: m, i =>
    if i = k then m else if i < k then (k, v) :: m else (k, v) :: SMap.del m i

/-- Write an entry of a table whose unlisted entries are `d`. -/
def SMap.putD {α : Type} [DecidableEq α] (d : α) (m : SMap α) (i : Nat) (x : α) : SMap α :=
  if x = d then SMap.del m i else SMap.put m i x

/-- The form every table has: indices strictly rising. -/
def SMap.rising {α : Type} : SMap α → Bool
  | [] => true
  | [_] => true
  | (k, _) :: (k', v') :: m => decide (k < k') && SMap.rising ((k', v') :: m)

namespace Machine

/-! ### Bytes -/

/-- `n` bytes of a number, least significant first (R2). -/
def le : Nat → Nat → List Byte
  | 0, _ => []
  | n + 1, v => BitVec.ofNat 8 v :: le n (v / 256)

/-- The number that little-endian bytes spell (R2). -/
def unle : List Byte → Nat
  | [] => 0
  | b :: bs => b.toNat + 256 * unle bs

def slice (bs : List Byte) (off n : Nat) : List Byte := (bs.drop off).take n

/-- The little-endian field of `n` bytes at an offset. -/
def field (bs : List Byte) (off n : Nat) : Nat := unle (slice bs off n)

def zeros (n : Nat) : List Byte := List.replicate n 0

def allZero (bs : List Byte) : Bool := bs.all (· == 0)

def bit (v : Nat) (i : Nat) : Bool := v.testBit i

/-- Bits [hi:lo] of a number. -/
def bits (v hi lo : Nat) : Nat := (v >>> lo) % 2 ^ (hi + 1 - lo)

def b2n (b : Bool) : Nat := if b then 1 else 0

def ceilDiv (a b : Nat) : Nat := (a + b - 1) / b

/-- Bits packed into bytes, the first in bit 0. -/
def packBools (bs : List Bool) : List Byte := le (ceilDiv bs.length 8) (bs.foldr (fun b a => b2n b + 2 * a) 0)

/-- Add to a counter of `w` bits that saturates. -/
def satAdd {w : Nat} (c : BitVec w) (n : Nat := 1) : BitVec w :=
  if c.toNat + n < 2 ^ w then BitVec.ofNat w (c.toNat + n) else BitVec.allOnes w

/-! ### Check values (R409–R411) -/

def crc64Bit (v : Word) : Word :=
  if v.getLsbD 0 then (v >>> 1) ^^^ 0xC96C5795D7870F42#64 else v >>> 1

def crc32Bit (v : BitVec 32) : BitVec 32 :=
  if v.getLsbD 0 then (v >>> 1) ^^^ 0x82F63B78#32 else v >>> 1

def crc64Byte (v : Word) (b : Byte) : Word :=
  let x := v ^^^ b.setWidth 64
  crc64Bit (crc64Bit (crc64Bit (crc64Bit (crc64Bit (crc64Bit (crc64Bit (crc64Bit x)))))))

def crc32Byte (v : BitVec 32) (b : Byte) : BitVec 32 :=
  let x := v ^^^ b.setWidth 32
  crc32Bit (crc32Bit (crc32Bit (crc32Bit (crc32Bit (crc32Bit (crc32Bit (crc32Bit x)))))))

/-- Running CRC-64 value after some bytes. -/
def crc64Run (v : Word) (bs : List Byte) : Word := bs.foldl crc64Byte v

def crc32Run (v : BitVec 32) (bs : List Byte) : BitVec 32 := bs.foldl crc32Byte v

/-- Finished tallies (R410). -/
def crc64 (bs : List Byte) : Word := crc64Run (BitVec.allOnes 64) bs ^^^ BitVec.allOnes 64

def crc32c (bs : List Byte) : BitVec 32 := crc32Run (BitVec.allOnes 32) bs ^^^ BitVec.allOnes 32

/-- The seed prefix of R411. -/
def seedPrefix (job bucket src : Nat) (seq : Word) : List Byte :=
  le 2 job ++ le 2 bucket ++ le 2 (src % 2 ^ 15) ++ [0, 0] ++ le 8 seq.toNat

/-- Feed bytes to a channel: its running value is the shift register (R410). -/
def Chan.feed (c : Chan) (bs : List Byte) (psn : Bool := false) : Chan :=
  { c with
    v := if c.crc32 then (crc32Run (c.v.setWidth 32) bs).setWidth 64 else crc64Run c.v bs
    poison := c.poison || psn }

/-! ### Updates of the device -/

/-- A command's effect on the device leaves the queue of commands alone. -/
def State.stepDev (s : State) (d : Dev) : Host.Outcome State Fault Refusal := .next { s with toDev := d }

def Dev.frame (d : Dev) (f : FrameId) : Frame := d.fr[f.val]

def Dev.setFrame (d : Dev) (f : FrameId) (x : Frame) : Dev := { d with fr := d.fr.set f.val x }

def Dev.updFrame (d : Dev) (f : FrameId) (g : Frame → Frame) : Dev := d.setFrame f (g (d.frame f))

def allFrames : List FrameId := List.finRange 384

def Dev.ctx (d : Dev) (c : BitVec 12) : Ctx := (d.mkt.ctxs.get? c.toNat).getD {}

def Dev.setCtx (d : Dev) (c : BitVec 12) (x : Ctx) : Dev :=
  { d with mkt := { d.mkt with ctxs := d.mkt.ctxs.putD {} c.toNat x } }

def Dev.updCtx (d : Dev) (c : BitVec 12) (g : Ctx → Ctx) : Dev := d.setCtx c (g (d.ctx c))

def Dev.queue (d : Dev) (q : Nat) : QRec := (d.hif.queues.get? q).getD {}

def Dev.setQueue (d : Dev) (q : Nat) (x : QRec) : Dev :=
  { d with hif := { d.hif with queues := d.hif.queues.putD {} q x } }

def Dev.updQueue (d : Dev) (q : Nat) (g : QRec → QRec) : Dev := d.setQueue q (g (d.queue q))

def Dev.cring (d : Dev) (r : Nat) : CRing := (d.hif.crings.get? r).getD {}

def Dev.setCring (d : Dev) (r : Nat) (x : CRing) : Dev :=
  { d with hif := { d.hif with crings := d.hif.crings.putD {} r x } }

def Dev.port (d : Dev) (p : Port) : LPort := d.lnk.ports[p.val]

def Dev.setPort (d : Dev) (p : Port) (x : LPort) : Dev :=
  { d with lnk := { d.lnk with ports := d.lnk.ports.set p.val x } }

def Dev.updPort (d : Dev) (p : Port) (g : LPort → LPort) : Dev := d.setPort p (g (d.port p))

def Dev.job (d : Dev) (j : Nat) : Job := if h : j < 256 then d.xch.jobs[j] else {}

def Dev.setJob (d : Dev) (j : Nat) (x : Job) : Dev :=
  if h : j < 256 then { d with xch := { d.xch with jobs := d.xch.jobs.set j x } } else d

def Dev.updJob (d : Dev) (j : Nat) (g : Job → Job) : Dev := d.setJob j (g (d.job j))

def Dev.group (d : Dev) (g : Nat) : Group := (d.wag.groups.get? g).getD {}

def Dev.setGroup (d : Dev) (g : Nat) (x : Group) : Dev :=
  { d with wag := { d.wag with groups := d.wag.groups.putD {} g x } }

def Dev.graph? (d : Dev) (g : Nat) : Option Graph := d.mkt.graphs.find? (·.id == g)

def Dev.updGraph (d : Dev) (g : Nat) (h : Graph → Graph) : Dev :=
  { d with mkt := { d.mkt with graphs := d.mkt.graphs.map fun x => if x.id == g then h x else x } }

def Dev.task? (d : Dev) (t : TaskRef) : Option Task := (d.graph? t.graph).bind fun g => g.tasks[t.idx]?

def Dev.updTask (d : Dev) (t : TaskRef) (h : Task → Task) : Dev :=
  d.updGraph t.graph fun g => { g with tasks := g.tasks.modify t.idx h }

/-- Log something sent outside. -/
def Dev.emit (d : Dev) (o : Out) : Dev := { d with out := d.out ++ [o] }

/-- A value the manual leaves open, fresh at each use (DESIGN CHOICE, assumption 8). -/
def Dev.draw (d : Dev) : Dev × Word := ({ d with fresh := d.fresh + 1 }, Config.free d.fresh)

/-- Waggle time in nanoseconds (R383). -/
def Dev.waggle (d : Dev) : Nat := d.wag.ctr.toNat / 2 ^ 16

/-- Cycles of the 1.7 GHz clock in some nanoseconds (R129). -/
def cyclesAt (ns : Nat) : Nat := ns * 17 / 10

/-- Firmware runs: the cores are started (R444 step 5). -/
def Dev.fwRuns (d : Dev) : Bool := d.sec.phase == .started || d.sec.phase == .ready

/-- The device is out of reset with its firmware fully up. -/
def Dev.up (d : Dev) : Bool := d.sec.phase == .ready

/-- The scheduler core is not being restarted (R443). -/
def Dev.schedUp (d : Dev) : Bool := !d.sec.restarting.contains .scheduler

/-- The control core of a frame's cluster is not being restarted (R443). -/
def Dev.clusterUp (d : Dev) (f : FrameId) : Bool :=
  !d.sec.restarting.any fun c => match c with | .control cl => cl.val == f.val / 6 | _ => false

/-! ### Physical memory (R194, R195, R215–R225) -/

/-- Regions of the physical map (R194). -/
inductive Region0 where
  | dram | ls (i : Nat) | comb (j : Nat) | mmio | hole
  deriving DecidableEq, Repr

def lsBase : Nat := 0x010000000000
def combBase : Nat := 0x0100C0000000
def dramEnd : Nat := 0x006000000000
def combEnd : Nat := 0x010300000000

def regionOf (pa : Nat) : Region0 :=
  if pa < dramEnd then .dram
  else if lsBase ≤ pa ∧ pa < combBase then .ls ((pa - lsBase) / 0x800000)
  else if combBase ≤ pa ∧ pa < combEnd then .comb ((pa - combBase) / 0x9000000)
  else if 0x0F0000000000 ≤ pa ∧ pa < 0x0F0100000000 then .mmio
  else .hole

def lsAddr (f : FrameId) (off : Nat) : Nat := lsBase + f.val * 0x800000 + off

def clusterOf (f : FrameId) : Nat := f.val / 6

def dieOf (f : FrameId) : Nat := f.val / 24

/-- DRAM or comb store, wholly (R203, R508). -/
def inDramOrComb (pa len : Nat) : Bool :=
  decide (pa + len ≤ dramEnd) || (decide (combBase ≤ pa) && decide (pa + len ≤ combEnd))

/-- Bytes that share one poison mark: a DRAM line or an SRAM sector (R215, R218). -/
def gran (pa : Nat) : Nat := if pa < dramEnd then 64 else 32

/-- What an unlisted address reads as: 0 (DESIGN CHOICE, assumption 5), or a free byte where the manual calls the contents
undefined (R199). -/
def Memory.dflt (m : Memory) (pa : Nat) : Byte :=
  match m.lost.get? (pa / 2 ^ 30) with
  | some n => Config.lostByte n pa
  | none => 0

def Memory.byte (m : Memory) (pa : Nat) : Byte := (m.mem.get? pa).getD (m.dflt pa)

def Memory.setByte (m : Memory) (pa : Nat) (b : Byte) : Memory := { m with mem := m.mem.putD (m.dflt pa) pa b }

/-- The home of a DRAM byte: comb die, DRAM die and byte in that die (R198). -/
def Memory.home (m : Memory) (pa : Nat) : Nat × Nat × Nat :=
  let r := if h : pa / 2 ^ 30 < 384 then m.region[pa / 2 ^ 30] else { slot := 0 }
  let cd := if r.pinned then r.cd.toNat
    else (bits pa 15 12) ^^^ (bits pa 19 16) ^^^ (bits pa 23 20) ^^^ (bits pa 27 24)
  let dl := if r.pinned then r.slot.toNat * 2 ^ 26 + pa % 2 ^ 30
    else r.slot.toNat * 2 ^ 26 + bits pa 29 16 * 2 ^ 12 + pa % 2 ^ 12
  (cd, cd * 4 + bits dl 9 8, bits dl 34 10 * 2 ^ 8 + dl % 2 ^ 8)

/-- The fold word of the line that holds an address: its number among the lines of its comb die (R214). -/
def Memory.foldWord (m : Memory) (pa : Nat) : Nat :=
  let h := m.home pa
  h.2.1 % 4 * 2 ^ 27 + h.2.2 / 64

/-- The retirement table and line number of an address (R225): comb dies 0–15, clusters 16–79. A DRAM line is known by
its place in its die, which stays when a region moves. -/
def Memory.retireKey (m : Memory) (pa : Nat) : Nat × Nat :=
  match regionOf pa with
  | .dram => ((m.home pa).1, m.foldWord pa)
  | .ls i => (16 + i / 6, pa / 64)
  | .comb j => (16 + j, pa / 64)
  | _ => (80, pa / 64)

def Memory.isRetired (m : Memory) (pa : Nat) : Bool :=
  !m.retired.isEmpty && m.retired.contains (m.retireKey pa)

def Memory.poisonedAt (m : Memory) (pa : Nat) : Bool :=
  ((m.poison.get? (pa / 32)).getD false) || m.isRetired pa

/-- Mark or clear the poison of the granule that holds an address. -/
def Memory.markGran (m : Memory) (pa : Nat) (p : Bool) : Memory :=
  if gran pa = 64 then
    let s := pa / 64 * 2
    { m with poison := (m.poison.putD false s p).putD false (s + 1) p }
  else { m with poison := m.poison.putD false (pa / 32) p }

/-- The first address of each granule that a run of bytes touches. -/
def grans (pa len : Nat) : List Nat :=
  if len = 0 then [] else
    let g := gran pa
    (List.range ((pa + len - 1) / g - pa / g + 1)).map fun i => (pa / g + i) * g

/-- Memory that answers an access: DRAM, comb stores, and the local stores of frames in service (R195). -/
def Dev.isMem (d : Dev) (pa len : Nat) : Bool :=
  (grans pa (max len 1)).all fun a => match regionOf a with
    | .dram => true
    | .comb _ => true
    | .ls i => if h : i < 384 then (d.frame ⟨i, h⟩).svc.insvc else false
    | _ => false

def Memory.read (m : Memory) (pa len : Nat) : List Byte := (List.range len).map fun i => m.byte (pa + i)

def Memory.readPoison (m : Memory) (pa len : Nat) : Bool := (grans pa len).any m.poisonedAt

/-- Store bytes at consecutive addresses; a retired line discards what is written to it (R225). -/
def Memory.storeBytes (m : Memory) : Nat → List Byte → Memory
  | _, [] => m
  | pa, b :: bs => (if m.isRetired pa then m else m.setByte pa b).storeBytes (pa + 1) bs

/-- The poison after a write (R220): a granule written whole with good data is clear, a poisoned write
poisons every granule it touches, a partial write leaves the mark. -/
def Memory.afterWrite (m : Memory) (pa len : Nat) (psn : Bool) : Memory :=
  (grans pa len).foldl (fun m g =>
    if psn then m.markGran g true
    else if pa ≤ g ∧ g + gran g ≤ pa + len then m.markGran g false
    else m) m

/-- Write-backs of lines that a newer write reaches are dropped (R217, R219). -/
def Memory.staleBacks (m : Memory) (pa len : Nat) : Memory :=
  if m.wbacks.isEmpty then m
  else { m with wbacks := m.wbacks.map fun w =>
    if pa < w.pa + w.data.length ∧ w.pa < pa + len then { w with stale := true } else w }

def Memory.write (m : Memory) (pa : Nat) (bs : List Byte) (psn : Bool := false) : Memory :=
  ((m.storeBytes pa bs).afterWrite pa bs.length psn).staleBacks pa bs.length

/-- The canonical form of memory: addresses strictly rising and no byte listed that reads as an unlisted
one does. -/
def Memory.wf (m : Memory) : Bool :=
  m.mem.rising && m.mem.all (fun c => c.2 != m.dflt c.1) && m.poison.rising && m.poison.all (·.2)

def Dev.read (d : Dev) (pa len : Nat) : List Byte := d.mem.read pa len

def Dev.write (d : Dev) (pa : Nat) (bs : List Byte) (psn : Bool := false) : Dev :=
  { d with mem := d.mem.write pa bs psn }

/-- A run of memory with nothing listed. -/
def Memory.clearRange (m : Memory) (lo hi : Nat) : Memory :=
  let m := m.staleBacks lo (hi - lo)
  { m with
    mem := m.mem.filter fun c => decide (c.1 < lo) || decide (hi ≤ c.1)
    poison := m.poison.filter fun c => decide (c.1 * 32 < lo) || decide (hi ≤ c.1 * 32) }

/-- The addresses of the 32-byte sectors of a run that read as poisoned: marked, or in a retired line (R225). -/
def Memory.poisonIn (m : Memory) (src len : Nat) : List Nat :=
  if m.retired.isEmpty then ((m.poison.map (·.1 * 32)).filter fun a => decide (src ≤ a) && decide (a < src + len))
  else ((List.range (len / 32)).map fun i => src + 32 * i).filter m.poisonedAt

/-- Copy a run of whole lines, byte by byte, with its poison (save and restore of LS; R221): a line that takes poison is marked
whole, and a retired line takes nothing (R225). -/
def Memory.copyRange (m : Memory) (src dst len : Nat) : Memory :=
  let bs := if m.lost.isEmpty then m.mem.filter fun c => decide (src ≤ c.1) && decide (c.1 < src + len)
    else (List.range len).map fun i => (src + i, m.byte (src + i))
  let ps := m.poisonIn src len
  let gone (a : Nat) : Bool := decide (dst ≤ a) && decide (a < dst + len) && !m.isRetired a
  let m := m.staleBacks dst len
  let m : Memory := { m with mem := m.mem.filter fun c => !gone c.1, poison := m.poison.filter fun c => !gone (c.1 * 32) }
  let m := bs.foldl (fun m c =>
    if m.isRetired (dst + (c.1 - src)) then m else m.setByte (dst + (c.1 - src)) c.2) m
  ps.foldl (fun m a => if m.isRetired (dst + (a - src)) then m else m.markGran (dst + (a - src)) true) m

/-! ### Interrupts (R290, R297, R299) -/

/-- A byte of the MSI-X table: every vector is masked at reset, as the PCI Express specification has it (PRESUMED,
assumption 47). -/
def Hif.msixByte (h : Hif) (i : Nat) : Byte := (h.msixTable.get? i).getD (if i % 16 = 12 then 1 else 0)

/-- Raise an MSI-X vector: a masked vector leaves its pending bit set. -/
def Dev.msix (d : Dev) (v : Nat) : Dev :=
  if (d.hif.msixByte (16 * v + 12)).getLsbD 0 then
    { d with hif := { d.hif with msixPending := d.hif.msixPending.put v true } }
  else d.emit (.msix v)

/-- Set a bit of HIF_IRQ_CAUSE and raise vector 0. -/
def Dev.irq (d : Dev) (b : Nat) : Dev :=
  ({ d with hif := { d.hif with irqCause := d.hif.irqCause ||| (1#4 <<< b) } }).msix 0

/-! ### Trace, log and ledger (R433–R435, R458–R460) -/

/-- The record of a trace point (R459). Those past 200 million in one second of the device's clock are counted and not written,
seconds counted from power-up (DESIGN CHOICE, assumption 100); one that would lie outside DRAM and comb stores goes nowhere
(R191, R195). -/
def Dev.trace (d : Dev) (point index ctx : Nat) (a0 a1 : Nat := 0) : Dev :=
  let x := d.sec
  let on := decide (point / 64 < 16) && d.hif.agreed.getLsbD 7
    && ((x.traceMask.toList[point / 64]?).getD 0).getLsbD (point % 64)
  let now := d.ns / 1000000000
  let cnt := if x.traceSec = now then x.traceCnt else 0
  if !on then d
  else if 200000000 ≤ cnt then { d with sec := { x with traceDropped := satAdd x.traceDropped } }
  else
    let n := x.traceWritten.toNat
    let pa := x.traceBase.toNat + 32 * (n % 2 ^ x.traceLog2.toNat)
    let bs := le 8 d.waggle ++ le 2 point ++ le 2 index ++ le 2 ctx ++ le 2 n ++ le 8 a0 ++ le 8 a1
    let d := if inDramOrComb pa 32 then d.write pa bs else d
    { d with sec := { d.sec with traceWritten := x.traceWritten + 1, traceSec := now, traceCnt := cnt + 1 } }

/-- A log entry (R458). The log catalogue of the image gives CODE and the arguments, so they are free (DESIGN CHOICE, assumption 8). -/
def Dev.logEntry (d : Dev) (source level : Nat) : Dev :=
  if d.fwRuns && level ≤ d.sec.logLevel.toNat then
    let n := d.sec.logHead.toNat
    let pa := d.sec.logBase.toNat + 64 * (n % 16384)
    let open_ (i : Nat) : Nat := (Config.free (d.fresh + i)).toNat
    let d := d.write pa (le 4 n ++ le 1 source ++ le 1 level ++ le 2 (open_ 0) ++ le 8 d.waggle ++
      ((List.range 6).map fun i => le 8 (open_ (i + 1))).flatten)
    { d with sec := { d.sec with logHead := d.sec.logHead + 1 }, fresh := d.fresh + 7 }
  else d

/-- The fields of a ledger record that an event fills (R433). -/
structure LedF where
  job : Nat := 0
  step : Nat := 0
  ctx : Nat := 0xFFFF
  unit : Nat := 0
  sub : Nat := 0
  index : Nat := 0
  attempt : Nat := 0
  addr : Nat := 0
  syn : Nat := 0
  ta : Nat := 0
  tb : Nat := 0
  aux0 : Nat := 0
  aux1 : Nat := 0

/-- The PTP second (R456). -/
def Dev.ptpSecond (d : Dev) : Int := ((d.ns : Int) + d.sec.wallOff) / 1000000000

/-- The UTC offset in force: an announced leap second has its own from its PTP second on, so a stamp repeats the count before
an inserted second and skips the count of a deleted one (R456). -/
def Dev.utcNow (d : Dev) : Int :=
  match d.sec.leap with
  | some (t, o) => if t ≤ d.ptpSecond then o else d.sec.utcOffset
  | none => d.sec.utcOffset

/-- UTC by the PTP client: seconds and nanoseconds (R433, R456). -/
def Dev.wall (d : Dev) : Nat × Nat :=
  let t := ((d.ns : Int) + d.sec.wallOff - d.utcNow * 1000000000).toNat
  (t / 1000000000, t % 1000000000)

def Dev.ledgerBytes (d : Dev) (cls code : Nat) (x : LedF) : List Byte :=
  let w := d.wall
  let r := le 1 1 ++ le 1 cls ++ le 2 code ++ le 4 d.grd.written.toNat
    ++ (d.sec.serial ++ zeros 16).take 16 ++ le 8 d.sec.fwId.toNat ++ le 8 d.waggle
    ++ le 6 (if d.sec.wallV then w.1 else 0) ++ le 4 (if d.sec.wallV then w.2 else 0)
    ++ le 2 (b2n d.sec.wallV + 2 * b2n d.wag.valid)
    ++ le 2 (if d.lnk.devV then d.lnk.devId.toNat else 0) ++ le 2 x.job ++ le 4 x.step ++ le 2 x.ctx
    ++ le 1 x.unit ++ le 1 x.sub ++ le 2 x.index ++ le 1 x.attempt ++ zeros 5
    ++ le 8 x.addr ++ le 8 x.syn ++ le 8 x.ta ++ le 8 x.tb ++ le 8 x.aux0 ++ le 8 x.aux1
  r ++ le 4 (crc32c r).toNat ++ zeros 4

/-- The counts of the suppression window that Waggle time is in: window k's count of a class has the key 256 k + class
(R435). -/
def Dev.windowCounts (d : Dev) : SMap Nat := d.grd.window.filter fun c => c.1 / 256 == d.waggle / 1000000000

/-- Write a ledger record: suppression, overwriting before export, and the interrupt (R435). -/
def Dev.ledger (d : Dev) (cls code : Nat) (x : LedF := {}) : Dev :=
  if !d.fwRuns then d
  else
    let ws := d.windowCounts
    let key := 256 * (d.waggle / 1000000000) + cls
    let c := (ws.get? key).getD 0
    if 256 ≤ c then { d with grd := { d.grd with suppressed := satAdd d.grd.suppressed } }
    else
      let n := d.grd.written.toNat
      let bs := d.ledgerBytes cls code x
      let d := d.write (d.grd.ledgerBase.toNat + 128 * (n % 4096)) bs
      let lost := decide (4096 ≤ n - d.grd.exported.toNat)
      let d := { d with grd := { d.grd with
        written := d.grd.written + 1
        window := ws.put key (c + 1)
        lost := if lost then satAdd d.grd.lost else d.grd.lost } }
      d.irq 2

/-! ### Translation (R201–R206) -/

/-- Read, write, fetch, bell store, read and write, bell add: the ACCESS codes of R205. -/
inductive Acc6 where
  | read | write | fetch | bellStore | readWrite | bellAdd
  deriving DecidableEq, Repr

def Acc6.code : Acc6 → Nat
  | .read => 0 | .write => 1 | .fetch => 2 | .bellStore => 3 | .readWrite => 4 | .bellAdd => 5

/-- Bits of a virtual address that index each level, and the entries of its table (R201). -/
def levelShift (l : Nat) : Nat := match l with | 0 => 39 | 1 => 30 | 2 => 21 | _ => 16
def levelCount (l : Nat) : Nat := match l with | 0 => 8192 | 1 => 512 | 2 => 512 | _ => 32

def pteAddr (e : Word) : Nat := bits e.toNat 47 8 * 256

/-- The checks of R203 on one entry at one level. -/
def checkPte (m : Memory) (own : Option (BitVec 15)) (l : Nat) (e : Word) : Option Nat :=
  let v := e.toNat
  let leaf := bit v 1
  let remote := bit v 6
  let pin := bit v 5
  let pinCd := bits v 51 48
  let size := 2 ^ levelShift l
  let addr := pteAddr e
  if !bit v 0 then some 0x01
  else if bit v 7 || bit v 63 || (!remote && bits v 62 52 != 0)
      || (leaf && l == 0) || (!leaf && l == 3)
      || (!leaf && (bits v 4 2 != 0 || pin || remote))
      || (remote && (bit v 4 || pin))
      || (!remote && !pin && pinCd != 0)
      || (leaf && addr % size != 0)
      || (!leaf && addr % (8 * levelCount (l + 1)) != 0) then some 0x05
  else if (leaf && !remote && !inDramOrComb addr size)
      || (!leaf && !inDramOrComb addr (8 * levelCount (l + 1)))
      || (leaf && remote && own == some (BitVec.ofNat 15 (bits v 62 48))) then some 0x04
  else if leaf && !remote then
    let home := if addr < dramEnd then
        (if h : addr / 2 ^ 30 < 384 then
          let r := m.region[addr / 2 ^ 30]
          if pin then r.pinned && r.cd.toNat == pinCd else !r.pinned
        else false)
      else !pin
    if home then none else some 0x03
  else none

/-- Walk the tables from a level on (R201, R203). -/
def walk (m : Memory) (own : Option (BitVec 15)) (va : Nat) : List Nat → Nat → Except XErr (Nat × Word)
  | [], _ => .error { cause := 0x05, va := va }
  | l :: ls, tbl =>
    let ea := tbl + 8 * ((va >>> levelShift l) % levelCount l)
    if m.readPoison ea 8 then .error { cause := 0x06, level := l, va := va }
    else
      let e : Word := BitVec.ofNat 64 (unle (m.read ea 8))
      match checkPte m own l e with
      | some c => .error { cause := c, level := l, pte := e, va := va }
      | none => if e.getLsbD 1 then .ok (l, e) else walk m own va ls (pteAddr e)

/-- TLBs a unit looks in: a frame its own and its cluster's; 448 queue fetchers, 449 Exchange, 450 Market (R206). -/
def tlbChain (u : Nat) : List Nat := if u < 384 then [u, 384 + u / 6] else [u]

def tlbCap (t : Nat) : Option Nat := if t < 384 then some 64 else if t < 448 then some 2048 else none

def TlbE.hits (e : TlbE) (c : BitVec 12) (va : Nat) : Bool := e.ctx == c && e.vpn == va >>> levelShift e.level

/-- Put a translation into one TLB; which entry makes room is open (R206, DESIGN CHOICE, assumption 8). -/
def Dev.tlbInsert (d : Dev) (t : Nat) (e : TlbE) : Dev :=
  let es := (d.mem.tlbs.get? t).getD []
  let full := match tlbCap t with | some n => decide (n ≤ es.length) | none => false
  let (d, r) := if full then d.draw else (d, 0)
  let es := if full then es.eraseIdx (r.toNat % es.length) else es
  { d with mem := { d.mem with tlbs := d.mem.tlbs.put t (e :: es) } }

def Dev.ownId (d : Dev) : Option (BitVec 15) := if d.lnk.devV then some d.lnk.devId else none

/-- The leaf for a virtual address: a TLB hit, or a walk whose leaf the TLBs then hold. -/
def Dev.leaf (d : Dev) (u : Nat) (c : BitVec 12) (va : Nat) : Dev × Except XErr (Nat × Word) :=
  let hit := (tlbChain u).findSome? fun t => ((d.mem.tlbs.get? t).getD []).find? (·.hits c va)
  match hit with
  | some e =>
    let d := match tlbChain u with
      | [t, _] => if ((d.mem.tlbs.get? t).getD []).any (·.hits c va) then d else d.tlbInsert t e
      | _ => d
    (d, .ok (e.level, e.pte))
  | none =>
    match walk d.mem d.ownId va [0, 1, 2, 3] (d.ctx c).ptRoot.toNat with
    | .error x => (d, .error x)
    | .ok (l, e) =>
      let t : TlbE := { ctx := c, level := l, vpn := va >>> levelShift l, pte := e }
      ((tlbChain u).foldl (fun d i => d.tlbInsert i t) d, .ok (l, e))

/-- Where an address leads: this device's memory or another device's (R202). -/
structure Seg where
  remote : Option (BitVec 15)
  pa : Nat
  len : Nat
  deriving DecidableEq, Repr

/-- The rights an access needs of the leaf (R204). -/
def leafGrants (e : Word) (a : Acc6) : Bool :=
  match a with
  | .read => e.getLsbD 2
  | .write => e.getLsbD 3
  | .fetch => e.getLsbD 4
  | .bellStore => e.getLsbD 3
  | .readWrite => e.getLsbD 2 && e.getLsbD 3
  | .bellAdd => e.getLsbD 2 && e.getLsbD 3

/-- Translate one address and check the leaf's rights (R204); an address at or above 2^52 lies outside the
virtual space (DEDUCED). -/
def Dev.xlate (d : Dev) (u : Nat) (c : BitVec 12) (va : Nat) (a : Acc6) :
    Dev × Except XErr (Option (BitVec 15) × Nat) :=
  if 2 ^ 52 ≤ va then (d, .error { cause := 0x01, va := va % 2 ^ 52 })
  else match d.leaf u c va with
  | (d, .error x) => (d, .error x)
  | (d, .ok (l, e)) =>
    if !leafGrants e a then (d, .error { cause := 0x02, level := l, pte := e, va := va })
    else
      let pa := pteAddr e + va % 2 ^ levelShift l
      (d, .ok (if e.getLsbD 6 then some (BitVec.ofNat 15 (bits e.toNat 62 48)) else none, pa))

/-- The pieces of a virtual range, page by page; the first failure ends it. -/
def Dev.resolve (d : Dev) (u : Nat) (c : BitVec 12) (a : Acc6) : Nat → Nat → Nat → Dev × Except XErr (List Seg)
  | 0, _, _ => (d, .ok [])
  | fuel + 1, va, len =>
    if len = 0 then (d, .ok [])
    else
      let n := min len (0x10000 - va % 0x10000)
      match d.xlate u c va a with
      | (d, .error x) => (d, .error x)
      | (d, .ok (r, pa)) =>
        match d.resolve u c a fuel (va + n) (len - n) with
        | (d, .error x) => (d, .error x)
        | (d, .ok ss) => (d, .ok ({ remote := r, pa := pa, len := n } :: ss))

def Dev.range (d : Dev) (u : Nat) (c : BitVec 12) (a : Acc6) (va len : Nat) : Dev × Except XErr (List Seg) :=
  d.resolve u c a (len / 0x10000 + 2) va len

/-- The memory fault record of R205. `unit` and `frame` are its UNIT and FRAME. -/
def Dev.memFault (d : Dev) (c : BitVec 12) (x : XErr) (a : Acc6) (unit : Nat) (frame : Nat := 0xFFFF) : Dev :=
  let cx := d.ctx c
  let pa := cx.faultArea.toNat + 0x200
  let addr := if x.cause = 0x07 ∨ x.cause = 0x08 then x.fab.getD x.va else x.va
  if cx.memFault then
    let n := unle (d.read (pa + 0x20) 4)
    d.write (pa + 0x20) (le 4 (min (n + 1) (2 ^ 32 - 1)))
  else
    let d := d.write pa (le 8 addr ++ le 8 x.pte.toNat ++ le 1 x.cause ++ le 1 x.level ++ le 1 a.code
      ++ le 1 unit ++ le 2 frame ++ zeros 2 ++ le 8 d.waggle ++ le 4 1 ++ zeros 28)
    d.updCtx c fun cx => { cx with memFault := true }

/-- A fabric address (R196). -/
def fabAddr (dev : BitVec 15) (pa : Nat) : Word := BitVec.ofNat 64 (dev.toNat * 2 ^ 48 + pa % 2 ^ 48)

/-- A remote page met by a unit that reaches no other device: unreachable, with the fabric address (R205). -/
def remoteErr (va : Nat) (ss : List Seg) : XErr :=
  { cause := 0x08, va := va, fab := (ss.find? (·.remote.isSome)).map fun s => (fabAddr (s.remote.getD 0) s.pa).toNat }

/-- Read device memory through a context's tables by a unit other than a frame; a remote page is out of
these units' reach and answers as unreachable. -/
def Dev.readVirt (d : Dev) (u : Nat) (c : BitVec 12) (va len : Nat) :
    Dev × Except XErr (List Byte × Bool) :=
  match d.range u c .read va len with
  | (d, .error x) => (d, .error x)
  | (d, .ok ss) =>
    if ss.any (·.remote.isSome) then (d, .error (remoteErr va ss))
    else (d, .ok ((ss.map fun s => d.read s.pa s.len).flatten, ss.any fun s => d.mem.readPoison s.pa s.len))

/-- Store bytes over the pieces of a range. -/
def Dev.writeSegs (d : Dev) : List Seg → List Byte → Bool → Dev
  | [], _, _ => d
  | s :: ss, bs, p =>
    (if s.remote.isSome then d else d.write s.pa (bs.take s.len) p).writeSegs ss (bs.drop s.len) p

def Dev.writeVirt (d : Dev) (u : Nat) (c : BitVec 12) (va : Nat) (bs : List Byte) (p : Bool := false) :
    Dev × Except XErr Unit :=
  match d.range u c .write va bs.length with
  | (d, .error x) => (d, .error x)
  | (d, .ok ss) =>
    if ss.any (·.remote.isSome) then (d, .error (remoteErr va ss))
    else (d.writeSegs ss bs p, .ok ())

def unitQueue : Nat := 448
def unitXch : Nat := 449
def unitMkt : Nat := 450

/-! ### Declared effects (R120, R121) -/

/-- Rights of R120. -/
inductive Right where
  | r | w | x
  deriving DecidableEq, Repr

def effGrants (e : BitVec 128) (right : Right) (a : Nat) : Option Nat :=
  let v := e.toNat
  let base := v % 2 ^ 64
  let len := bits v 95 64
  let rights := bits v 103 96
  let kind := bits v 111 104
  let ok := match right with | .r => bit rights 0 | .w => bit rights 1 | .x => bit rights 2
  if len ≠ 0 ∧ kind = 0 ∧ ok = true ∧ base ≤ a ∧ a < base + 64 * len then some (base + 64 * len) else none

/-- The first address of a range outside the union of entries that grant a right (R121, R122). -/
def firstUngranted (es : List (BitVec 128)) (right : Right) : Nat → Nat → Nat → Option Nat
  | 0, lo, _ => some lo
  | fuel + 1, lo, hi =>
    if hi ≤ lo then none
    else match es.findSome? fun e => effGrants e right lo with
      | some e => firstUngranted es right fuel e hi
      | none => some lo

def Frame.ungranted (fr : Frame) (right : Right) (lo hi : Nat) : Option Nat :=
  firstUngranted fr.eff.toList right 18 lo hi

/-- A KIND 1 BELL entry that covers a fabric address (R121). -/
def Frame.grantsBell (fr : Frame) (addr : Nat) : Bool :=
  fr.eff.toList.any fun e =>
    let v := e.toNat
    bits v 95 64 ≠ 0 && bits v 111 104 == 1 && bit (bits v 103 96) 3
      && decide (v % 2 ^ 63 ≤ addr) && decide (addr + 8 ≤ v % 2 ^ 63 + 64 * bits v 95 64)

end Machine
end Sys2Proof
end

