-- ==== Sys2Proof/Machine/Flags.lean ====
section
/-! DEFINITION. The format flags of FRM_FMT_FLAGS (R54) and how results set them. -/

namespace Sys2Proof.Machine

/-- A set of format flags, bit k as in FRM_FMT_FLAGS. -/
abbrev FmtFlags := BitVec 10

def flT2Rsvd : FmtFlags := 0x001
def flX8Invalid : FmtFlags := 0x002
def flNanIn : FmtFlags := 0x004
def flNanGen : FmtFlags := 0x008
def flSat : FmtFlags := 0x010
def flInfSat : FmtFlags := 0x020
def flNanZero : FmtFlags := 0x040
def flOvfInf : FmtFlags := 0x080
def flIntSat : FmtFlags := 0x100
def flG32Ovf : FmtFlags := 0x200

def Num.isNan : Num → Bool
  | .nan => true
  | _ => false

/-- NAN_IN when an operand is NaN, NAN_GEN when a NaN comes of operands that are not (R50). -/
def nanFlags (ops : List Num) (r : Num) : FmtFlags :=
  if ops.any Num.isNan then flNanIn else if r.isNan then flNanGen else 0

/-- The frame's sticky flags after some are set (R54). -/
def Frame.raiseFlags (fr : Frame) (fl : FmtFlags) : Frame := { fr with fmtFlags := fr.fmtFlags ||| fl }

end Sys2Proof.Machine
end

