-- ==== Sys2Proof/Machine/Formats.lean ====
section
/-! DEFINITION. The number formats: decoding to exact values, rounding and encoding, limbs, exact
arithmetic, and the transcendental functions (chapter 02, R170). -/

namespace Sys2Proof.Machine

/-! ### Properties of the formats (R29, R35, R39, R49) -/

def Fmt.ofCode : Nat → Option Fmt
  | 0 => some .t2 | 1 => some .q4 | 2 => some .q8 | 3 => some .q16 | 4 => some .q32 | 5 => some .f4
  | 6 => some .f6 | 7 => some .f8a | 8 => some .f8b | 9 => some .f16 | 10 => some .f24 | 11 => some .f32
  | 12 => some .f40 | 13 => some .x8 | 14 => some .g32 | _ => none

def Fmt.code : Fmt → Nat
  | .t2 => 0 | .q4 => 1 | .q8 => 2 | .q16 => 3 | .q32 => 4 | .f4 => 5 | .f6 => 6 | .f8a => 7 | .f8b => 8
  | .f16 => 9 | .f24 => 10 | .f32 => 11 | .f40 => 12 | .x8 => 13 | .g32 => 14

/-- Bits one element takes in storage (R49); a G32 block counts as one element. -/
def Fmt.bits : Fmt → Nat
  | .t2 => 2 | .q4 => 4 | .f4 => 4 | .f6 => 6 | .q8 => 8 | .f8a => 8 | .f8b => 8 | .x8 => 8
  | .q16 => 16 | .f16 => 16 | .f24 => 24 | .q32 => 32 | .f32 => 32 | .f40 => 64 | .g32 => 1056

/-- Bits of the value itself. -/
def Fmt.width : Fmt → Nat
  | .f40 => 40 | f => f.bits

/-- The storage unit of R115. -/
def Fmt.unit : Fmt → Nat
  | .q16 => 2 | .f16 => 2 | .f6 => 3 | .f24 => 3 | .q32 => 4 | .f32 => 4 | .g32 => 4 | .f40 => 8 | _ => 1

/-- Integer formats, T2 among them (R31). -/
def Fmt.isInt : Fmt → Bool
  | .t2 | .q4 | .q8 | .q16 | .q32 => true
  | _ => false

def Fmt.isFloat : Fmt → Bool
  | .f4 | .f6 | .f8a | .f8b | .f16 | .f24 | .f32 | .f40 => true
  | _ => false

/-- Formats that may carry X8 scales (R44). -/
def Fmt.scalable : Fmt → Bool
  | .t2 | .q4 | .q8 | .f4 | .f6 | .f8a | .f8b | .f16 => true
  | _ => false

/-- Array operands (R159), and class H (R56). -/
def Fmt.arrayOperand : Fmt → Bool
  | .q32 | .f40 | .x8 | .g32 => false
  | _ => true

def Fmt.half : Fmt → Bool
  | .t2 | .q4 | .f4 | .f6 => true
  | _ => false

/-- Number of limbs (R56). -/
def Fmt.limbs : Fmt → Nat
  | .q16 | .f16 | .f24 => 2
  | .f32 => 3
  | _ => 1

/-- Exponent bits, mantissa bits, bias of a float format. -/
def Fmt.layout : Fmt → Nat × Nat × Int
  | .f4 => (2, 1, 2) | .f6 => (3, 2, 3) | .f8a => (4, 3, 8) | .f8b => (5, 2, 16) | .f16 => (6, 9, 32)
  | .f24 => (8, 15, 127) | .f32 => (8, 23, 127) | .f40 => (10, 29, 511) | _ => (0, 0, 0)

/-- The wide floats have infinities (R39). -/
def Fmt.wide : Fmt → Bool
  | .f16 | .f24 | .f32 | .f40 => true
  | _ => false

/-- The largest finite magnitude code of a float. -/
def Fmt.maxCode : Fmt → Nat
  | .f4 => 7 | .f6 => 0x1F | .f8a => 0x7E | .f8b => 0x7E
  | f => (2 ^ f.layout.1 - 1) * 2 ^ f.layout.2.1 - 1

/-- The code Leruri writes for NaN (R36, R39). -/
def Fmt.nanCode : Fmt → Nat
  | .f6 => 0x20 | .f8a => 0xFF | .f8b => 0xFF | .f16 => 0x7F00 | .f24 => 0x7FC000 | .f32 => 0x7FC00000
  | .f40 => 0x7FF0000000 | _ => 0

/-! ### Exact values -/

def Num.zero : Num := .fin false 0 0

def Num.ofInt (i : Int) : Num := .fin (decide (i < 0)) i.natAbs 0

/-- Signed integer of `w` bits, or unsigned. -/
def intOf (w : Nat) (signed : Bool) (v : Nat) : Int :=
  if signed && v.testBit (w - 1) then (v : Int) - 2 ^ w else v

/-- The exact value of a code (R31, R34–R41), with T2_RSVD when the reserved T2 code is read. -/
def Fmt.decode (f : Fmt) (signed : Bool) (v : Nat) : Num × FmtFlags :=
  match f with
  | .t2 => match v % 4 with
    | 1 => (Num.ofInt 1, 0)
    | 3 => (Num.ofInt (-1), 0)
    | 2 => (Num.zero, flT2Rsvd)
    | _ => (Num.zero, 0)
  | .q4 => (Num.ofInt (intOf 4 signed (v % 16)), 0)
  | .q8 => (Num.ofInt (intOf 8 signed (v % 256)), 0)
  | .q16 => (Num.ofInt (intOf 16 signed (v % 65536)), 0)
  | .q32 => (Num.ofInt (intOf 32 signed (v % 2 ^ 32)), 0)
  | .x8 => (Num.ofInt (v % 256), 0)
  | .g32 => (Num.zero, 0)
  | f =>
    let (eb, mb, bias) := f.layout
    let m := v % 2 ^ mb
    let e := v / 2 ^ mb % 2 ^ eb
    let s := v.testBit (eb + mb)
    let top := decide (e = 2 ^ eb - 1)
    if f.wide && top then (if m = 0 then .inf s else .nan, 0)
    else if f == .f6 && v % 64 == 0x20 then (.nan, 0)
    else if (f == .f8a || f == .f8b) && v % 128 == 0x7F then (.nan, 0)
    else if e = 0 then (.fin s m (1 - bias - mb), 0)
    else (.fin s (2 ^ mb + m) ((e : Int) - bias - mb), 0)

/-- Divide by 2^k, to nearest with ties to even (R30). -/
def rneShift (m k : Nat) : Nat :=
  let q := m >>> k
  let r := m % 2 ^ k
  if 2 ^ k < 2 * r ∨ (2 * r = 2 ^ k ∧ q % 2 = 1) then q + 1 else q

/-- RNE of a magnitude to an integer. -/
def rneInt (mag : Nat) (exp : Int) : Nat :=
  if 0 ≤ exp then mag * 2 ^ exp.toNat else rneShift mag (-exp).toNat

/-- RNE of a non-zero magnitude to a float format: its magnitude code, unbounded above (R52). -/
def floatCode (mb : Nat) (bias : Int) (mag : Nat) (exp : Int) : Nat :=
  let u := max (exp + Nat.log2 mag - mb) (1 - bias - mb)
  let q := if u ≤ exp then mag * 2 ^ (exp - u).toNat else rneShift mag (u - exp).toNat
  ((u + bias + mb - 1).toNat) * 2 ^ mb + q

/-- Encode an exact value (R52), with the flags it sets. -/
def Fmt.encode (f : Fmt) (signed : Bool) (x : Num) : Nat × FmtFlags :=
  if f.isInt then
    let w := f.bits
    let hi : Int := if f == .t2 then 1 else if signed then 2 ^ (w - 1) - 1 else 2 ^ w - 1
    let lo : Int := if f == .t2 then -1 else if signed then -(2 ^ (w - 1)) else 0
    let put (i : Int) : Nat := (i % 2 ^ w).toNat
    match x with
    | .nan => (0, flNanZero)
    | .inf s => (put (if s then lo else hi), flInfSat)
    | .fin s m e =>
      let n : Int := rneInt m e
      let v := if s then -n else n
      if hi < v then (put hi, flSat) else if v < lo then (put lo, flSat) else (put v, 0)
  else
    let (eb, mb, bias) := f.layout
    let sgn (s : Bool) (c : Nat) : Nat := if s then 2 ^ (eb + mb) + c else c
    let infCode := (2 ^ eb - 1) * 2 ^ mb
    match x with
    | .nan => if f == .f4 then (0, flNanZero) else (f.nanCode, 0)
    | .inf s => if f.wide then (sgn s infCode, 0) else (sgn s f.maxCode, flInfSat)
    | .fin s m e =>
      if m = 0 then (if f == .f6 then 0 else sgn s 0, 0)
      else
        let c := floatCode mb bias m e
        if f.maxCode < c then (if f.wide then (sgn s infCode, flOvfInf) else (sgn s f.maxCode, flSat))
        else if c = 0 ∧ f = .f6 then (0, 0)
        else (sgn s c, 0)

/-- An exact value rounded to F40 (R30, R50). -/
def rne40 (x : Num) : Num × FmtFlags :=
  let (c, fl) := Fmt.f40.encode false x
  ((Fmt.f40.decode false c).1, fl)

def rne32 (x : Num) : Num × FmtFlags :=
  let (c, fl) := Fmt.f32.encode false x
  ((Fmt.f32.decode false c).1, fl)

/-! ### Exact arithmetic (R42, R50) -/

def Num.neg : Num → Num
  | .nan => .nan
  | .inf s => .inf (!s)
  | .fin s m e => .fin (!s) m e

def Num.abs : Num → Num
  | .nan => .nan
  | .inf _ => .inf false
  | .fin _ m e => .fin false m e

/-- The signed integer a finite value is at exponent `e`, at most its own. -/
def finAt (s : Bool) (m : Nat) (e e' : Int) : Int :=
  let v : Int := m * 2 ^ (e - e').toNat
  if s then -v else v

def Num.add : Num → Num → Num
  | .nan, _ => .nan
  | _, .nan => .nan
  | .inf s, .inf t => if s = t then .inf s else .nan
  | .inf s, _ => .inf s
  | _, .inf t => .inf t
  | .fin s m e, .fin t n f =>
    let g := min e f
    let v := finAt s m e g + finAt t n f g
    if v = 0 then .fin (s && t && m == 0 && n == 0) 0 0 else .fin (decide (v < 0)) v.natAbs g

def Num.mul : Num → Num → Num
  | .nan, _ => .nan
  | _, .nan => .nan
  | .inf s, .inf t => .inf (s != t)
  | .inf s, .fin t n _ => if n = 0 then .nan else .inf (s != t)
  | .fin s m _, .inf t => if m = 0 then .nan else .inf (s != t)
  | .fin s m e, .fin t n f => .fin (s != t) (m * n) (if m * n = 0 then 0 else e + f)

def Num.sub (a b : Num) : Num := a.add b.neg

/-- Multiply by a power of two. -/
def Num.scale : Num → Int → Num
  | .fin s m e, k => .fin s m (if m = 0 then 0 else e + k)
  | x, _ => x

/-- Is `a` less than `b`? False with a NaN; +0 and −0 are equal (R168). -/
def Num.lt : Num → Num → Bool
  | .nan, _ => false
  | _, .nan => false
  | .inf s, .inf t => s && !t
  | .inf s, _ => s
  | _, .inf t => !t
  | .fin s m e, .fin t n f =>
    let g := min e f
    decide (finAt s m e g < finAt t n f g)

def Num.eq (a b : Num) : Bool := !a.isNan && !b.isNan && !a.lt b && !b.lt a

def Num.isZero : Num → Bool
  | .fin _ 0 _ => true
  | _ => false

/-- The value of an X8 code as a power of two (R43). -/
def x8Exp (x : Nat) : Int := (x : Int) - 127

/-- Apply a block scale: 0xFF makes every element NaN (R44, R45). -/
def Num.withScale (v : Num) (x : Nat) : Num := if x = 0xFF then .nan else v.scale (x8Exp x)

/-- ⌈log2 (m / V)⌉ for positive dyadics m = a·2^e and V = b·2^f. -/
def ceilLog2Ratio (a : Nat) (e : Int) (b : Nat) (f : Int) : Int :=
  let k : Int := (Nat.log2 a : Int) - Nat.log2 b + (e - f) - 1
  let le (k : Int) : Bool :=      -- a·2^e ≤ b·2^f·2^k
    let d := e - f - k
    if 0 ≤ d then decide (a * 2 ^ d.toNat ≤ b) else decide (a ≤ b * 2 ^ (-d).toNat)
  if le k then k else if le (k + 1) then k + 1 else k + 2

/-- The largest magnitude of the target that block scaling aims at (R46). -/
def Fmt.scaleMax (f : Fmt) (signed : Bool) : Nat × Int :=
  match f with
  | .t2 => (1, 0)
  | .q4 => (if signed then 7 else 15, 0)
  | .q8 => (if signed then 127 else 255, 0)
  | f => match (f.decode false f.maxCode).1 with | .fin _ m e => (m, e) | _ => (1, 0)

/-- The larger of two magnitudes. -/
def Num.maxAbs (a b : Num) : Num := if a.abs.lt b.abs then b.abs else a.abs

/-- The X8 scale of a block for a target (R46). -/
def blockScale (f : Fmt) (signed : Bool) (xs : List Num) : Nat :=
  if xs.any fun x => match x with | .fin _ _ _ => false | _ => true then 0xFF
  else match xs.foldl Num.maxAbs Num.zero with
    | .fin _ m e =>
      if m = 0 then 127
      else
        let (b, g) := f.scaleMax signed
        (max 0 (min 254 (127 + ceilLog2Ratio m e b g))).toNat
    | _ => 0xFF

/-! ### G32 blocks (R47, R48) -/

/-- A G32 block taken apart. -/
structure GBlock where
  m : List Int
  x : Nat
  ovf : Bool
  deriving DecidableEq, Repr

def GBlock.invalid : GBlock := { m := List.replicate 32 0, x := 0xFF, ovf := false }

def satQ32 (v : Int) : Int × Bool :=
  if 2 ^ 31 - 1 < v then (2 ^ 31 - 1, true) else if v < -(2 ^ 31) then (-(2 ^ 31), true) else (v, false)

def GBlock.ofBytes (bs : List Byte) : GBlock :=
  { m := (List.range 32).map fun i => intOf 32 true (field bs (4 * i) 4)
    x := field bs 0x80 1, ovf := bit (field bs 0x81 1) 0 }

def GBlock.toBytes (g : GBlock) : List Byte :=
  (g.m.map fun i => le 4 (i % 2 ^ 32).toNat).flatten ++ le 1 g.x ++ le 1 (b2n g.ovf) ++ zeros 2

/-- Float values to a block under an exponent (R48). -/
def GBlock.ofNums (x : Nat) (vs : List Num) : GBlock × FmtFlags :=
  if x = 0xFF ∨ (vs.any fun v => match v with | .fin _ _ _ => false | _ => true) = true then (.invalid, 0)
  else
    let ms := vs.map fun v => match v with
      | .fin s m e => satQ32 (let n : Int := rneInt m (e + 157 - x); if s then -n else n)
      | _ => (0, false)
    let o := ms.any (·.2)
    ({ m := ms.map (·.1), x := x, ovf := o }, if o then flG32Ovf else 0)

/-- Block addition (R48, R176). -/
def GBlock.add (a b : GBlock) : GBlock × FmtFlags :=
  if a.x ≠ b.x ∨ a.x = 0xFF then (.invalid, flX8Invalid)
  else
    let ms := List.zipWith (fun x y => satQ32 (x + y)) a.m b.m
    let o := ms.any (·.2)
    ({ m := ms.map (·.1), x := a.x, ovf := a.ovf || b.ovf || o }, if o then flG32Ovf else 0)

/-- The values of a block (R47, R48). -/
def GBlock.values (g : GBlock) : List Num :=
  g.m.map fun i => if g.x = 0xFF then .nan else (Num.ofInt i).scale ((g.x : Int) - 157)

/-! ### Limbs (R56, R57) -/

/-- An array operand element as a cell holds it: signed limbs, the exponent of limb 0's unit. -/
def limbsOf (f : Fmt) (signed : Bool) (v : Nat) (poison : Bool) : Cell × FmtFlags :=
  let (x, fl) := f.decode signed v
  match x with
  | .nan => ({ cls := 2, poison := poison }, fl)
  | .inf s => ({ cls := 1, neg := s, poison := poison }, fl)
  | .fin s m e =>
    let sg (k : Nat) : Int := if s then -(k : Int) else k
    match f with
    | .q16 =>
      let i := intOf 16 signed (v % 65536)
      ({ neg := s, l0 := i.fdiv 256, l1 := i.fmod 256, exp := 8, poison := poison }, fl)
    | .f16 => ({ neg := s, l0 := sg (m / 4), l1 := sg (m % 4 * 64), exp := e + 2, poison := poison }, fl)
    | .f24 => ({ neg := s, l0 := sg (m / 256), l1 := sg (m % 256), exp := e + 8, poison := poison }, fl)
    | .f32 =>
      ({ neg := s, l0 := sg (m / 65536), l1 := sg (m / 256 % 256), l2 := sg (m % 256), exp := e + 16,
         poison := poison }, fl)
    | _ => ({ neg := s, l0 := sg m, exp := e, poison := poison }, fl)

def Cell.limb (c : Cell) : Nat → Int
  | 0 => c.l0 | 1 => c.l1 | _ => c.l2

/-- One limb-pair product without its pass weight; a special element takes part in pass (0,0) alone. -/
def limbProduct (a w : Cell) (i j : Nat) : Num :=
  if a.cls == 0 && w.cls == 0 then
    let v := a.limb i * w.limb j
    .fin (if v = 0 then a.neg != w.neg else decide (v < 0)) v.natAbs (if v = 0 then 0 else a.exp + w.exp)
  else if i = 0 ∧ j = 0 then
    let num (c : Cell) : Num := if c.cls == 2 then .nan else if c.cls == 1 then .inf c.neg
      else .fin c.neg (c.l0.natAbs + c.l1.natAbs + c.l2.natAbs) 0
    (num a).mul (num w)
  else .zero

/-- The passes of R59–R61, in order. -/
def passes (a w : Fmt) (fast : Bool) : List (Nat × Nat) :=
  let na := a.limbs
  let nw := w.limbs
  let n := max na nw
  let all := (List.range (na + nw - 1)).flatMap fun s =>
    (List.range na).filterMap fun i => if i ≤ s ∧ s - i < nw then some (i, s - i) else none
  if fast && a.isFloat && w.isFloat then all.filter fun p => decide (p.1 + p.2 < n) else all

/-! ### Transcendental functions (R170): fixed-point values of 128 fraction bits -/

def fx : Nat := 2 ^ 128

/-- ln 2 × 2^128 and log2 e × 2^128. -/
def ln2Fx : Nat := 0xB17217F7D1CF79ABC9E3B39803F2F6AF
def log2eFx : Nat := 0x171547652B82FE1777D0FFDA0D23A7D11

/-- e^x for x in [0, 1), by its series. -/
def expFx (x : Nat) : Nat :=
  ((List.range 34).foldl (fun (s : Nat × Nat) i => (s.1 + s.2, s.2 * x / fx / (i + 1))) (0, fx)).1

/-- 2^(n/2^128) as a dyadic magnitude and exponent. -/
def exp2Fx (n : Int) : Nat × Int :=
  (expFx ((n.fmod fx).toNat * ln2Fx / fx), n.fdiv fx - 128)

/-- A finite value in fixed point, clamped to ±2^13. -/
def Num.toFx (s : Bool) (m : Nat) (e : Int) : Int :=
  let lim : Int := 8192 * fx
  let v : Int := if 0 ≤ e + 128 then (if 4096 < e + Nat.log2 m then lim else m * 2 ^ (e + 128).toNat)
    else m / 2 ^ (-(e + 128)).toNat
  let v := min v lim
  if s then -v else v

/-- log2 of a number in [1, 2) (fixed point), bit by bit. -/
def log2Frac : Nat → Nat → Nat → Nat
  | 0, _, acc => acc
  | n + 1, y, acc =>
    let y2 := y * y / fx
    if 2 * fx ≤ y2 then log2Frac n (y2 / 2) (2 * acc + 1) else log2Frac n y2 (2 * acc)

/-- Quotient of positive dyadics with 128 significant bits or more. -/
def divDy (a : Nat) (e : Int) (b : Nat) (f : Int) : Nat × Int :=
  let k := Nat.log2 b + 130
  (a * 2 ^ k / b, e - f - k)

/-- Square root of a positive dyadic with 96 significant bits or more and a sticky last bit. -/
def sqrtDy (m : Nat) (e : Int) : Nat × Int :=
  let k := 200 + (e % 2).toNat
  let n := m * 2 ^ k
  let r := Nat.sqrt n
  (2 * r + b2n (decide (r * r ≠ n)), (e - k) / 2 - 1)

/-- e^(−x) for x ≥ 0 given in fixed point. -/
def expNeg (x : Nat) : Nat × Int := exp2Fx (-((x * log2eFx / fx : Nat) : Int))

/-- The true value of a transcendental to far better than its bound; none where the special inputs of the
table decide. -/
def transTrue (op : Op) (s : Bool) (m : Nat) (e : Int) : Num :=
  let dy (s : Bool) (p : Nat × Int) : Num := .fin s p.1 p.2
  match op with
  | .vexp2 => dy false (exp2Fx (Num.toFx s m e))
  | .vexp => dy false (exp2Fx (Num.toFx s m e * (log2eFx : Int) / (fx : Int)))
  | .vlog2 =>
    let k := Nat.log2 m
    let y := if k ≤ 128 then m * 2 ^ (128 - k) else m / 2 ^ (k - 128)
    let v : Int := (e + k) * 2 ^ 100 + log2Frac 100 y 0
    .fin (decide (v < 0)) v.natAbs (-100)
  | .vrcp => dy s (divDy 1 0 m e)
  | .vsqrt => dy false (sqrtDy m e)
  | .vrsqrt =>
    let r := sqrtDy m e
    dy false (divDy 1 0 r.1 r.2)
  | .vsigm =>
    let E := expNeg (Num.toFx false m e).toNat
    let den := Num.add (.fin false 1 0) (.fin false E.1 E.2)
    match den with
    | .fin _ b f => if s then dy false (divDy E.1 E.2 b f) else dy false (divDy 1 0 b f)
    | _ => .nan
  | .vtanh =>
    if e + Nat.log2 m < -20 then
      let sq := Num.mul (.fin false m e) (.fin false m e)
      match sq with
      | .fin _ a g =>
        let t := divDy a g 3 0
        (Num.mul (.fin s m e) (Num.sub (.fin false 1 0) (.fin false t.1 t.2)))
      | _ => .nan
    else
      let E := expNeg (2 * (Num.toFx false m e).toNat)
      let num := Num.sub (.fin false 1 0) (.fin false E.1 E.2)
      let den := Num.add (.fin false 1 0) (.fin false E.1 E.2)
      match num, den with
      | .fin _ a g, .fin _ b f => dy s (divDy a g b f)
      | _, _ => .nan
  | _ => .nan

/-- Bound of R170 in ulp of F32; 0 for VSQRT, which is correctly rounded. -/
def transBound : Op → Nat
  | .vsqrt => 0
  | .vexp | .vtanh | .vsigm => 2
  | _ => 1

/-- VLOG2 of an input from 0.5 to 2: within 2^−22 of the true value (DESIGN CHOICE, assumption 12). -/
def log2Near (input : Nat) (x : Num) : Num :=
  let dv := max (-(2 ^ 32)) (min (2 ^ 32) (Config.transDev .vlog2 input))
  x.add (.fin (decide (dv < 0)) dv.natAbs (-54))

/-- A finite positive value lies from 0.5 to 2. -/
def nearOne (m : Nat) (e : Int) : Bool :=
  let x : Num := .fin false m e
  !x.lt (.fin false 1 (-1)) && !Num.lt (.fin false 1 1) x

/-- Move a value by the deviation of its operation, within the bound, keeping its sign (DESIGN CHOICE, assumption 12). -/
def deviate (op : Op) (input : Nat) (x : Num) : Num :=
  let b := transBound op
  match x with
  | .fin s m e =>
    if m = 0 ∨ b = 0 then x
    else
      let u : Int := max (e + Nat.log2 m - 23) (-149)
      let lim : Int := b * 2 ^ 32
      let dv := max (-lim) (min lim (Config.transDev op input))
      match Num.add (.fin false m e) (.fin (decide (dv < 0)) dv.natAbs (u - 32)) with
      | .fin true _ _ => .fin s 0 0
      | .fin false m e => .fin s m e
      | y => y
  | _ => x

/-- The value of a transcendental before its rounding to the destination, special inputs first (R170). -/
def trans (op : Op) (input : Nat) (x : Num) : Num :=
  match op, x with
  | _, .nan => .nan
  | .vexp2, .inf s => if s then .zero else .inf false
  | .vexp, .inf s => if s then .zero else .inf false
  | .vlog2, .inf s => if s then .nan else .inf false
  | .vlog2, .fin s m e =>
    if m = 0 then .inf true
    else if s then .nan
    else if nearOne m e then log2Near input (transTrue op s m e)
    else deviate op input (transTrue op s m e)
  | .vrcp, .inf s => .fin s 0 0
  | .vrcp, .fin s m e => if m = 0 then .inf s else deviate op input (transTrue op s m e)
  | .vrsqrt, .inf s => if s then .nan else .zero
  | .vrsqrt, .fin s m e => if m = 0 then .inf s else if s then .nan else deviate op input (transTrue op s m e)
  | .vsqrt, .inf s => if s then .nan else .inf false
  | .vsqrt, .fin s m e => if m = 0 then .fin s 0 0 else if s then .nan else transTrue op s m e
  | .vtanh, .inf s => .fin s 1 0
  | .vtanh, .fin s m e => if m = 0 then .fin s 0 0 else deviate op input (transTrue op s m e)
  | .vsigm, .inf s => if s then .zero else .fin false 1 0
  | .vsigm, .fin s m e => deviate op input (if m = 0 then .fin false 1 (-1) else transTrue op s m e)
  | .vexp2, .fin s m e => deviate op input (if m = 0 then .fin false 1 0 else transTrue op s m e)
  | .vexp, .fin s m e => deviate op input (if m = 0 then .fin false 1 0 else transTrue op s m e)
  | _, _ => .nan

end Sys2Proof.Machine
end

