-- ==== Sys2Proof/Machine/ExchangePlan.lean ====
section
/-! DEFINITION. The plan of a collective: which elements travel in which stream, how streams are cut into segments
and packets, the order of additions, and the values a device knows (R306, R312, R317–R335). -/

namespace Sys2Proof.Machine

/-! ### The map of a job (R306, R307) -/

def Job.s (j : Job) : Nat := ((List.range 8).filter fun i => bit j.slotmask.toNat i).length

def Job.member (j : Job) : Nat := if j.s = 0 then 0 else j.rank % j.s

def Job.board (j : Job) : Nat := if j.s = 0 then 0 else j.rank / j.s

/-- Ranks of the other members of this device's board. -/
def Job.boardPeers (j : Job) : List Nat :=
  ((List.range j.s).map fun m => j.board * j.s + m).filter (· ≠ j.rank)

/-- Rank at a ring position with this device's member index. -/
def Job.ringRank (j : Job) (pos : Nat) : Nat := (j.ring[pos % j.nboard]?).getD 0 * j.s + j.member

/-- The ring neighbours, before and after (R307). -/
def Job.ringPeers (j : Job) : List Nat :=
  if j.nboard ≤ 1 then []
  else [j.ringRank (j.pos + 1), j.ringRank (j.pos + j.nboard - 1)].dedup

def Job.peers (j : Job) : List Nat := (j.boardPeers ++ j.ringPeers).dedup

def Job.devOf (j : Job) (rank : Nat) : BitVec 15 := ((j.rankmap[rank]?).getD 0).setWidth 15

/-! ### Values on the wire (R332) -/

/-- How values travel: bits of one, and whether a packet starts with the scales of its blocks of 32. -/
structure Wire where
  bits : Nat
  blk : Bool := false
  deriving DecidableEq, Repr

/-- The values that fit in `n` bytes: whole blocks with their scales, or whole groups of bytes packed as in memory. -/
def Wire.fit (w : Wire) (n : Nat) : Nat :=
  if w.blk then n / (1 + 4 * w.bits) * 32 else n / (w.bits / Nat.gcd w.bits 8) * (8 / Nat.gcd w.bits 8)

/-- Data bytes of a packet and of a segment (R317, R335). -/
def pktData : Nat := 224
def segData : Nat := 65536

def CDesc.pairs (c : CDesc) : Bool := c.op == 6 || c.op == 7

def CDesc.wireOf (c : CDesc) (probe : Bool) : Wire :=
  if probe then { bits := 8 }
  else if c.pairs then { bits := 64 }
  else if c.op == 1 || c.op == 2 then { bits := 32 }
  else { bits := c.wire.bits, blk := c.op == 3 && c.wire != .f32 }

/-- Bits of an element of DST (R312). -/
def CDesc.dstBits (c : CDesc) : Nat := if c.pairs then 64 else c.dstFmt.bits

/-- FMT of the packet header (R317). -/
def CDesc.fmtByte (c : CDesc) : Nat := if c.pairs then 0x80 else c.wire.code

/-- Pack values of `b` bits, the first lowest (R49). -/
def packBits (b : Nat) (vs : List Nat) : Nat := vs.foldr (fun v a => v % 2 ^ b + a * 2 ^ b) 0

def packBytes (b : Nat) (vs : List Nat) : List Byte := le (ceilDiv (b * vs.length) 8) (packBits b vs)

/-- Unpack `n` values of `b` bits. -/
def unpackBits (b n : Nat) (bs : List Byte) : List Nat :=
  let v := unle bs
  (List.range n).map fun i => (v >>> (b * i)) % 2 ^ b

/-- Cut a list into pieces of `k`. -/
def chunked {α : Type} (k : Nat) (l : List α) : List (List α) :=
  if k = 0 then [] else (List.range (ceilDiv l.length k)).map fun i => (l.drop (i * k)).take k

/-- The data bytes of a packet. A block's scale stands above bit 31 of each of its values. -/
def Wire.data (w : Wire) (vs : List Word) : List Byte :=
  let codes := packBytes w.bits (vs.map (·.toNat))
  if w.blk then ((chunked 32 vs).map fun b => BitVec.ofNat 8 ((b.head?.getD 0).toNat >>> 32)) ++ codes else codes

/-- The number of data bytes of `n` values. -/
def Wire.len (w : Wire) (n : Nat) : Nat := (if w.blk then ceilDiv n 32 else 0) + ceilDiv (w.bits * n) 8

/-- The values of a packet's data bytes. -/
def Wire.values (w : Wire) (n : Nat) (bs : List Byte) : List Word :=
  let s := if w.blk then ceilDiv n 32 else 0
  let codes := unpackBits w.bits n (bs.drop s)
  (List.zip (List.range n) codes).map fun p =>
    BitVec.ofNat 64 (p.2 + if w.blk then ((bs[p.1 / 32]?).getD 0).toNat * 2 ^ 32 else 0)

/-- The G32 blocks that a packet touches, in order (R317). -/
def blocksOf (ix : List Nat) : List Nat := (ix.map (· / 32)).dedup

/-! ### Shards, slices and streams (R312, R322) -/

/-- First element of shard `r`. -/
def shardLo (n p r : Nat) : Nat := if p = 0 then 0 else r * n / p

def span (lo hi : Nat) : List Nat := (List.range (hi - lo)).map (lo + ·)

def shardIx (n p r : Nat) : List Nat := span (shardLo n p r) (shardLo n p (r + 1))

/-- The rank whose shard holds an element. -/
def shardOwner (n p e : Nat) : Nat := if n = 0 then 0 else ((e + 1) * p + n - 1) / n - 1

/-- The elements of a shard that plane number `q` of `Q` carries (R322). -/
def planeIx (ix : List Nat) (u q Q : Nat) : List Nat :=
  let l := ix.length
  let cut (q : Nat) := if Q = 0 then 0 else u * (q * l / (u * Q))
  (ix.drop (cut q)).take (cut (q + 1) - cut q)

/-- Slice `m`: the shards of every rank with member index `m`. -/
def Job.sliceIx (j : Job) (n m : Nat) : List Nat :=
  (List.range j.nboard).flatMap fun g => shardIx n j.nrank (g * j.s + m)

/-- Ring position of a board. -/
def Job.posOf (j : Job) (g : Nat) : Nat := (j.ring.findIdx? (· == g)).getD 0

/-- The rank at a ring position with a member index. -/
def Job.rankAt (j : Job) (pos m : Nat) : Nat := (j.ring[pos % max j.nboard 1]?).getD 0 * j.s + m

def Job.mem (j : Job) (r : Nat) : Nat := if j.s = 0 then 0 else r % j.s
def Job.brd (j : Job) (r : Nat) : Nat := if j.s = 0 then 0 else r / j.s

/-- Chunk (k, ·) of a slice, cut by planes. -/
def Job.chunkIx (j : Job) (n u k m : Nat) : List (Option Nat × List Nat) :=
  (List.range j.nplane).map fun q => (j.planes[q]?, planeIx (shardIx n j.nrank (j.rankAt k m)) u q j.nplane)

/-- A collective as its streams see it: the job, the descriptor, its count of values and its unit. -/
structure Coll where
  j : Job
  c : CDesc
  probe : Bool
  n : Nat
  u : Nat
  deriving Repr

def Coll.mk' (j : Job) (c : CDesc) (probe : Bool) : Coll :=
  { j := j, c := c, probe := probe, n := if probe then c.count / 32 else c.count
    u := if !probe && ((c.g32 && (c.op == 1 || c.op == 2)) || (c.wireOf false).blk) then 32 else 1 }

/-- The pieces of a stream in INDEX order: the plane that carries each and its elements. A piece ends with a packet.
The ring's streams start with the chunk whose turn comes first. -/
def Coll.pieces (x : Coll) (stage src dst : Nat) : List (Option Nat × List Nat) :=
  let j := x.j
  let g := j.nboard
  let p := j.posOf (j.brd src)
  let ps := match stage with
    | 0 => [(none, j.sliceIx x.n (j.mem dst))]
    | 1 => (List.range (g - 1)).flatMap fun i => j.chunkIx x.n x.u ((p + 2 * g - 1 - i) % g) (j.mem src)
    | 2 => if x.c.op == 4 then (List.range g).flatMap fun k => j.chunkIx x.n x.u k (j.mem src)
      else (List.range (g - 1)).flatMap fun i => j.chunkIx x.n x.u ((p + 2 * g - i) % g) (j.mem src)
    | 3 => [(none, j.sliceIx x.n (j.mem src))]
    | _ => if x.c.op == 4 then [(none, j.sliceIx x.n (j.mem dst))]
      else [(if j.brd src = j.brd dst then none else j.planes[dst % max j.nplane 1]?, shardIx x.n j.nrank dst)]
  ps.filter (!·.2.isEmpty)

/-- A segment: the INDEX of its first packet, and the plane and the elements of each packet. -/
structure Segm where
  first : Nat
  pkts : List (Option Nat × List Nat)
  deriving DecidableEq, Repr

/-- The plane of a segment's LAST packet, which its TALLY and the answers to it take too. -/
def Segm.plane (s : Segm) : Option Nat := s.pkts.getLast?.bind (·.1)

/-- Parts of pieces, in order: a part joins the last segment while that has room, and the rest fills segments of
65,536 data bytes (R335). `room` is what the last one has left. -/
def cutPieces (w : Wire) (room : Nat) : List (Option Nat × List Nat) → List (List (Option Nat × List Nat)) →
    List (List (Option Nat × List Nat))
  | [], segs => segs
  | (q, ix) :: ps, segs =>
    let k := min ix.length (w.fit room)
    let joined := if k = 0 then segs else match segs.getLast? with
      | some s => segs.dropLast ++ [s ++ [(q, ix.take k)]]
      | none => [[(q, ix.take k)]]
    let rest := chunked (w.fit segData) (ix.drop k)
    let room := match rest.getLast? with
      | some r => segData - w.len r.length
      | none => room - w.len k
    cutPieces w room ps (joined ++ rest.map fun r => [(q, r)])

/-- Cut a stream into segments and packets (R332, R335). -/
def cutSegs (w : Wire) (ps : List (Option Nat × List Nat)) : List Segm :=
  ((cutPieces w 0 ps []).foldl (fun (a : Nat × List Segm) s =>
    let pkts := s.flatMap fun part => (chunked (w.fit pktData) part.2).map fun ix => (part.1, ix)
    (a.1 + pkts.length, a.2 ++ [{ first := a.1, pkts := pkts }])) (0, [])).2

def Coll.wire (x : Coll) : Wire := x.c.wireOf x.probe

def Coll.segs (x : Coll) (stage src dst : Nat) : List Segm := cutSegs x.wire (x.pieces stage src dst)

/-- The link die of a port (R302). -/
def portDie (p : Nat) : Nat := p / 2

/-- Broadcasts and all-to-alls, which pass no adder (R302). -/
def Coll.passes (x : Coll) : Bool := x.c.op == 4 || x.c.op == 5

/-- The link die of a packet of plane `q` in segment `i` (R302): of a broadcast or an all-to-all the one whose port carries it,
`carry`; else the plane's, or ld(i mod 4) in a board stage. -/
def Coll.die (x : Coll) (carry : Nat) (i : Nat) (q : Option Nat) : Nat :=
  if x.passes then carry
  else match q with
    | some q => portDie (8 + q)
    | none => i % 4

/-- The stages of R322: a reduction, and the gathers. A scale probe runs them all (R331). -/
def Coll.reduces (x : Coll) : Bool := x.c.op == 1 || x.c.op == 2 || x.c.pairs
def Coll.gathers (x : Coll) : Bool := x.probe || x.c.op == 1 || x.c.op == 3 || x.c.pairs

def Coll.root (x : Coll) : Nat := x.c.root
def Coll.onRootBoard (x : Coll) : Bool := x.j.board == x.j.brd x.root

/-- Streams this device sends: stage and destination. -/
def Coll.outs (x : Coll) : List (Nat × Nat) :=
  let j := x.j
  let next := j.rankAt (j.pos + 1) j.member
  let ring (s : Nat) := if 1 < j.nboard then [(s, next)] else []
  let board (s : Nat) := j.boardPeers.map fun r => (s, r)
  match x.c.op with
  | 4 =>
    (if j.rank = x.root then j.boardPeers.map fun r => (4, r) else [])
      ++ (if (j.pos + 1) % max j.nboard 1 = j.posOf (j.brd x.root) then [] else ring 2)
      ++ (board 3).filter fun s => s.2 ≠ x.root
  | 5 => ((List.range j.nrank).filter (· ≠ j.rank)).map fun r => (4, r)
  | _ => (if x.reduces then board 0 ++ ring 1 else []) ++ if x.gathers then ring 2 ++ board 3 else []

/-- Streams this device receives: stage and sender. -/
def Coll.ins (x : Coll) : List (Nat × Nat) :=
  let j := x.j
  let prev := j.rankAt (j.pos + j.nboard - 1) j.member
  let ring (s : Nat) := if 1 < j.nboard then [(s, prev)] else []
  let board (s : Nat) := j.boardPeers.map fun r => (s, r)
  match x.c.op with
  | 4 => if j.rank = x.root then []
    else (if x.onRootBoard then [(4, x.root)] else ring 2) ++ board 3
  | 5 => ((List.range j.nrank).filter (· ≠ j.rank)).map fun r => (4, r)
  | _ => (if x.reduces then board 0 ++ ring 1 else []) ++ if x.gathers then ring 2 ++ board 3 else []

/-! ### Arithmetic (R321, R323, R324, R326, R327, R331) -/

def f32Val (v : Nat) : Num := (Fmt.decode .f32 false v).1

def f32Add (a b : Word) : Word :=
  BitVec.ofNat 64 (Fmt.encode .f32 false ((f32Val (a.toNat % 2 ^ 32)).add (f32Val (b.toNat % 2 ^ 32)))).1

/-- A G32 mantissa with the overflow flag above it. -/
def g32Add (a b : Word) : Word :=
  let s := satQ32 (intOf 32 true (a.toNat % 2 ^ 32) + intOf 32 true (b.toNat % 2 ^ 32))
  BitVec.ofNat 64 ((s.1 % 2 ^ 32).toNat + b2n (s.2 || a.getLsbD 32 || b.getLsbD 32) * 2 ^ 32)

/-- A pair whose value is a NaN holds the canonical one (R40). -/
def canonPair (a : Word) : Word :=
  if (f32Val (a.toNat % 2 ^ 32)).isNan then BitVec.ofNat 64 (a.toNat / 2 ^ 32 * 2 ^ 32 + 0x7FC00000) else a

/-- The pair that wins (R78, R326). -/
def pairBest (max : Bool) (a b : Word) : Word :=
  let va := f32Val (a.toNat % 2 ^ 32)
  let vb := f32Val (b.toNat % 2 ^ 32)
  let low := if a.toNat / 2 ^ 32 ≤ b.toNat / 2 ^ 32 then a else b
  if va.isNan && vb.isNan then canonPair low
  else if va.isNan then canonPair a
  else if vb.isNan then canonPair b
  else if va.eq vb then low
  else if va.lt vb == max then b else a

def Coll.comb (x : Coll) : Word → Word → Word :=
  if x.probe then fun a b => if a.toNat < b.toNat then b else a
  else if x.c.op == 6 then pairBest true
  else if x.c.op == 7 then pairBest false
  else if x.c.g32 then g32Add
  else f32Add

/-- Combine neighbours of one level of the tree: absent operands pass their partner on, and a result that is not
known yet is `some none` (R323). -/
def combLevel (f : Word → Word → Word) : List (Option (Option Word)) → List (Option (Option Word))
  | a :: b :: r =>
    (match a, b with
      | none, y => y
      | y, none => y
      | some (some y), some (some z) => some (some (f y z))
      | _, _ => some none) :: combLevel f r
  | r => r

/-- The pairwise tree over slots 0–7 (R323). -/
def slotTree (f : Word → Word → Word) (vs : List (Option (Option Word))) : Option Word :=
  (((combLevel f (combLevel f (combLevel f vs))).head?).getD none).getD none

/-! ### What a device knows of a collective -/

/-- The values a received stream has brought: those of segments that checked (R336), and the free values that stand
for what a withdrawn stream lacks. -/
def Rx.table (r : Rx) (x : Coll) : List (Nat × Word) :=
  let segs := x.segs r.stage r.src x.j.rank
  (List.zip (List.range segs.length) segs).flatMap fun s =>
    (List.zip (List.range s.2.pkts.length) s.2.pkts).flatMap fun p =>
      let ix := p.2.2
      match (if r.good.contains s.1 then r.pkts.get? (s.2.first + p.1) else none) with
      | some k =>
        let bs := blocksOf ix
        let vs := List.zip ix (x.wire.values ix.length k.data)
        if x.c.g32 && !x.probe then
          vs.map fun v => (v.1, v.2 + if (k.ovf.getLsbD ((bs.findIdx? (· == v.1 / 32)).getD 0)) then 0x100000000#64 else 0)
        else vs
      | none => match r.withdrawn with
        | some b => ix.map fun e => (e, BitVec.ofNat 64 ((Config.free (b + e)).toNat % 2 ^ x.wire.bits))
        | none => []

/-- A bucket with its collective. -/
structure XView where
  x : Coll
  b : Bucket
  deriving Repr

def Bucket.stream (b : Bucket) (stage src : Nat) : Option Rx :=
  b.rx.find? fun r => r.stage == stage && r.src == src && r.probe == b.probe

def XView.heard (v : XView) (stage src e : Nat) : Option Word :=
  (v.b.stream stage src).bind fun r => (r.table v.x).lookup e

/-- States of an adder entry as XCH_BKT_STATE shows them (R349). -/
def BState.code : BState → Nat
  | .early => 1 | .waitStart => 2 | .active => 3 | .redo => 4 | .done => 5 | .spoiled => 6

/-- The segments of a received stream still awaited. -/
def XView.missing (v : XView) (s : Nat × Nat) : Nat :=
  let n := (v.x.segs s.1 s.2 v.x.j.rank).length
  match v.b.stream s.1 s.2 with
  | some r => if r.withdrawn.isSome then 0 else n - r.good.length
  | none => n

/-- Stages whose streams a bucket still awaits, each with the segments awaited (R349). -/
def Dev.segsAwaited (d : Dev) (b : Bucket) : List (Nat × Nat) :=
  match b.desc with
  | none => []
  | some c =>
    if b.state == .done then []
    else
      let v : XView := { x := Coll.mk' (d.job b.job) c b.probe, b := b }
      (v.x.ins.map fun s => (s.1, v.missing s)).filter fun s => s.2 != 0

/-- The EXCHANGE words of a capture (R293): the job, and the oldest of its attempt's collectives that is not complete. -/
def Dev.jobSnap (d : Dev) (j : Nat) : List Byte :=
  let x := d.job j
  let mine := d.xch.bkts.filter fun b => b.job == j && b.step == x.step && b.attempt == x.attempt && b.state != .done
  let b := (mine.find? (·.desc.isSome)) <|> mine.head?
  le 2 x.job.toNat ++ le 1 x.attempt ++ le 1 ((b.map (·.state.code)).getD 0) ++ zeros 4 ++ le 8 x.step.toNat
    ++ le 4 ((b.map (·.bucket.toNat)).getD 0) ++ le 4 ((b.map fun b => ((d.segsAwaited b).map (·.2)).sum).getD 0) ++ zeros 40

/-- This device's own contribution to an element. -/
def XView.own (v : XView) (e : Nat) : Option Word :=
  v.b.contrib[if v.x.c.op == 3 then e - shardLo v.x.n v.x.j.nrank v.x.j.rank else e]?

/-- The board sum of an element of this member's slice (R323). -/
def XView.boardSum (v : XView) (e : Nat) : Option Word :=
  let j := v.x.j
  let slots := (List.range 8).filter fun i => bit j.slotmask.toNat i
  slotTree v.x.comb ((List.range 8).map fun s =>
    match slots.findIdx? (· == s) with
    | none => none
    | some m => if m = j.member then some (v.own e) else some (v.heard 0 (j.board * j.s + m) e))

/-- Ring position that owns an element. -/
def XView.ownerPos (v : XView) (e : Nat) : Nat := v.x.j.posOf (v.x.j.brd (shardOwner v.x.n v.x.j.nrank e))

/-- The ring partial sum of an element after this position's addition (R324). -/
def XView.partial_ (v : XView) (e : Nat) : Option Word :=
  let j := v.x.j
  if j.nboard ≤ 1 || j.pos == (v.ownerPos e + 1) % j.nboard then v.boardSum e
  else match v.heard 1 (j.rankAt (j.pos + j.nboard - 1) j.member) e, v.boardSum e with
    | some a, some b => some (v.x.comb a b)
    | _, _ => none

/-- The finished value of an element of this member's slice. -/
def XView.finished (v : XView) (e : Nat) : Option Word :=
  let j := v.x.j
  let prev := j.rankAt (j.pos + j.nboard - 1) j.member
  match v.x.c.op with
  | 4 => if j.rank = v.x.root then v.own e
    else if v.x.onRootBoard then v.heard 4 v.x.root e else v.heard 2 prev e
  | 3 => if v.ownerPos e = j.pos then v.own e else v.heard 2 prev e
  | _ => if j.nboard ≤ 1 || v.ownerPos e == j.pos then v.partial_ e else v.heard 2 prev e

/-- The value of an element of the result. -/
def XView.result (v : XView) (e : Nat) : Option Word :=
  let j := v.x.j
  let m := j.mem (shardOwner v.x.n j.nrank e)
  if v.x.c.op == 4 && j.rank == v.x.root then v.own e
  else if m = j.member then v.finished e
  else v.heard 3 (j.board * j.s + m) e

/-- The value of an element in an outgoing stream. -/
def XView.out (v : XView) (stage e : Nat) : Option Word :=
  match stage with
  | 0 => v.own e
  | 1 => v.partial_ e
  | 2 => v.finished e
  | 3 => v.finished e
  | _ => v.own e

/-- The elements of the result this device holds at the end: for ALL_TO_ALL pairs of source rank and element. -/
def Coll.wants (x : Coll) : List Nat :=
  if x.c.op == 2 && !x.probe then shardIx x.n x.j.nrank x.j.rank else List.range x.n

/-- The whole result in order, when it is known (R329). -/
def XView.whole (v : XView) : Option (List Word) :=
  let x := v.x
  let j := x.j
  if x.c.op == 5 then
    ((List.range j.nrank).mapM fun r =>
      let mine := shardIx x.n j.nrank j.rank
      mine.mapM fun e => if r = j.rank then v.own e else v.heard 4 r e).map List.flatten
  else x.wants.mapM v.result

end Sys2Proof.Machine
end

