-- ==== Sys2Proof/Machine/Fabric.lean ====
section
/-! DEFINITION. Routing and sending over the Arvond ports, bells and semaphore updates on their way. -/

namespace Sys2Proof.Machine

/-! ### Routing (R367, R370) -/

def classW : BitVec 2 := 0
def classC : BitVec 2 := 1
def classB : BitVec 2 := 2

def Dev.portActive (d : Dev) (n : Nat) : Bool :=
  if h : n < 32 then d.lnk.ports[n].state == .active else false

/-- The active planes among a plane mask. -/
def Dev.activePlanes (d : Dev) (mask : Nat) : List Nat :=
  (List.range 24).filter fun q => bit mask q && d.portActive (8 + q)

/-- The egress port for a destination that is not this device; none is unreachable (R367). -/
def Dev.route (d : Dev) (fl : Flit) : Option Nat :=
  let own := d.lnk.devId.toNat
  let dst := fl.dst.toNat
  let e := (if dst / 64 = own / 64 then
      (if h : dst % 64 < 64 then d.lnk.rtb[dst % 64] else 0)
    else (d.lnk.rtr.get? (dst / 64)).getD 0).toNat
  let board := decide (dst / 64 = own / 64) && !bit e 1
  if !bit e 0 then none
  else if board then some (bits e 4 2)
  else
    match d.activePlanes (bits e 31 8) with
    | [] => none
    | q :: qs =>
      if fl.cls == classW then some (8 + q)
      else match fl.plane with
        | some p => some (8 + if (q :: qs).contains p then p else q)
        | none =>
          let h := (crc32c (le 2 fl.src.toNat ++ le 2 dst ++ le 2 fl.job.toNat)).toNat
          some (8 + ((q :: qs)[h % (q :: qs).length]?).getD q)

/-- Put a flit into the egress queue of its class (R360). -/
def LPort.enqueue (p : LPort) (fl : Flit) : LPort :=
  if fl.cls == classW then { p with egW := p.egW ++ [fl] }
  else if fl.cls == classC then { p with egC := p.egC ++ [fl] }
  else { p with egB := p.egB ++ [fl] }

/-- Route a flit and queue it; false when there is no route (R367). -/
def Dev.sendFlit (d : Dev) (fl : Flit) : Dev × Bool :=
  match d.route fl with
  | none => (d, false)
  | some n => if h : n < 32 then (d.updPort ⟨n, h⟩ (·.enqueue fl), true) else (d, false)

/-- A flit of this device's own. -/
def Dev.mkFlit (d : Dev) (cls : BitVec 2) (proto : Nat) (job : BitVec 16) (dst : BitVec 15)
    (payload : List Byte) (poison : Bool := false) : Flit :=
  { cls := cls, poison := poison, proto := BitVec.ofNat 8 proto, job := job, dst := dst,
    src := d.lnk.devId, payload := payload }

/-- Send an error response to a requester (R354). -/
def Dev.sendError (d : Dev) (cls : BitVec 2) (job : BitVec 16) (dst : BitVec 15) (tag : BitVec 32) (cause : Nat) :
    Dev :=
  (d.sendFlit (d.mkFlit cls 0x09 job dst (le 4 tag.toNat ++ le 1 cause))).1

/-- A unit takes a flit of its protocol out of the receive buffer that holds it, which frees its credit (R359). -/
def LPort.takeFlit (p : LPort) (f : Flit → Bool) : Option LPort :=
  match p.rx.find? f with
  | none => none
  | some fl =>
    let i := min fl.cls.toNat 2
    some { p with rx := p.rx.erase fl, freed := p.freed.setIfInBounds i ((p.freed.toList[i]?).getD 0 + 1) }

/-- The first port that holds such a flit for this device gives it up. -/
def Dev.consumeIf (d : Dev) (f : Flit → Bool) : Dev :=
  match (List.finRange 32).findSome? fun p => ((d.port p).takeFlit f).map fun x => (p, x) with
  | some (p, x) => d.setPort p x
  | none => d

/-- A flit of a protocol and a job is taken. -/
def Dev.consume (d : Dev) (proto : Byte) (job : BitVec 16) : Dev :=
  d.consumeIf fun fl => fl.proto == proto && fl.job == job

/-- An answer with a tag is taken. -/
def Dev.consumeTag (d : Dev) (proto : Byte) (tag : BitVec 32) : Dev :=
  d.consumeIf fun fl => fl.proto == proto && field fl.payload 0 4 == tag.toNat

def Dev.newTag (d : Dev) (o : Origin) (addr : Word) (bytes : Nat := 0) (store : Bool := false) :
    Dev × BitVec 32 :=
  let t := d.lnk.nextTag
  ({ d with lnk := { d.lnk with
      nextTag := t + 1
      reqs := d.lnk.reqs ++ [{ tag := t, origin := o, addr := addr, bytes := bytes, store := store }] } }, t)

def Dev.dropReq (d : Dev) (t : BitVec 32) : Dev :=
  { d with lnk := { d.lnk with reqs := d.lnk.reqs.filter (·.tag != t) } }

/-! ### Semaphores and bells (R187, R244, R245) -/

def semBase : Nat := 0x0F0006000000
def semCount : Nat := 131072

def Dev.sem (d : Dev) (n : Nat) : Word := (d.mkt.sems.get? n).getD 0

def Dev.setSem (d : Dev) (n : Nat) (v : Word) : Dev :=
  { d with mkt := { d.mkt with sems := d.mkt.sems.putD 0 n v } }

/-- The context that owns a semaphore. -/
def Dev.semOwner (d : Dev) (n : Nat) : Option (BitVec 12) :=
  (d.mkt.ctxs.find? fun c => c.2.state != .free && decide (c.2.semFirst.toNat ≤ n)
    && decide (n < c.2.semFirst.toNat + c.2.semCount.toNat)).map fun c => BitVec.ofNat 12 c.1

/-- Put a semaphore update on its way to cn2. -/
def Dev.pushSem (d : Dev) (u : SemUpd) : Dev := { d with mkt := { d.mkt with semQ := d.mkt.semQ ++ [u] } }

/-- A bell refused under R245: MKT_ERR, the count and the ledger record. -/
def Dev.refuseBell (d : Dev) (addr : Word) (from_ : Nat) : Dev :=
  let d := { d with mkt := { d.mkt with bellRefused := true, refusals := satAdd d.mkt.refusals } }
  d.ledger 0x07 0x02 { addr := addr.toNat, aux0 := from_ }

/-- A bell that reaches this device's semaphores: the update on its way, or the cause of the error
response (R245). -/
def Dev.bellHere (d : Dev) (addr : Word) (value : Word) (add : Bool) (job : BitVec 16) (from_ : Nat)
    (entry : Option (Nat × Nat) := none) : Dev × Option Nat :=
  let pa := addr.toNat % 2 ^ 48
  if semBase ≤ pa ∧ pa < semBase + 8 * semCount then
    let n := (pa - semBase) / 8
    match d.semOwner n with
    | none => (d, some 0x07)
    | some c =>
      if (d.ctx c).job == job then (d.pushSem { sem := n, value := value, add := add, entry := entry }, none)
      else (d.refuseBell addr from_, some 0x07)
  else (d, some 0x07)

/-- A unit of this device adds 1 to a semaphore for a job (DONE_SEM of a collective, RELEASE_SEM of a group); one
that another job's context owns is refused as a bell is (R245). -/
def Dev.addOne (d : Dev) (job : BitVec 16) (n : Nat) : Dev :=
  (d.bellHere (BitVec.ofNat 64 (semBase + 8 * n)) 1 true job d.lnk.devId.toNat).1

/-- The device a fabric address names (R196). -/
def fabDev (addr : Word) : BitVec 15 := BitVec.ofNat 15 (bits addr.toNat 62 48)

/-- Ring a bell (R187, R188): to this device's semaphores, or over the fabric with the request kept until
its answer. The second part is the cause of an error response that comes at once. -/
def Dev.bell (d : Dev) (addr value : Word) (add : Bool) (job : BitVec 16) (o : Origin)
    (entry : Option (Nat × Nat) := none) : Dev × Option Nat :=
  let addr := addr &&& ~~~7#64
  if fabDev addr == d.lnk.devId then d.bellHere addr value add job d.lnk.devId.toNat entry
  else
    let (d1, t) := d.newTag o addr
    let (d2, ok) := d1.sendFlit (d1.mkFlit classC 0x02 job (fabDev addr)
      (le 8 addr.toNat ++ le 8 value.toNat ++ le 1 (b2n add) ++ le 4 t.toNat))
    if ok then (d2, none) else (d2.dropReq t, some 0x08)

/-! ### Exchange packets (R317) -/

def xpktBytes (p : XPkt) : List Byte :=
  [p.kind, p.flags, p.ctrl, p.fmt] ++ le 4 p.step.toNat ++ le 2 p.bucket.toNat ++ le 2 p.srcRank.toNat
    ++ le 4 p.index.toNat ++ p.data ++ zeros (224 - p.data.length)

/-- Send an Exchange packet to a device: control kinds on class W, the rest on class C (R318). -/
def Dev.sendXch (d : Dev) (p : XPkt) (dst : BitVec 15) (plane : Option Nat := none) : Dev :=
  let cls := if 0x10#8 ≤ p.kind then classW else classC
  let fl := d.mkFlit cls 0x01 p.job dst (xpktBytes p) p.poison
  (d.sendFlit { fl with plane := plane }).1

end Sys2Proof.Machine
end

