-- ==== Sys2Proof/Machine/Records.lean ====
section
/-! DEFINITION. Completion records, captures, and the faults of contexts and jobs: the shared operations of
R288–R293, R345 and R431. -/

namespace Sys2Proof.Machine

/-! ### Completion records (R288–R290) -/

inductive Status where
  | ok | badEntry | badRing | notPermitted | noQuota | noFrames | noW128 | cringInUse | ctxInUse | notActive
  | graphAborted | discarded | quiesceTimeout | waitTimeout | translation | hostAbort | queueInUse | noSems
  deriving DecidableEq, Repr

def Status.code : Status → Nat
  | .ok => 0 | .badEntry => 1 | .badRing => 2 | .notPermitted => 3 | .noQuota => 4 | .noFrames => 5
  | .noW128 => 6 | .cringInUse => 7 | .ctxInUse => 8 | .notActive => 9 | .graphAborted => 0xA
  | .discarded => 0xB | .quiesceTimeout => 0xC | .waitTimeout => 0xD | .translation => 0xE
  | .hostAbort => 0xF | .queueInUse => 0x10 | .noSems => 0x11

/-- Statuses that are command faults by themselves (R291). -/
def Status.fails : Status → Bool
  | .badEntry | .badRing | .notPermitted | .translation => true
  | _ => false

/-- Read a word the fetcher or a ring writer uses: physical for ring and queue 0, through the context's
tables for the others (R277). -/
def Dev.hostRing (d : Dev) (c : BitVec 16) (a : Acc6) (va len : Nat) : Dev × Except XErr (List Seg) :=
  if c.toNat < 4096 then
    match d.range unitQueue (c.setWidth 12) a va len with
    | (d, .ok ss) => if ss.any (·.remote.isSome) then (d, .error (remoteErr va ss)) else (d, .ok ss)
    | r => r
  else (d, .ok [{ remote := none, pa := va, len := len }])

def Dev.ringRead (d : Dev) (c : BitVec 16) (va len : Nat) : Dev × Except XErr (List Byte × Bool) :=
  match d.hostRing c .read va len with
  | (d, .error x) => (d, .error x)
  | (d, .ok ss) => (d, .ok ((ss.map fun s => d.read s.pa s.len).flatten, ss.any fun s => d.mem.readPoison s.pa s.len))

def Dev.ringWrite (d : Dev) (c : BitVec 16) (va : Nat) (bs : List Byte) : Dev × Except XErr Unit :=
  match d.hostRing c .write va bs.length with
  | (d, .error x) => (d, .error x)
  | (d, .ok ss) => (d.writeSegs ss bs false, .ok ())

/-- Raise a ring's vector for a record just written, under its moderation (R290, R301). -/
def Dev.ringVector (d : Dev) (r : Nat) : Dev :=
  let cr := d.cring r
  let orphan := decide (cr.ctx.toNat < 4096) && (d.ctx (cr.ctx.setWidth 12)).orphaned
  if cr.vector == 0xFFFF || orphan then d
  else if cr.modUs != 0 && d.hif.agreed.getLsbD 5 then
    if cr.modRunning then d.setCring r { cr with modPending := true }
    else (d.setCring r { cr with modRunning := true }).msix cr.vector.toNat
  else d.msix cr.vector.toNat

/-- The fields of a capture that its event knows (R293). -/
structure CapF where
  queue : Nat := 0
  kind : Nat
  code : Nat := 0
  ringAddr : Nat := 0
  tag : Nat := 0
  entry : List Byte := zeros 64
  frame : Option FrameId := none
  xch : Option (List Byte) := none
  graph : Option Nat := none

def FState.code : FState → Nat
  | .idle => 0 | .running => 1 | .ending => 2 | .faulted => 3 | .saving => 4 | .restoring => 5 | .outOfService => 6

def TyJob.chan : TyJob → Fin 64
  | .init ch _ _ | .data ch _ | .read ch _ | .write ch _ => ch

/-- A move that is not advanced because its channel is still fed by what was issued before it: a move, or an instruction in
the tally unit (R182, R184). -/
def Frame.chanHeld (fr : Frame) (i : Nat) : Bool :=
  match fr.moves[i]? with
  | none => false
  | some m => m.tch.isSome && ((fr.moves.take i).any (fun e => e.tch == m.tch && !e.acked && e.front != e.lines)
      || fr.tyQ.any fun e => some e.job.chan == m.tch && decide (e.stamp < m.stamp))

/-- The first eight moves that are neither acknowledged nor held for their channel are active (R129, R182). -/
def Frame.activeMove (fr : Frame) (i : Nat) : Bool :=
  match fr.moves[i]? with
  | none => false
  | some m => !m.acked && !fr.chanHeld i
    && decide (((List.range i).filter fun k => (fr.moves[k]?.any (!·.acked)) && !fr.chanHeld k).length < 8)

/-- FRM_MOVER: moves queued, moves active and chunks completed (R147). -/
def Frame.moverWord (fr : Frame) : Nat :=
  let q := (fr.moves.filter (!·.acked)).length
  let act := ((List.range fr.moves.length).filter fr.activeMove).length
  q % 128 + act * 2 ^ 8 + fr.chunks.toNat * 2 ^ 16

def Place.addr : Place → Nat
  | .tensor t => t.base | .virt va => va | .host a => a

def FaultRec.addrWord (r : FaultRec) : Nat := r.addr.toNat + b2n r.space * 2 ^ 52

/-- The job a context holds. -/
def Dev.jobOfCtx (d : Dev) (c : BitVec 12) : Option Nat :=
  (List.range 256).find? fun j => (d.job j).state != .free && (d.job j).ctx == c.setWidth 16

/-- The words of a capture (R293); `mv` are the mover's current source and destination, which the manual leaves open. -/
def Dev.capBytes (d : Dev) (c : Option (BitVec 12)) (x : CapF) (mv : Word × Word) : List Byte :=
  let seqB := match x.frame with
    | none => zeros 64
    | some f =>
      let fr := d.frame f
      le 2 f.val ++ le 1 fr.state.code ++ le 1 fr.fault.code.toNat ++ zeros 4 ++ le 8 fr.pc.toNat
        ++ le 8 (fr.taskVa.toNat + b2n fr.taskV * 2 ^ 63) ++ le 8 fr.fault.addrWord ++ le 8 fr.fault.insn.toNat
        ++ zeros 24
  let movB := match x.frame with
    | none => zeros 64
    | some f =>
      let fr := d.frame f
      le 8 fr.moverWord ++ le 8 mv.1.toNat ++ le 8 mv.2.toNat
        ++ ((List.range 4).map fun i => le 4 (fr.regs.ac.toList[i]?.getD 0).toNat).flatten
        ++ ((List.range 4).map fun i => le 4 (fr.regs.mc.toList[i]?.getD 0).toNat).flatten ++ zeros 8
  let xchB := x.xch.getD ((((c.bind d.jobOfCtx).map d.jobSnap)).getD (zeros 64))
  let mktB := match c with
    | none => zeros 64
    | some c =>
      let gs := d.mkt.graphs.filter (·.ctx == c)
      let ts := gs.flatMap (·.tasks)
      let live := (ts.filter (·.state != .discarded)).length
      let cnt (p : TState → Bool) := (ts.filter fun t => p t.state).length
      let g := x.graph.bind d.graph?
      let old := g.bind fun g => g.tasks.findIdx? (·.state == .pending)
      le 4 live ++ le 4 (cnt (· == .offered)) ++ le 4 (cnt (· == .pending)) ++ le 4 (cnt (· == .creditWait))
        ++ le 8 ((g.map fun g => g.tag.toNat).getD 0) ++ le 4 (old.getD 0)
        ++ le 4 ((g.bind fun g => (old.bind fun i => g.tasks[i]?).map (·.ctr)).getD 0) ++ zeros 32
  le 2 x.queue ++ le 1 x.kind ++ le 1 x.code ++ zeros 4 ++ le 8 x.ringAddr ++ le 8 d.waggle ++ le 8 x.tag
    ++ zeros 16 ++ x.entry ++ seqB ++ movB ++ xchB ++ mktB ++ zeros 128

/-- Write a capture unless one is unacknowledged, and raise FAULT on vector 0 (R291 steps 2 and 3, R293).
`none` is the attach fault area of queue 0. The manual gives CODE no value for KIND 4 and 6. -/
def Dev.capture (d : Dev) (c : Option (BitVec 12)) (x : CapF) : Dev :=
  let base := match c with | none => d.hif.faultArea.toNat | some c => (d.ctx c).faultArea.toNat
  let gen := unle (d.read base 8)
  let ack := unle (d.read (base + 8) 8)
  let (d, x) := if x.kind = 4 ∨ x.kind = 6 then
      let (d, r) := d.draw
      (d, { x with code := r.toNat % 256 })
    else (d, x)
  let d := if gen = ack then
      let (d, a) := d.draw
    let (d, b) := d.draw
    let bs := d.capBytes c x (a, b)
      let lost := d.read (base + 0x14) 4
      let d := d.write (base + 0x10) (bs.take 4 ++ lost ++ bs.drop 8)
      d.write base (le 8 (gen + 1))
    else d.write (base + 0x14) (le 4 (unle (d.read (base + 0x14) 4) + 1))
  d.irq 1

/-- The first failing access to a ring since one succeeded (R289). -/
def Dev.ringError (d : Dev) (r q : Nat) (x : XErr) (a : Acc6) : Dev :=
  let cr := d.cring r
  if cr.errSeen then d
  else
    let d := d.setCring r { cr with errSeen := true }
    if cr.ctx.toNat < 4096 then
      let c := cr.ctx.setWidth 12
      (d.memFault c x a 0x8).capture (some c) { kind := 8, code := Status.translation.code, queue := q }
    else d.capture none { kind := 8, code := Status.translation.code, queue := q }

/-- Try to put one record into its ring; false when it must wait (R288, R289). Either access that succeeds ends the errors seen. -/
def Dev.tryRecord (d : Dev) (w : WaitRec) : Dev × Bool :=
  let cr := d.cring w.ring
  if !cr.active then (d, true)
  else
    match d.ringRead cr.ctx cr.headA.toNat 8 with
    | (d, .error x) => (d.ringError w.ring (field w.bytes 0 2) x .read, false)
    | (d, .ok (hb, _)) =>
      let d := d.setCring w.ring { d.cring w.ring with errSeen := false }
      let size := 2 ^ cr.log2
      if size ≤ cr.count - unle hb then (d, false)
      else
        let phase := b2n (decide (cr.count / size % 2 = 0))
        let bs := w.bytes.take 3 ++ le 1 phase ++ w.bytes.drop 4
        match d.ringWrite cr.ctx (cr.ring.toNat + 64 * (cr.count % size)) bs with
        | (d, .error x) => (d.ringError w.ring (field w.bytes 0 2) x .write, false)
        | (d, .ok ()) =>
          let d := d.setCring w.ring { d.cring w.ring with count := cr.count + 1 }
          (if w.irq || cr.irqAll then d.ringVector w.ring else d, true)

/-- A record goes into its ring, or waits behind the earlier records of its context (R289). -/
def Dev.putRecord (d : Dev) (w : WaitRec) : Dev × Bool :=
  if d.hif.waiting.any (·.ctx == w.ctx) then
    ({ d with hif := { d.hif with waiting := d.hif.waiting ++ [w] } }, false)
  else
    match d.tryRecord w with
    | (d, true) => (d, true)
    | (d, false) => ({ d with hif := { d.hif with waiting := d.hif.waiting ++ [w] } }, false)

/-- A context stalled on a full or failing completion ring (R289). -/
def Dev.ringStalled (d : Dev) (c : BitVec 16) : Bool := d.hif.waiting.any (·.ctx == c)

def Entry.type (e : Entry) : Nat := field e.bytes 0 1
def Entry.flags (e : Entry) : Nat := field e.bytes 1 1
def Entry.tag (e : Entry) : Nat := field e.bytes 8 8

def recordBytes (d : Dev) (q type status seq tag : Nat) (i0 i1 i2 : Nat) : List Byte :=
  le 2 q ++ le 1 type ++ le 1 0 ++ le 2 status ++ zeros 2 ++ le 8 seq ++ le 8 tag ++ le 8 d.waggle
    ++ le 8 i0 ++ le 8 i1 ++ le 8 i2 ++ zeros 8

/-- Complete an entry: its record when CREC is set or its status is not OK, and its leaving the queue
(R288). The hold it put on its queue ends. -/
def Dev.complete (d : Dev) (q : Nat) (e : Entry) (st : Status) (i0 i1 i2 : Nat := 0)
    (tag : Option Nat := none) (graph : Option Nat := none) : Dev × Bool :=
  let qr := d.queue q
  let d := d.setQueue q { qr with
    completed := qr.completed + 1
    entries := qr.entries.filter (·.seq != e.seq)
    holder := if qr.holder == some e.seq then none else qr.holder }
  if bit e.flags 0 || st != .ok then
    d.putRecord {
      ring := qr.cring.toNat, ctx := qr.ctx, irq := bit e.flags 1, graph := graph
      bytes := recordBytes d q e.type st.code e.seq (tag.getD e.tag) i0 i1 i2 }
  else (d, true)

def Dev.entry? (d : Dev) (q seq : Nat) : Option Entry := (d.queue q).entries.find? (·.seq == seq)

/-! ### Faults of contexts (R249, R265, R266, R291) -/

/-- A fault of a context: ACTIVE goes to FAULTED, and a save in progress ends in FAULTED (R249, R265). -/
def Dev.faultCtx (d : Dev) (c : BitVec 12) : Dev :=
  d.updCtx c fun x => match x.state with
    | .active => { x with state := .faulted }
    | .saving => { x with saveFault := true }
    | _ => x

def Dev.stopQueue (d : Dev) (q : Nat) : Dev :=
  d.updQueue q fun r => match r.state with
    | .idle | .fetching | .held => if r.admin then r else { r with state := .stopped }
    | _ => r

def QRec.ringAddrOf (r : QRec) (seq : Nat) : Nat := r.ring.toNat + 64 * (seq % 2 ^ r.log2)

/-- A command fault (R291): stop the queue, capture, interrupt. Queue 0 goes on. -/
def Dev.commandFault (d : Dev) (q : Nat) (c : Option (BitVec 12)) (x : CapF) : Dev :=
  let d := if q = 0 then d else d.stopQueue q
  d.capture c { x with queue := q }

/-- An entry that fails (R291): its completion, the fault of its context and the command fault. -/
def Dev.failEntry (d : Dev) (q : Nat) (e : Entry) (st : Status) : Dev :=
  let qr := d.queue q
  let d := (d.complete q e st).1
  let c := if qr.ctx.toNat < 4096 then some (qr.ctx.setWidth 12) else none
  let d := match c with | some c => d.faultCtx c | none => d
  d.commandFault q c {
    kind := 1, code := st.code, ringAddr := qr.ringAddrOf e.seq, entry := e.bytes, graph := e.graph }

/-- A Market fault of a context (R266): `g` is the graph concerned, whose launch entry is captured while it is open (R293), or `q`
its queue when the graph is gone. -/
def Dev.marketFault (d : Dev) (c : BitVec 12) (cause : Nat) (g : Option Nat := none) (tag : Word := 0)
    (q : Option Nat := none) : Dev :=
  let d := (d.updCtx c fun x => { x with mktFault := BitVec.ofNat 7 cause }).faultCtx c
  let gr := g.bind d.graph?
  let e := gr.bind fun g => (d.entry? g.queue g.seq).map fun e => (g.queue, e)
  let f : CapF := {
    kind := 3, code := cause, tag := tag.toNat, graph := gr.map (·.id)
    entry := (e.map (·.2.bytes)).getD (zeros 64), ringAddr := (e.map fun p => (d.queue p.1).ringAddrOf p.2.seq).getD 0 }
  match (gr.map (·.queue)) <|> q with
  | some q => d.commandFault q (some c) f
  | none => d.capture (some c) f

/-! ### Jobs and their faults (R342–R345) -/

def JState.code : JState → Nat
  | .free => 0 | .open => 1 | .committing => 2 | .overdue => 3 | .faulted => 4

def Job.ctl (j : Job) (kind : Nat) (data : List Byte) (step : BitVec 32) (attempt : Nat) (bucket : BitVec 16 := 0) :
    XPkt :=
  { src := 0, job := j.job, poison := false, kind := BitVec.ofNat 8 kind, flags := 0,
    ctrl := BitVec.ofNat 8 attempt, fmt := 0, step := step, bucket := bucket,
    srcRank := BitVec.ofNat 16 j.rank, index := 0, data := data }

/-- Send a control packet to the board peers and the ring neighbours. -/
def Dev.sendPeers (d : Dev) (j : Job) (p : XPkt) : Dev :=
  j.peers.foldl (fun d r => d.sendXch p (j.devOf r)) d

/-- STEP_SEM's value (R343). -/
def Job.stepWord (j : Job) : Word :=
  BitVec.ofNat 64 (j.step.toNat * 4 + j.attempt + b2n (j.state == .faulted) * 2 ^ 63)

def Dev.storeStepSem (d : Dev) (j : Nat) : Dev :=
  let x := d.job j
  d.pushSem { sem := x.stepSem.toNat, value := x.stepWord, add := false }

/-- Complete every fetched collective of some attempts, named by step and attempt, of a job without traffic and free the adder
entries (R315, R342, R345). -/
def Dev.dropBuckets (d : Dev) (j : Nat) (p : BitVec 32 → Nat → Bool) : Dev :=
  let (gone, kept) := d.xch.bkts.partition fun b => b.job == j && p b.step b.attempt
  let d := gone.foldl (fun d b =>
    match b.desc with
    | some c => if b.state == .done then d else d.addOne (d.job j).job c.doneSem.toNat
    | none => d) d
  { d with xch := { d.xch with bkts := kept, sent := d.xch.sent.filter fun s => !(s.job == j && p s.step s.attempt) } }

/-- A commit point of a context is held (R430, R437). -/
def waitsHold (ws : List Held430) (c : BitVec 12) : Bool := ws.any fun w => w.ctx == c && w.begun && !w.tiles.isEmpty

/-- Commit points of a job no longer wait for verdicts. -/
def Dev.dropJobWaits (d : Dev) (j : Nat) (whats : List Commit) : Dev :=
  let c := (d.job j).ctx.setWidth 12
  let ws := d.grd.waits.filter (!whats.contains ·.what)
  ({ d with grd := { d.grd with waits := ws } } : Dev).updCtx c fun x => { x with waiting := waitsHold ws c }

/-- A job faults (R345): JOB_ABORT to the peers once (`origin`: the cause and rank of one that is forwarded), every
collective complete, entries freed, STEP_SEM,
the capture and the fault of its context. `killed` is the capture kind 6 of R344. -/
def Dev.jobFault (d : Dev) (j : Nat) (cause : Nat) (killed : Bool := false) (origin : Option (Nat × Nat) := none) : Dev :=
  let x := d.job j
  if x.state == .free || x.state == .faulted then d
  else
    let d := if x.jobAbortFwd then d
      else let o := origin.getD (cause, x.rank)
        d.sendPeers x (x.ctl 0x12 (le 1 o.1 ++ le 2 o.2) x.step x.attempt)
    let xch := d.jobSnap j
    let d := d.dropBuckets j fun _ _ => true
    let held := (d.xch.heldDesc.get? j).toList ++ (d.xch.commits.get? j).toList
    let d := held.foldl (fun d c => d.addOne x.job c.doneSem.toNat) d
    let d := { d with xch := { d.xch with
      heldDesc := d.xch.heldDesc.del j
      commits := d.xch.commits.del j
      sent := d.xch.sent.filter (·.job != j)
      early := d.xch.early.filter (·.job != x.job) } }
    let d := (d.setJob j { d.job j with state := .faulted, jobAbortFwd := true, killWaits := false }).dropJobWaits j
      [.job j, .nextJob j]
    let d := d.storeStepSem j
    let c := x.ctx.setWidth 12
    if killed then d
    else
      let d := d.faultCtx c
      d.commandFault x.queue.toNat (some c) { kind := 7, code := cause, xch := some xch }

/-- The matrix queue after some of its instructions are discarded: a start that was held for one of them is held no more
(R97, R397). -/
def Frame.keepMma (fr : Frame) (q : List MmaJob) : Frame :=
  { fr with
    mmaQ := q
    ramp := { fr.ramp with startHold := fr.ramp.startHold && (q.any (·.startHold) || (q.any (·.streaming) && !fr.mmaQ.any (·.startHold))) } }

/-- No later instruction of the frame issues, and a matrix instruction that has not begun to stream is discarded (R134). -/
def Frame.halt (fr : Frame) : Frame :=
  { fr.keepMma (fr.mmaQ.filter (·.streaming)) with state := .faulted, held := none }

/-- A fault stops the task of a frame; the frame records the last one when what had issued is over (R134, R144). -/
def Frame.stopWith (fr : Frame) (r : FaultRec) : Frame := { fr.halt with pend := some r }

/-- The frame records the fault that stopped its task (R134, R144). -/
def Frame.recordFault (fr : Frame) : Frame := { fr with fault := fr.pend.getD fr.fault, pend := none }

/-- A tile's verdict frees its buffer space and ends the waits on it. -/
def Dev.dropTile (d : Dev) (id : Nat) : Dev :=
  { d with grd := { d.grd with
    tiles := d.grd.tiles.filter (·.id != id)
    waits := d.grd.waits.map fun w => { w with tiles := w.tiles.filter (· != id) } } }

/-- Tiles of a frame that were cut off while they streamed have no tally and get no verdict. -/
def Dev.dropCut (d : Dev) (f : FrameId) : Dev :=
  ((d.grd.tiles.filter fun t => t.frame == f && t.tally.isNone).map (·.id)).foldl (fun d id => d.dropTile id) d

/-- Clear a frame: sequencer, local store, weights, accumulators and tally channels (R473). The mover goes with the sequencer, and
CHUNKS with it (DESIGN CHOICE, assumption 147). -/
def Dev.clearFrame (d : Dev) (f : FrameId) : Dev :=
  let fr := d.frame f
  let d := ({ d with mem := d.mem.clearRange (lsAddr f 0) (lsAddr f 0x800000) } : Dev).dropCut f
  d.setFrame f {
    geom := fr.geom, ramp := { fr.ramp with level := 0, startHold := false }, svc := fr.svc, stall := fr.stall
    stallV := fr.stallV, guardWork := fr.guardWork, guardRun := fr.guardRun, cycles := fr.cycles
    granted := fr.granted, wantTake := fr.wantTake
    state := if fr.svc.insvc then .idle else .outOfService }

/-- A frame runs, or has been granted, a task of the context. -/
def Dev.ctxBusy (d : Dev) (c : BitVec 12) : Bool :=
  allFrames.any fun f =>
    let fr := d.frame f
    (fr.task.isSome && fr.ctx == c)
      || (match fr.granted with | some t => ((d.graph? t.graph).map (·.ctx)) == some c | none => false)

/-- The last TAKEN task of a context that is being unbound has ended (R254). -/
def Dev.unbindIfOver (d : Dev) (c : BitVec 12) : Dev :=
  if (d.ctx c).unbinding && !d.ctxBusy c then
    d.updCtx c fun x => { x with unbinding := false, bound := false, stall := 0xFFFF }
  else d

/-- A task leaves its frame: the time it took is charged to its context (R248, R252), format flags and
poison pass to the context (R55, R428). A frame of a context being destroyed is cleared (R473). -/
def Dev.endOnFrame (d : Dev) (f : FrameId) : Dev :=
  let fr := d.frame f
  let cyc := cyclesAt d.ns - cyclesAt fr.cycles
  let d := d.updCtx fr.ctx fun c => { c with
    fmtFlags := c.fmtFlags ||| fr.fmtFlags.setWidth 64
    taint := c.taint || fr.poison || fr.chans.toList.any (·.poison)
    frameCycles := c.frameCycles + BitVec.ofNat 64 cyc
    deficit := c.deficit - cyc }
  let d := d.setFrame f { fr.recordFault.keepMma [] with
    task := none, taskV := false, held := none, loads := [], stores := [], vecQ := [], tyQ := []
    moves := [], killing := false, ringing := none
    state := if fr.svc.insvc then .idle else .outOfService }
  let d := if (d.ctx fr.ctx).state == .destroying then d.clearFrame f else d
  d.unbindIfOver fr.ctx

/-- Live tasks are PENDING, CREDIT_WAIT, OFFERED, TAKEN or SAVED (R237). -/
def TState.live : TState → Bool
  | .pending | .creditWait | .offered | .taken | .saved => true
  | _ => false

/-! ### Doorbells (R283) -/

/-- A doorbell of a queue: dropped and counted when the queue is FREE or DESTROYING. -/
def Dev.ringQueue (d : Dev) (q : Nat) : Dev :=
  d.updQueue q fun r => match r.state with
    | .free | .destroying => { r with dbDropped := r.dbDropped + 1 }
    | .idle => { r with rung := true, state := .fetching }
    | _ => { r with rung := true }

/-- A semaphore has a new value: queues whose tail it is are rung (R283). -/
def Dev.storeSem (d : Dev) (n : Nat) (v : Word) : Dev :=
  let tails := (d.hif.queues.filter fun q => q.2.state != .free && q.2.tailSem && q.2.sem.toNat == n).map (·.1)
  tails.foldl (fun d q => d.ringQueue q) (d.setSem n v)

/-! ### Counting and offering (R237–R240) -/

/-- The next offer number of the context (R239). -/
def Dev.offer (d : Dev) (t : TaskRef) : Dev :=
  match d.graph? t.graph with
  | none => d
  | some g =>
    let n := (d.ctx g.ctx).offerSeq
    let d := d.updCtx g.ctx fun c => { c with offerSeq := (n + 1) % 2 ^ 48 }
    d.updTask t fun x => { x with state := .offered, offer := n }

def Dev.credit (d : Dev) (ch : Nat) : Credit := (d.mkt.credits.get? ch).getD {}

def Dev.setCredit (d : Dev) (ch : Nat) (x : Credit) : Dev :=
  { d with mkt := { d.mkt with credits := d.mkt.credits.putD {} ch x } }

/-- Serve the tasks of a credit channel in the order they entered it (R256). -/
def Dev.serveCredit (d : Dev) (ch : Nat) : Nat → Dev
  | 0 => d
  | fuel + 1 =>
    let c := d.credit ch
    match c.waiters with
    | [] => d
    | t :: ts =>
      let need := ((d.task? t).map (·.crdN)).getD 0
      let v := d.sem c.sem.toNat
      if !c.v || decide (v.toNat < need) then d
      else
        let d := (d.setCredit ch { c with waiters := ts }).storeSem c.sem.toNat (v - BitVec.ofNat 64 need)
        (d.offer t).serveCredit ch fuel

def Dev.serveChannel (d : Dev) (ch : Nat) : Dev := d.serveCredit ch (d.credit ch).waiters.length

/-- Drop tasks from the credit channels, from the watchers and from the decrements on their way; a channel whose head is gone
serves the one behind it (R256). -/
def Dev.forgetTasks (d : Dev) (p : TaskRef → Bool) : Dev :=
  let chs := (d.mkt.credits.filter fun c => c.2.waiters.head?.any p).map (·.1)
  let d : Dev := { d with mkt := { d.mkt with
    decs := d.mkt.decs.filter (!p ·.task)
    watchers := d.mkt.watchers.filter fun w => match w.what with | .task x => !p x.task | _ => true
    credits := d.mkt.credits.map fun c => (c.1, { c.2 with waiters := c.2.waiters.filter (!p ·) }) } }
  chs.foldl (fun d ch => d.serveChannel ch) d

/-- Discard the tasks of some graphs that hold no frame (R237). -/
def Dev.discardIdle (d : Dev) (p : Nat → Bool) : Dev :=
  let idle (t : Task) : Task := if t.state.live && t.state != .taken then { t with state := .discarded } else t
  let gs := d.mkt.graphs.map fun g => if p g.id then { g with tasks := g.tasks.map idle } else g
  ({ d with mkt := { d.mkt with graphs := gs } } : Dev).forgetTasks (p ·.graph)

/-- Frames running a task of a graph. -/
def Dev.framesOf (d : Dev) (p : TaskRef → Bool) : List FrameId :=
  allFrames.filter fun f => match (d.frame f).task with | some t => p t | none => false

/-- A frame of an orphaned context that stops holds its COPY where it is, once nothing of it is on its way (R301). -/
def Frame.copyRests (fr : Frame) : Bool :=
  fr.moves.any (·.copy) && fr.moves.all fun m => m.acked || (m.copy && m.rtags.isEmpty && m.wtags.isEmpty)

/-- Work of a frame is over: a task being discarded leaves it (R237, R294), and a frame asked to stop has reached
the boundary and drained (R136). -/
def Dev.settle (d : Dev) (f : FrameId) : Dev :=
  let fr := d.frame f
  if !fr.quiet && !(fr.preempt && (d.ctx fr.ctx).orphanStop && fr.copyRests) then d
  else if fr.killing then
    let d := match fr.task with
      | some t => d.updTask t fun x => { x with state := .discarded, frame := none }
      | none => d
    d.endOnFrame f
  else if fr.preempt && fr.state == .running then d.setFrame f { fr with state := .saving, preempt := false, held := none }
  else d

/-- A take granted and not complete is undone (R296). -/
def Dev.undoGrants (d : Dev) (p : TaskRef → Bool) : Dev :=
  allFrames.foldl (fun d f =>
    match (d.frame f).granted with
    | some t => if p t then
        (d.updTask t fun x => { x with state := .discarded, frame := none }).updFrame f fun fr => { fr with granted := none }
      else d
    | none => d) d

/-- Where a commit point was met: a frame, a queue and its entry's sequence number, or a queue alone. -/
structure KillAt where
  frame : Option FrameId := none
  entry : Option (Nat × Nat) := none
  queue : Option Nat := none

/-- The capture of a commit point that consumes poison (R291, R293). -/
def Dev.killCap (d : Dev) (c : BitVec 12) (at_ : KillAt) : CapF :=
  let t := at_.frame.bind fun f => (d.frame f).task
  let qe := at_.entry <|> (t.bind fun t => (d.graph? t.graph).map fun g => (g.queue, g.seq))
  let qs := (d.hif.queues.filter fun q => q.2.ctx == c.setWidth 16 && q.2.state != .free).map (·.1)
  let q := (at_.queue <|> qe.map (·.1)).getD (qs.headD 0)
  let e := qe.bind fun p => d.entry? p.1 p.2
  { kind := 6, queue := q, frame := at_.frame, graph := t.map (·.graph), tag := ((t.bind d.task?).map (·.tag.toNat)).getD 0
    entry := (e.map (·.bytes)).getD (zeros 64), ringAddr := (e.map fun e => (d.queue q).ringAddrOf e.seq).getD 0 }

/-- A commit point consumes poison (R431); only an ACTIVE context becomes KILLED (R249). `row` is the row of R429, from 1; `addr`
what was touched. -/
def Dev.kill (d : Dev) (c : BitVec 12) (row : Nat) (addr : Nat := 0) (at_ : KillAt := {}) : Dev :=
  let cx := d.ctx c
  let cap := d.killCap c at_
  if cx.state == .free || cx.state == .killed || cx.state == .stateLost || cx.state == .destroying then d
  else
    let d := d.setCtx c { cx with state := if cx.state == .active then .killed else cx.state, waiting := false }
    let mine := (d.mkt.graphs.filter (·.ctx == c)).map (·.id)
    let d := d.discardIdle mine.contains
    let d := d.undoGrants fun t => mine.contains t.graph
    let d := (d.framesOf fun t => mine.contains t.graph).foldl (fun d f =>
      (d.updFrame f fun fr => { fr.halt with
        killing := true, moves := fr.moves.map fun m => if m.copy then { m with acked := true } else m }).settle f) d
    let qs := (d.hif.queues.filter fun q => q.2.ctx == c.setWidth 16 && q.2.state != .free).map (·.1)
    let d := qs.foldl (fun d q => d.stopQueue q) d
    let d := { d with grd := { d.grd with waits := d.grd.waits.filter (·.ctx != c) } }
    let d := d.capture (some c) cap
    let d := d.ledger 0x02 0x01 { ctx := c.toNat, sub := row, addr := addr, job := cx.job.toNat }
    match d.jobOfCtx c with
    | some j => d.jobFault j 0x02 true
    | none => d

end Sys2Proof.Machine
end

