-- ==== Sys2Proof/Machine/Operands.lean ====
section
/-! DEFINITION. Operands of frame instructions: register fields, tensor descriptors and their checks, element
access, the overlap test, and the issue of an instruction. -/

namespace Sys2Proof.Machine

/-! ### Instruction words (R137–R139) -/

def Op.opcode : Op → Nat
  | .nop => 0x00 | .add => 0x01 | .sub => 0x02 | .mul => 0x03 | .andS => 0x04 | .orS => 0x05 | .xorS => 0x06
  | .shl => 0x07 | .shr => 0x08 | .sra => 0x09 | .addi => 0x0A | .andi => 0x0B | .shli => 0x0C | .shri => 0x0D
  | .cmp => 0x0E | .cmpi => 0x0F | .amov => 0x10 | .aadd => 0x11 | .smova => 0x12 | .kand => 0x13 | .kor => 0x14
  | .knot => 0x15 | .b => 0x18 | .bz => 0x19 | .bnz => 0x1A | .bk => 0x1B | .br => 0x1C | .li64 => 0xE0
  | .ai64 => 0xE1 | .mmaF => 0x20 | .mmaH2 => 0x21 | .mmaQ4 => 0x22 | .vadd => 0x40 | .vsub => 0x41
  | .vmul => 0x42 | .vfma => 0x43 | .vmax => 0x44 | .vmin => 0x45 | .vabs => 0x46 | .vneg => 0x47
  | .vcmp => 0x48 | .vsel => 0x49 | .vand => 0x4A | .vor => 0x4B | .vxor => 0x4C | .vshl => 0x4D
  | .vshr => 0x4E | .vexp2 => 0x50 | .vlog2 => 0x51 | .vrcp => 0x52 | .vrsqrt => 0x53 | .vsqrt => 0x54
  | .vexp => 0x55 | .vtanh => 0x56 | .vsigm => 0x57 | .vrsum => 0x58 | .vrmax => 0x59 | .vrmin => 0x5A
  | .cvt => 0x80 | .cvtg => 0x81 | .gadd => 0x82 | .cvtx => 0x83 | .mov => 0x60 | .tld => 0x61 | .tldl => 0x62
  | .tst => 0x63 | .twr => 0x64 | .trd => 0x65 | .taddb => 0x66 | .text => 0x67 | .lds => 0x68 | .sts => 0x69
  | .ldsl => 0x6A | .stsl => 0x6B | .lda => 0x6C | .sta => 0x6D | .tyinit => 0xA0 | .tydata => 0xA1
  | .tyrd => 0xA2 | .tywr => 0xA3 | .waitAc => 0xC0 | .waitMc => 0xC1 | .waitAcr => 0xC2 | .waitMcr => 0xC3
  | .waitAll => 0xC4 | .done => 0xC5 | .bell => 0xC6

/-- The first word of an instruction (R137). -/
def insnWord (op : Op) (x : Insn) : Word :=
  BitVec.ofNat 64 (Op.opcode op * 2 ^ 56 + x.dst.toNat * 2 ^ 50 + x.a.toNat * 2 ^ 44 + x.b.toNat * 2 ^ 38
    + x.c.toNat * 2 ^ 32 + x.mod.toNat)

def Op.twoWord : Op → Bool
  | .li64 | .ai64 => true
  | _ => false

/-- MOD sign-extended (R139). -/
def imm64 (x : Insn) : Word := x.mod.signExtend 64

/-- imm24 = MOD[31:8] sign-extended. -/
def imm24 (x : Insn) : Word := (x.mod.extractLsb' 8 24).signExtend 64

/-! ### Registers (R108) -/

def Regs.getS (r : Regs) (i : BitVec 6) : Word := r.s[i.toNat]'(i.isLt)

def Regs.setS (r : Regs) (i : BitVec 6) (v : Word) : Regs := { r with s := r.s.set i.toNat v i.isLt }

def Regs.getA (r : Regs) (i : BitVec 6) : Word := r.a.toList[i.toNat]?.getD 0

def Regs.setA (r : Regs) (i : BitVec 6) (v : Word) : Regs := { r with a := r.a.setIfInBounds i.toNat v }

def Regs.getT (r : Regs) (i : BitVec 6) : TReg := r.t.toList[i.toNat]?.getD {}

def Regs.setT (r : Regs) (i : BitVec 6) (v : TReg) : Regs := { r with t := r.t.setIfInBounds i.toNat v }

/-- k0 reads as all ones (R108). -/
def Regs.getK (r : Regs) (i : BitVec 6) : BitVec 256 :=
  if i = 0 then BitVec.allOnes 256 else r.k.toList[i.toNat]?.getD 0

/-- Writes to k0 are ignored (R108). -/
def Regs.setK (r : Regs) (i : BitVec 6) (v : BitVec 256) : Regs :=
  if i = 0 then r else { r with k := r.k.setIfInBounds i.toNat v }

/-- A register field the instruction uses must name a register of its class; one it does not use is zero
(R108, R139). -/
def regOk (cls : Option Nat) (i : BitVec 6) : Bool :=
  match cls with | none => i == 0 | some n => decide (i.toNat < n)

def rS : Option Nat := some 64
def rA : Option Nat := some 16
def rT : Option Nat := some 32
def rK : Option Nat := some 8

def fieldsOk (x : Insn) (dst a b c : Option Nat) : Bool :=
  regOk dst x.dst && regOk a x.a && regOk b x.b && regOk c x.c

/-! ### Issue (R104, R135, R141, R150) -/

/-- What an instruction does when it comes to issue. -/
inductive Issue where
  /-- It issues with this effect, and the next word follows. -/
  | next (d : Dev)
  /-- It issues and the program goes on elsewhere. -/
  | jump (d : Dev) (pc : BitVec 52)
  /-- It holds issue. -/
  | hold (d : Dev)
  /-- It consumed poison: the context died at it. -/
  | stop (d : Dev)
  /-- It raises a fault: code, unit, faulting address with its space. -/
  | fault (code unit : Nat) (addr : Option (Nat × Bool))

/-- An instruction: what its word must satisfy (0x01 otherwise), the registers it reads or writes, its unit
number for faults, and its issue. -/
structure Body where
  legal : Insn → Bool
  uses : Insn → List Dest := fun _ => []
  unit : Nat := 0
  act : Dev → FrameId → Insn → Word → Issue

/-- The sequencer may issue: a task runs with its effect list, and no stop is requested (R104, R145, R506). -/
def Frame.mayIssue (fr : Frame) : Bool :=
  fr.state == .running && !fr.preempt && !fr.stepWait && !fr.loads.any (·.dst == .eff)

/-- A register is locked while a load's data, or the result of a VCMP or TYRD, has not landed (R150, R184). -/
def Frame.locked (fr : Frame) (ds : List Dest) : Bool :=
  (fr.loads.any fun l => ds.contains l.dst) || (fr.vecQ.any fun j => j.op == .vcmp && ds.contains (.k j.x.dst))
    || fr.tyQ.any fun e => match e.job with | .read _ dst => ds.contains (.s dst) | _ => false

def Frame.advance (fr : Frame) (pc : BitVec 52) : Frame :=
  { fr with pc := pc, held := none, stepWait := fr.step }

def mkFault (op : Op) (x : Insn) (code unit : Nat) (addr : Option (Nat × Bool)) : FaultRec :=
  { code := BitVec.ofNat 8 code, unit := BitVec.ofNat 4 unit, precise := true, addrV := addr.isSome
    addr := BitVec.ofNat 52 ((addr.map (·.1)).getD 0), space := (addr.map (·.2)).getD false
    insn := insnWord op x }

/-- Try to issue an instruction now (R104–R107, R135, R141, R150). -/
def Dev.tryIssue (d : Dev) (f : FrameId) (op : Op) (x : Insn) (imm : Word) (body : Body) : Dev :=
  let fr := d.frame f
  if !body.legal x then d.setFrame f (fr.stopWith (mkFault op x 0x01 body.unit none))
  else if fr.locked (body.uses x) then d.setFrame f { fr with held := some { op := op, x := x, imm := imm } }
  else match body.act d f x imm with
    | .next d => d.updFrame f fun fr => fr.advance (fr.pc + if Op.twoWord op then 16 else 8)
    | .jump d pc => d.updFrame f fun fr => fr.advance pc
    | .hold d => d.updFrame f fun fr => { fr with held := some { op := op, x := x, imm := imm } }
    | .stop d => d
    | .fault code unit addr => d.updFrame f fun fr => fr.stopWith (mkFault op x code unit addr)

/-- The issue of an instruction as a command: it occurs when the frame may issue and holds nothing. -/
def Dev.issue (d : Dev) (f : FrameId) (op : Op) (x : Insn) (imm : Word) (body : Body) : Dev :=
  let fr := d.frame f
  if d.up && fr.mayIssue && fr.held.isNone then d.tryIssue f op x imm body else d

/-! ### Tensor descriptors (R112–R116) -/

/-- Byte `off` .. `off + n - 1` of a descriptor. -/
def descField (v : BitVec 512) (off n : Nat) : Nat := bits v.toNat (8 * (off + n) - 1) (8 * off)

def sgn64 (v : Nat) : Int := intOf 64 true v

/-- A descriptor taken apart, but for its format code: a reserved code reads as Q8 here. -/
def Tensor.shape (v : BitVec 512) : Tensor :=
  let at_ := descField v 0x31 1
  { base := if bit at_ 3 then descField v 0 8 % 2 ^ 52 else descField v 0 8 % 2 ^ 23
    e0 := descField v 0x08 4, e1 := descField v 0x0C 4, e2 := descField v 0x10 4, e3 := descField v 0x14 4
    s1 := sgn64 (descField v 0x18 8), s2 := sgn64 (descField v 0x20 8), s3 := sgn64 (descField v 0x28 8)
    fmt := (Fmt.ofCode (descField v 0x30 1)).getD .q8
    signed := bit at_ 0, scaled := bit at_ 1, red := bit at_ 2, space := bit at_ 3
    scaleSpace := bit at_ 4
    scale := if bit at_ 4 then descField v 0x38 8 % 2 ^ 52 else descField v 0x38 8 % 2 ^ 23 }

def TReg.shape (t : TReg) : Tensor := Tensor.shape t.desc

/-- The format code is not reserved (R113). -/
def TReg.known (t : TReg) : Bool := (Fmt.ofCode (descField t.desc 0x30 1)).isSome

/-- A descriptor taken apart; a reserved format code gives none. -/
def Tensor.ofDesc (v : BitVec 512) : Option Tensor :=
  (Fmt.ofCode (descField v 0x30 1)).map fun _ => Tensor.shape v

/-- A stride's remainder is taken of its two's-complement value: 2^64 is a multiple of 1, 2, 4 and 8, and
2^64 leaves 1 modulo 3, so 3-byte units need the signed value (R115). -/
def strideOk (v : BitVec 512) : Bool :=
  match Fmt.ofCode (descField v 0x30 1) with
  | some f => [0x18, 0x20, 0x28].all fun o => (sgn64 (descField v o 8)) % (f.unit : Int) == 0
  | none => true

/-- R110 and R115 of one t register: true when it may be consumed. -/
def TReg.ok (t : TReg) (scales : Bool := true) : Bool :=
  t.valid && strideOk t.desc
    && (let v := t.desc
        let at_ := descField v 0x31 1
        let base := descField v 0 8
        let unit := match Fmt.ofCode (descField v 0x30 1) with | some f => f.unit | none => 1
        let scale := descField v 0x38 8
        descField v 0x08 4 != 0 && descField v 0x0C 4 != 0 && descField v 0x10 4 != 0 && descField v 0x14 4 != 0
          && at_ / 32 == 0 && descField v 0x32 6 == 0
          && decide (base < if bit at_ 3 then 2 ^ 52 else 2 ^ 23) && base % unit == 0
          && (!(scales && bit at_ 1) || decide (scale < if bit at_ 4 then 2 ^ 52 else 2 ^ 23)))

/-- The tensor a t register names, with R113 and R114: none is an illegal format. -/
def TReg.tensor (t : TReg) (scales : Bool := true) : Option Tensor :=
  match Tensor.ofDesc t.desc with
  | none => none
  | some x => if scales && x.scaled && !x.fmt.scalable then none else some x

def Tensor.count (t : Tensor) : Nat := t.e0 * t.e1 * t.e2 * t.e3

/-- Bytes of one DIM1 row. -/
def Tensor.rowBytes (t : Tensor) : Nat := ceilDiv (t.e0 * t.fmt.bits) 8

def strideMin (s : Int) (e : Nat) : Int := min 0 (s * ((e : Int) - 1))
def strideMax (s : Int) (e : Nat) : Int := max 0 (s * ((e : Int) - 1))

/-- Lowest byte and the byte after the highest. -/
def Tensor.lo (t : Tensor) : Int := t.base + strideMin t.s1 t.e1 + strideMin t.s2 t.e2 + strideMin t.s3 t.e3
def Tensor.hi (t : Tensor) : Int :=
  t.base + strideMax t.s1 t.e1 + strideMax t.s2 t.e2 + strideMax t.s3 t.e3 + t.rowBytes

/-- Blocks along the reduction dimension, extent of the other, and bytes of the scale array (R116). -/
def Tensor.scaleBlocks (t : Tensor) : Nat := ceilDiv (if t.red then t.e1 else t.e0) 32
def Tensor.otherExt (t : Tensor) : Nat := if t.red then t.e0 else t.e1
def Tensor.scaleBytes (t : Tensor) : Nat := t.scaleBlocks * t.otherExt * t.e2 * t.e3

/-- Address of the scale of an element (R116). -/
def Tensor.scaleAddr (t : Tensor) (d0 d1 d2 d3 : Nat) : Nat :=
  let dr := if t.red then d1 else d0
  let d' := if t.red then d0 else d1
  t.scale + dr / 32 + t.scaleBlocks * (d' + t.otherExt * (d2 + t.e2 * d3))

/-- Bit address of an element, 8 × its byte address and the bit in it (R49, R112). -/
def Tensor.bitAddr (t : Tensor) (d0 d1 d2 d3 : Nat) : Nat :=
  (8 * ((t.base : Int) + d1 * t.s1 + d2 * t.s2 + d3 * t.s3)).toNat + d0 * t.fmt.bits

/-- The indices of walk position `w` (R127). -/
def Tensor.idx (t : Tensor) (w : Nat) : Nat × Nat × Nat × Nat :=
  (w % t.e0, w / t.e0 % t.e1, w / t.e0 / t.e1 % t.e2, w / t.e0 / t.e1 / t.e2)

/-! ### Spans of bytes and the overlap test (R107) -/

/-- The bytes from the lowest to the highest of an operand. -/
structure Span where
  space : Bool
  lo : Int
  hi : Int
  write : Bool
  deriving DecidableEq, Repr

def Tensor.span (t : Tensor) (write : Bool) : Span := { space := t.space, lo := t.lo, hi := t.hi, write := write }

/-- The scale array as an operand, when the tensor is scaled. -/
def Tensor.scaleSpan (t : Tensor) (write : Bool) : List Span :=
  if t.scaled then
    [{ space := t.scaleSpace, lo := t.scale, hi := t.scale + t.scaleBytes, write := write }]
  else []

def Span.clash (a b : Span) : Bool :=
  a.space == b.space && (a.write || b.write) && decide (a.lo < b.hi) && decide (b.lo < a.hi)

def Tensor.spans (t : Tensor) (write : Bool) : List Span := t.span write :: t.scaleSpan write

/-- Memory operands of a matrix instruction: DST takes part with FINAL only (R107). -/
def MmaJob.spans (j : MmaJob) : List Span :=
  j.act.spans false ++ (j.wgt.map (·.spans false)).getD []
    ++ (if j.final then [j.dst.span true] else [])
    ++ (match j.third with
        | some t => if j.mode == 4 || j.mode == 5 then (if j.final then [t.span true] else []) else t.spans false
        | none => [])

def vecWritesThird : Op → Bool
  | .vrmax | .vrmin => true
  | _ => false

def VecJob.spans (j : VecJob) : List Span :=
  (j.dst.map (·.spans true)).getD [] ++ j.a.spans false ++ (j.b.map (·.spans false)).getD []
    ++ (j.c.map (·.spans (vecWritesThird j.op))).getD []

/-- An operand overlaps one of an array, vector or convert instruction in flight and one of the two writes. -/
def Frame.overlaps (fr : Frame) (ss : List Span) : Bool :=
  let fl := (fr.mmaQ.map (·.spans)).flatten ++ (fr.vecQ.map (·.spans)).flatten
  ss.any fun s => fl.any fun t => s.clash t

/-! ### Checks of spans (R121, R122, R124) -/

/-- An LS operand that leaves the LS: the offset that does, and of one below 0 its value modulo 2^52 (DESIGN CHOICE, assumption
146). -/
def lsRange (ss : List Span) : Option Nat :=
  ss.findSome? fun s =>
    if s.space then none
    else if s.lo < 0 then some (s.lo % 2 ^ 52).toNat
    else if 0x800000 < s.hi then some (max s.lo 0x800000).toNat
    else none

/-- The first address of a span outside the grants. -/
def Frame.spanEffect (fr : Frame) (right : Right) (s : Span) : Option Nat :=
  if !s.space then none
  else if s.lo < 0 then some (s.lo % 2 ^ 52).toNat
  else fr.ungranted right s.lo.toNat s.hi.toNat

/-! ### Views: where the bytes of an operand are -/

/-- The pages an operand's bytes lie on: page number to remote device and physical base; LS needs none. -/
structure View where
  f : FrameId
  space : Bool
  pages : SMap (Option (BitVec 15) × Nat) := []
  deriving Repr

def View.pa (v : View) (a : Nat) : Nat :=
  if v.space then ((v.pages.get? (a / 0x10000)).map fun p => p.2 + a % 0x10000).getD 0 else lsAddr v.f a

def View.remote (v : View) (a : Nat) : Option (BitVec 15) :=
  if v.space then (v.pages.get? (a / 0x10000)).bind (·.1) else none

/-- Translate the pages of a virtual range for a frame. -/
def Dev.pages (d : Dev) (f : FrameId) (c : BitVec 12) (a : Acc6) : List Nat → Dev × Except XErr (SMap (Option (BitVec 15) × Nat))
  | [] => (d, .ok [])
  | p :: ps =>
    match d.xlate f.val c (p * 0x10000) a with
    | (d, .error x) => (d, .error x)
    | (d, .ok r) =>
      match d.pages f c a ps with
      | (d, .error x) => (d, .error x)
      | (d, .ok m) => (d, .ok (SMap.put m p r))

def Dev.view (d : Dev) (f : FrameId) (s : Span) (a : Acc6) : Dev × Except XErr View :=
  if !s.space then (d, .ok { f := f, space := false })
  else
    let lo := s.lo.toNat / 0x10000
    let hi := (s.hi.toNat - 1) / 0x10000
    match d.pages f (d.frame f).ctx a ((List.range (hi + 1 - lo)).map (lo + ·)) with
    | (d, .error x) => (d, .error { x with va := max x.va s.lo.toNat })
    | (d, .ok m) => (d, .ok { f := f, space := true, pages := m })

/-- The lowest and highest byte of a span lie in the comb store of the frame's own cluster (R118). -/
def Dev.inOwnComb (d : Dev) (f : FrameId) (s : Span) (a : Acc6) : Dev × Bool :=
  if !s.space then (d, true)
  else
    let one (d : Dev) (va : Nat) : Dev × Bool :=
      match d.xlate f.val (d.frame f).ctx va a with
      | (d, .error _) => (d, false)
      | (d, .ok (r, pa)) => (d, r.isNone && regionOf pa == .comb (clusterOf f))
    let (d, b1) := one d s.lo.toNat
    let (d, b2) := one d (s.hi.toNat - 1)
    (d, b1 && b2)

def Dev.allOwnComb (d : Dev) (f : FrameId) : List (Span × Acc6) → Dev × Bool
  | [] => (d, true)
  | (s, a) :: ss =>
    let (d, b) := d.inOwnComb f s a
    if b then d.allOwnComb f ss else (d, false)

/-! ### Elements -/

/-- The bits [bitAddr, bitAddr + w) of memory. -/
def readBits (m : Memory) (v : View) (ba w : Nat) : Nat :=
  let n := (ba % 8 + w + 7) / 8
  (unle ((List.range n).map fun i => m.byte (v.pa (ba / 8 + i))) >>> (ba % 8)) % 2 ^ w

def bitsPoison (m : Memory) (v : View) (ba w : Nat) : Bool :=
  (List.range ((ba % 8 + w + 7) / 8)).any fun i => m.poisonedAt (v.pa (ba / 8 + i))

/-- What an instruction writes, byte by byte: physical address to value and mask of bits written. -/
abbrev WBuf := SMap (Byte × Byte)

def WBuf.putByte (w : WBuf) (pa : Nat) (v mask : Byte) : WBuf :=
  let (v0, m0) := (SMap.get? w pa).getD (0, 0)
  SMap.put w pa ((v0 &&& ~~~mask) ||| (v &&& mask), m0 ||| mask)

/-- Put `w` bits at a bit address into the buffer. -/
def WBuf.putBits (b : WBuf) (v : View) (ba w val : Nat) : WBuf :=
  let n := (ba % 8 + w + 7) / 8
  let x := val <<< (ba % 8)
  let m := (2 ^ w - 1) <<< (ba % 8)
  (List.range n).foldl (fun b i =>
    WBuf.putByte b (v.pa (ba / 8 + i)) (BitVec.ofNat 8 (x >>> (8 * i))) (BitVec.ofNat 8 (m >>> (8 * i)))) b

/-- Apply a buffer of writes: bits not written keep their contents (R49); a sector or line covered whole with
good data loses its poison, a poisoned write poisons every one it touches (R220, R221). Write-backs of the lines are
stale from then on (R217). -/
def Memory.applyBuf (m : Memory) (b : WBuf) (psn : Bool) : Memory :=
  let m1 := b.foldl (fun m c =>
    if m.isRetired c.1 then m else m.setByte c.1 ((m.byte c.1 &&& ~~~c.2.2) ||| (c.2.1 &&& c.2.2))) m
  let m2 := (b.map fun c => c.1 / gran c.1 * gran c.1).dedup.foldl (fun m g =>
    if psn then m.markGran g true
    else if (List.range (gran g)).all fun i => ((SMap.get? b (g + i)).map (·.2)).getD 0 == 0xFF
      then m.markGran g false
    else m) m1
  if m2.wbacks.isEmpty then m2 else b.foldl (fun m c => m.staleBacks c.1 1) m2

/-- An element as it is read: value, poison, flags. -/
structure Elem where
  v : Num
  poison : Bool
  fl : FmtFlags

/-- Read and decode an element of a tensor with the scale of its block (R44, R51). -/
def Tensor.elem (t : Tensor) (m : Memory) (v sv : View) (d0 d1 d2 d3 : Nat) : Elem :=
  let ba := t.bitAddr d0 d1 d2 d3
  let (x, fl) := t.fmt.decode t.signed (readBits m v ba t.fmt.width)
  let p := bitsPoison m v ba t.fmt.bits
  if t.scaled then
    let sa := t.scaleAddr d0 d1 d2 d3
    let s := (m.byte (sv.pa sa)).toNat
    { v := x.withScale s, poison := p || m.poisonedAt (sv.pa sa), fl := if s = 0xFF then fl ||| flX8Invalid else fl }
  else { v := x, poison := p, fl := fl }

/-- The G32 block at an index of a G32 tensor. -/
def Tensor.gblock (t : Tensor) (m : Memory) (v : View) (d0 d1 d2 d3 : Nat) : GBlock × Bool :=
  let a := t.bitAddr d0 d1 d2 d3 / 8
  (GBlock.ofBytes ((List.range 132).map fun i => m.byte (v.pa (a + i))),
    (List.range 132).any fun i => m.poisonedAt (v.pa (a + i)))

/-- LS view of a frame. -/
def lsView (f : FrameId) : View := { f := f, space := false }

end Sys2Proof.Machine
end

