-- ==== Sys2Proof/Decode.lean ====
section
/-! DEFINITION. The decoder of the command table, of which no row has bits, and the decoder and encoder of frame
instruction words (R137, R138). -/

namespace Sys2Proof

/-- The command a word spells by the table's bits. No row of the table has bits, so no word spells one. -/
def decodeTableWord (_nbits _w : Nat) : Option Instr := none

namespace Machine

/-- The operations of the frame instruction set. -/
def allOps : List Op :=
  [.nop, .add, .sub, .mul, .andS, .orS, .xorS, .shl, .shr, .sra, .addi, .andi, .shli, .shri, .cmp, .cmpi, .amov,
   .aadd, .smova, .kand, .kor, .knot, .b, .bz, .bnz, .bk, .br]
  ++ [.li64, .ai64, .mmaF, .mmaH2, .mmaQ4, .vadd, .vsub, .vmul, .vfma, .vmax, .vmin, .vabs, .vneg, .vcmp, .vsel,
   .vand, .vor, .vxor, .vshl, .vshr, .vexp2, .vlog2, .vrcp, .vrsqrt, .vsqrt, .vexp, .vtanh, .vsigm, .vrsum, .vrmax,
   .vrmin, .cvt, .cvtg, .gadd, .cvtx]
  ++ [.mov, .tld, .tldl, .tst, .twr, .trd, .taddb, .text, .lds, .sts, .ldsl, .stsl, .lda, .sta, .tyinit, .tydata,
   .tyrd, .tywr, .waitAc, .waitMc, .waitAcr, .waitMcr, .waitAll, .done, .bell]

/-- The operation of an opcode; any other code is illegal (R138, R139). -/
def opOfCode (c : Nat) : Option Op := allOps.find? fun op => Op.opcode op == c

/-- Decode the first word of a frame instruction (R137): OP 63:56, DST 55:50, SRCA 49:44, SRCB 43:38,
SRCC 37:32, MOD 31:0. -/
def decodeInsn (w : Word) : Option (Op × Insn) :=
  (opOfCode (w.extractLsb' 56 8).toNat).map fun op =>
    (op, { dst := w.extractLsb' 50 6, a := w.extractLsb' 44 6, b := w.extractLsb' 38 6,
           c := w.extractLsb' 32 6, mod := w.extractLsb' 0 32 })

/-- The command that a frame's sequencer raises for an instruction it fetched: the first word, and the second
word where the form has one (R137, R138). -/
def insnCommand (f : FrameId) (op : Op) (x : Insn) (imm : Word) : Instr :=
  match op with
  | .nop => .nop f x | .add => .add f x | .sub => .sub f x | .mul => .mul f x | .andS => .andS f x
  | .orS => .orS f x | .xorS => .xorS f x | .shl => .shl f x | .shr => .shr f x | .sra => .sra f x
  | .addi => .addi f x | .andi => .andi f x | .shli => .shli f x | .shri => .shri f x | .cmp => .cmp f x
  | .cmpi => .cmpi f x | .amov => .amov f x | .aadd => .aadd f x | .smova => .smova f x | .kand => .kand f x
  | .kor => .kor f x | .knot => .knot f x | .b => .b f x | .bz => .bz f x | .bnz => .bnz f x | .bk => .bk f x
  | .br => .br f x | .li64 => .li64 f x imm | .ai64 => .ai64 f x imm | .mmaF => .mmaF f x | .mmaH2 => .mmaH2 f x
  | .mmaQ4 => .mmaQ4 f x | .vadd => .vadd f x | .vsub => .vsub f x | .vmul => .vmul f x | .vfma => .vfma f x
  | .vmax => .vmax f x | .vmin => .vmin f x | .vabs => .vabs f x | .vneg => .vneg f x | .vcmp => .vcmp f x
  | .vsel => .vsel f x | .vand => .vand f x | .vor => .vor f x | .vxor => .vxor f x | .vshl => .vshl f x
  | .vshr => .vshr f x | .vexp2 => .vexp2 f x | .vlog2 => .vlog2 f x | .vrcp => .vrcp f x | .vrsqrt => .vrsqrt f x
  | .vsqrt => .vsqrt f x | .vexp => .vexp f x | .vtanh => .vtanh f x | .vsigm => .vsigm f x | .vrsum => .vrsum f x
  | .vrmax => .vrmax f x | .vrmin => .vrmin f x | .cvt => .cvt f x | .cvtg => .cvtg f x | .gadd => .gadd f x
  | .cvtx => .cvtx f x | .mov => .mov f x | .tld => .tld f x | .tldl => .tldl f x | .tst => .tst f x
  | .twr => .twr f x | .trd => .trd f x | .taddb => .taddb f x | .text => .text f x | .lds => .lds f x
  | .sts => .sts f x | .ldsl => .ldsl f x | .stsl => .stsl f x | .lda => .lda f x | .sta => .sta f x
  | .tyinit => .tyinit f x | .tydata => .tydata f x | .tyrd => .tyrd f x | .tywr => .tywr f x
  | .waitAc => .waitAc f x | .waitMc => .waitMc f x | .waitAcr => .waitAcr f x | .waitMcr => .waitMcr f x
  | .waitAll => .waitAll f x | .done => .done f x | .bell => .bell f x

end Machine
end Sys2Proof
end

