-- ==== Sys2Proof/Machine/GuardOps.lean ====
section
/-! DEFINITION. Shared operations of guard passes: sampling, the guard buffer, the choice of a guard frame,
verdicts, and the guard wait of commit points (R418–R430). -/

namespace Sys2Proof.Machine

/-- p × 2^24 of R419. -/
def sampleBound (susp rateLog2 : Nat) : Nat :=
  let r := 2 ^ rateLog2
  match susp with
  | 0 => 2 ^ 24 / r
  | 1 => min (2 ^ 21) (2 ^ 26 / r)
  | 2 => min (2 ^ 21) (2 ^ 28 / r)
  | _ => 2 ^ 21

def guardBufBytes : Nat := 0x800000

/-- Guard buffer in use in a cluster. -/
def Dev.guardUse (d : Dev) (cl : Nat) : Nat :=
  ((d.grd.tiles.filter fun t => clusterOf t.frame == cl).map (·.bytes)).sum

def Dev.updTile (d : Dev) (id : Nat) (g : GTile → GTile) : Dev :=
  { d with grd := { d.grd with tiles := d.grd.tiles.map fun t => if t.id == id then g t else t } }

/-- The draw of one tile (R418–R420): is it sampled? -/
def Dev.drawOne (d : Dev) (f : FrameId) : Dev × Bool :=
  let fr := d.frame f
  let hit := d.grd.enable && decide ((Config.guardDraw d.sec.boots f.val fr.svc.draws).toNat
    < sampleBound fr.svc.susp.toNat d.grd.rateLog2.toNat)
  (d.setFrame f { fr with svc := { fr.svc with draws := fr.svc.draws + 1 } }, hit)

/-- Start the record of a sampled tile of an instruction (R422, R423). -/
def Dev.openTile (d : Dev) (f : FrameId) (j : MmaJob) (half : Bool) (bytes : Nat) : Dev × Nat :=
  let fr := d.frame f
  let id := d.grd.nextId
  let d := d.trace 129 f.val fr.ctx.toNat d.grd.seq.toNat
  let pfx := seedPrefix (d.ctx fr.ctx).job.toNat 0 d.lnk.devId.toNat d.grd.seq
  (({ d with grd := { d.grd with
      nextId := id + 1, seq := d.grd.seq + 1, sampled := d.grd.sampled + 1
      tiles := d.grd.tiles ++ [{ id := id, frame := f, ctx := fr.ctx, seq := d.grd.seq, n := j.n, half := half,
                                 bytes := bytes, mirror := { job := j }, pfx := pfx }] } } : Dev).updFrame f fun fr =>
    { fr with svc := { fr.svc with sampled := fr.svc.sampled + 1 } }, id)

/-- Candidates for a guard or referee run (R424): in service, not flagged, wide enough, not excluded here. -/
def Dev.guardCand (d : Dev) (t : GTile) (off : List FrameId) (dies : List Nat) : List FrameId :=
  allFrames.filter fun g =>
    let fr := d.frame g
    fr.svc.insvc && !fr.svc.flagged && !off.contains g && !dies.contains (dieOf g)
      && decide (t.n ≤ (if t.half then 16 else 8) * fr.geom.colgrp)

def Frame.idleNow (fr : Frame) : Bool :=
  fr.state == .idle && fr.granted.isNone && fr.task.isNone && fr.guardRun.isNone && fr.guardWork.isEmpty

/-- The least loaded of some frames, lowest index on a tie. -/
def Dev.leastGuard (d : Dev) : List FrameId → Option FrameId
  | [] => none
  | f :: fs => match d.leastGuard fs with
    | none => some f
    | some g => if (d.frame f).guardWork.length ≤ (d.frame g).guardWork.length then some f else some g

/-- Choose a frame for a run (R424, R425): idle off the dies, least loaded off the dies, then any. -/
def Dev.chooseGuard (d : Dev) (t : GTile) (off : List FrameId) : Option FrameId :=
  let dies := off.map dieOf
  let away := d.guardCand t off dies
  match away.find? fun g => (d.frame g).idleNow with
  | some g => some g
  | none => match d.leastGuard away with
    | some g => some g
    | none =>
      let any := d.guardCand t off []
      match any.find? fun g => (d.frame g).idleNow with
      | some g => some g
      | none => d.leastGuard any

/-- A GUARD ledger record (R434). -/
def Dev.guardRecord (d : Dev) (code : Nat) (t : GTile) (ref : Word := 0) : Dev :=
  let job := (d.ctx t.ctx).job.toNat
  d.ledger 0x03 code {
    job := job, ctx := t.ctx.toNat, unit := 1, index := t.frame.val
    step := ((d.jobOfCtx t.ctx).map fun j => (d.job j).step.toNat).getD 0
    aux0 := ((t.guard.map (·.val)).getD 0) + ((t.referee.map (·.val)).getD 0) * 2 ^ 16
    ta := ((t.tally.map (·.toNat)).getD 0), tb := ((t.guardTally.map (·.toNat)).getD 0), aux1 := ref.toNat }

/-- A tile that gets no verdict for want of a frame (R424). -/
def Dev.unverified (d : Dev) (t : GTile) : Dev :=
  let d := { d with grd := { d.grd with unverified := satAdd d.grd.unverified } }
  (d.guardRecord 0x04 t).dropTile t.id

/-- Give a tile's guard run to a frame, or record the tile as unverified (R424). The choice waits while the control core of
the sampled frame's cluster restarts (R443). -/
def Dev.assignGuard (d : Dev) (id : Nat) : Dev :=
  match d.grd.tiles.find? (·.id == id) with
  | none => d
  | some t =>
    if !d.clusterUp t.frame then d.updTile id fun t => { t with guard := none }
    else
    match d.chooseGuard t [t.frame] with
    | none => d.unverified t
    | some g =>
      (d.updTile id fun t => { t with guard := some g }).updFrame g fun fr =>
        { fr with guardWork := fr.guardWork ++ [id] }

/-- Give the referee run to a third frame (R425); the choice waits as that of the guard frame does (R443). -/
def Dev.assignReferee (d : Dev) (id : Nat) : Dev :=
  match d.grd.tiles.find? (·.id == id) with
  | none => d
  | some t =>
    if !d.clusterUp t.frame then d.updTile id fun t => { t with referee := none }
    else
    match d.chooseGuard t (t.frame :: t.guard.toList) with
    | none => d.unverified t
    | some g =>
      (d.updTile id fun t => { t with referee := some g }).updFrame g fun fr =>
        { fr with guardWork := fr.guardWork ++ [id] }

/-- The tally of a sampled tile is ready: poisoned sums give no verdict (R423). -/
def Dev.closeTile (d : Dev) (id : Nat) (tally : Word) (psn : Bool) : Dev :=
  if psn then
    ({ d with grd := { d.grd with poisonSkip := satAdd d.grd.poisonSkip } }).dropTile id
  else (d.updTile id fun t => { t with tally := some tally }).assignGuard id

/-- The runs whose choice waited for the control core of a cluster are given to frames (R443). -/
def Dev.assignWaiting (d : Dev) (cl : Nat) : Dev :=
  (d.grd.tiles.filter fun t => clusterOf t.frame == cl && t.tally.isSome).foldl (fun d t =>
    if t.guardTally.isNone then (if t.guard.isNone then d.assignGuard t.id else d)
    else if t.referee.isNone then d.assignReferee t.id else d) d

def Dev.taintCtx (d : Dev) (c : BitVec 12) : Dev := d.updCtx c fun x => { x with taint := true }

/-- S of a frame becomes `s`; the tiles passed since it last changed count from there (R421). -/
def Service.setSusp (v : Service) (s : BitVec 2) : Service :=
  { v with susp := s, passed := if v.susp = s then v.passed else 0 }

def Dev.setSusp (d : Dev) (f : FrameId) (s : Nat) : Dev :=
  d.updFrame f fun fr => { fr with svc := fr.svc.setSusp (BitVec.ofNat 2 s) }

/-- A frame is flagged (R421, R426). -/
def Dev.flagFrame (d : Dev) (f : FrameId) : Dev :=
  d.updFrame f fun fr => { fr with svc := { fr.svc.setSusp 3 with flagged := true, lost := satAdd fr.svc.lost } }

/-- One tile of a frame passed (R421). -/
def Dev.tilePassed (d : Dev) (f : FrameId) : Dev :=
  d.updFrame f fun fr =>
    if fr.svc.passed + 1 < 2 ^ 20 then { fr with svc := { fr.svc with passed := fr.svc.passed + 1 } }
    else { fr with svc := { fr.svc with passed := 0, susp := fr.svc.susp - if fr.svc.susp = 0 then 0 else 1 } }

def Dev.mismatch (d : Dev) : Dev := { d with grd := { d.grd with mismatch := satAdd d.grd.mismatch } }

/-- The verdict of R425 once a run's tally is known. -/
def Dev.verdict (d : Dev) (id : Nat) (tally : Word) : Dev :=
  match d.grd.tiles.find? (·.id == id) with
  | none => d
  | some t =>
    let own := t.tally.getD 0
    match t.guardTally with
    | none =>
      if own = tally then (d.tilePassed t.frame).dropTile id
      else (d.updTile id fun t => { t with guardTally := some tally }).assignReferee id
    | some g =>
      let gf := t.guard.getD t.frame
      let rf := t.referee.getD t.frame
      let d := d.mismatch
      if tally = own then ((d.flagFrame gf).guardRecord 0x02 t tally).dropTile id
      else if tally = g then
        (((d.flagFrame t.frame).taintCtx t.ctx).guardRecord 0x01 t tally).dropTile id
      else
        let d := [t.frame, gf, rf].foldl (fun d f => d.setSusp f 3) d
        ((d.taintCtx t.ctx).guardRecord 0x03 t tally).dropTile id

/-- Tiles of a context that await a verdict and are not yet recorded as unverified. -/
def Dev.pendingTiles (d : Dev) (c : BitVec 12) : List Nat :=
  (d.grd.tiles.filter fun t => t.ctx == c && !t.unver).map (·.id)

/-- The tile set of a COMMIT is taken as its descriptor is fetched (R430). -/
def Dev.coverCommit (d : Dev) (c : BitVec 12) (what : Commit) : Dev :=
  let ws := d.grd.waits.filter (·.what != what)
  { d with grd := { d.grd with waits := ws ++ [{ ctx := c, what := what, tiles := d.pendingTiles c, begun := false }] } }

/-- A COMMIT that was held for the next step is that of its job now, with its tile set. -/
def Dev.promoteCommit (d : Dev) (j : Nat) : Dev :=
  let ws := (d.grd.waits.filter (·.what != .job j)).map fun w => if w.what == .nextJob j then { w with what := .job j } else w
  { d with grd := { d.grd with waits := ws } }

/-- The guard wait before a commit point (R430): true when it is over; otherwise the commit point waits for the
tiles sampled before it. -/
def Dev.guardWait (d : Dev) (c : BitVec 12) (what : Commit) : Dev × Bool :=
  match d.grd.waits.find? fun w => w.ctx == c && w.what == what with
  | some w =>
    let rest := d.grd.waits.filter fun v => !(v.ctx == c && v.what == what)
    let ws := if w.tiles.isEmpty then rest else if w.begun then d.grd.waits else rest ++ [{ w with begun := true }]
    let d := { d with grd := { d.grd with waits := ws } }
    (d.updCtx c fun x => { x with waiting := waitsHold ws c }, w.tiles.isEmpty)
  | none =>
    let ts := d.pendingTiles c
    if ts.isEmpty then (d, true)
    else
      (({ d with grd := { d.grd with waits := d.grd.waits ++ [{ ctx := c, what := what, tiles := ts }] } } : Dev).updCtx c
        fun x => { x with waiting := true }, false)

/-! ### Saving a context, and the stop of an orphaned one (R262, R301, R430) -/

/-- Frames that run a task of a context. -/
def Dev.ctxFrames (d : Dev) (c : BitVec 12) : List FrameId :=
  allFrames.filter fun f => (d.frame f).task.isSome && (d.frame f).ctx == c

/-- Frames whose take of a task of a context has been granted and is not complete. -/
def Dev.grantedTo (d : Dev) (c : BitVec 12) : List FrameId :=
  allFrames.filter fun f => match (d.frame f).granted with
    | some t => ((d.graph? t.graph).map (·.ctx)) == some c
    | none => false

/-- A save begins (R262 steps 1 and 2): the header with COMPLETE = 0, and a stop on every frame that runs a TAKEN task, or is
about to (R254). -/
def Dev.beginSave (d : Dev) (c : BitVec 12) : Dev :=
  let cx := d.ctx c
  let fs := ((d.ctxFrames c).filter fun f => (d.frame f).state == .running) ++ d.grantedTo c
  let gen := cx.saveGen + 1
  let serial := (d.sec.serial ++ zeros 8).take 8
  let d := d.write cx.saveArea.toNat (le 8 gen.toNat ++ le 2 c.toNat ++ le 2 fs.length ++ zeros 4
    ++ le 8 d.waggle ++ serial ++ zeros 24 ++ zeros 8 ++ zeros 8128)
  let d := fs.foldl (fun d f => d.updFrame f fun fr => { fr with preempt := true }) d
  d.setCtx c { cx with state := .saving, saveGen := gen, unbinding := false }

/-- The boundary before the instruction that commits: a frame that has issued DONE goes back before it (R301). -/
def Dev.beforeCommit (d : Dev) : Commit → Dev
  | .taskDone f => d.updFrame f fun fr =>
      if fr.state == .ending && fr.moves.all (!·.copy) then { fr with state := .running, pc := fr.pc - 8, ringing := none } else fr
  | _ => d

/-- The context is being saved, saved or not yet restored. -/
def Ctx.stopped (x : Ctx) : Bool := x.state == .saving || x.state == .saved || x.state == .restoring

/-- What a commit point meets: it goes on, it waits for verdicts, or its orphaned context stops first, and then it waits until the
context has been restored (R301, R430). -/
def Dev.commitReady (d : Dev) (c : BitVec 12) (what : Commit) : Dev × Bool :=
  let cx := d.ctx c
  if cx.orphanStop && cx.stopped then (d, false)
  else if cx.orphaned && cx.orphanStop && cx.state == .active then
    let d := (d.beforeCommit what).beginSave c
    ((d.ctxFrames c).foldl (fun d f => d.settle f) d, false)
  else d.guardWait c what

/-- TAINT or the frame's poison flag (R429). -/
def Dev.tainted (d : Dev) (c : BitVec 12) (fr : Frame) : Bool :=
  (d.ctx c).taint || fr.poison || fr.chans.toList.any (·.poison)

end Sys2Proof.Machine
end

