-- ==== Sys2Proof/Machine/MarketOps.lean ====
section
/-! DEFINITION. Shared operations of the Task Market: counting and offering tasks, credits, semaphore updates and
watchers, launching a graph, the end of tasks and graphs, and stopping the work of a queue or a context
(R230–R247, R256, R266, R294). -/

namespace Sys2Proof.Machine

/-! ### Counting and offering (R237–R240) -/

/-- A counter has reached zero (R237, R256). -/
def Dev.release (d : Dev) (t : TaskRef) : Dev :=
  match d.task? t, d.graph? t.graph with
  | some x, some g =>
    if !x.credit then d.offer t
    else
      let c := d.credit x.crdCh
      if !c.v then
        ((d.updTask t fun x => { x with state := .faulted }).trace 2 0xFFFF g.ctx.toNat).marketFault g.ctx 0x04
          (some g.id) x.tag
      else
        (((d.updTask t fun x => { x with state := .creditWait }).trace 4 0xFFFF g.ctx.toNat x.crdCh).setCredit x.crdCh
          { c with waiters := c.waiters ++ [t] }).serveChannel x.crdCh
  | _, _ => d

/-- One decrement of a task's counter (R238); a counter of zero or a task not PENDING is DEP_UNDERFLOW (R266). With `hold` a
counter that reaches zero does not yet release its task. -/
def Dev.decrement (d : Dev) (t : TaskRef) (hold : Bool := false) : Dev :=
  match d.task? t, d.graph? t.graph with
  | some x, some g =>
    if g.aborted || g.destroyed then d
    else if x.state != .pending || x.ctr == 0 then d.marketFault g.ctx 0x01 (some g.id) x.tag
    else
      let d := d.updTask t fun x => { x with ctr := x.ctr - 1 }
      if x.ctr == 1 && !hold then d.release t else d
  | _, _ => d

/-- A decrement reaches its task; one whose graph is complete meets no PENDING task (R238, R266). -/
def Dev.decArrives (d : Dev) (x : Dec) (hold : Bool := false) : Dev :=
  match d.task? x.task with
  | some _ => d.decrement x.task hold
  | none => d.marketFault x.ctx 0x01 none x.tag (some x.queue)

/-- Tasks whose counters reached zero in one cycle are offered in graph-launch order and then by index (R239). -/
def betterRef (a b : TaskRef) : Bool := decide (a.graph < b.graph) || (a.graph == b.graph && decide (a.idx ≤ b.idx))

def Dev.releaseAll (d : Dev) (ts : List TaskRef) : Dev :=
  (ts.mergeSort betterRef).foldl (fun d t =>
    match d.task? t with
    | some x => if x.state == .pending && x.ctr == 0 then d.release t else d
    | none => d) d

/-! ### Watchers and semaphore updates (R245, R246) -/

def watcherCap : Nat := 262144

/-- A watcher's condition holds: its task's counter falls, or its WAIT_SEM entry completes. Tasks are released once every watcher
of the update has fired. -/
def Dev.fireWatcher (d : Dev) (w : Watcher) : Dev :=
  match w.what with
  | .task x => d.decArrives x true
  | .entry q seq =>
    match d.entry? q seq with
    | some e => (d.complete q e .ok).1
    | none => d

/-- Apply one update at cn2 (R187, R245, R246, R256). -/
def Dev.applySem (d : Dev) (u : SemUpd) : Dev :=
  let v := if u.add then d.sem u.sem + u.value else u.value
  let d := d.storeSem u.sem v
  let (hit, kept) := d.mkt.watchers.partition fun w => w.sem == u.sem && decide (w.target ≤ v.toNat)
  let d := hit.foldl (fun d w => d.fireWatcher w) { d with mkt := { d.mkt with watchers := kept } }
  let d := d.releaseAll ((hit.filterMap fun w => match w.what with | .task x => some x.task | _ => none).dedup)
  let chs := (d.mkt.credits.filter fun c => c.2.v && c.2.sem.toNat == u.sem).map (·.1)
  let d := chs.foldl (fun d c => d.serveChannel c) d
  match u.entry with
  | some (q, seq) => match d.entry? q seq with
    | some e => (d.complete q e .ok).1
    | none => d
  | none => d

/-! ### Launch (R230–R234, R507) -/

/-- Table slots a graph holds until it is freed: those of its tasks that are not DISCARDED (R234–R236). -/
def Graph.slots (g : Graph) : Nat := (g.tasks.filter (·.state != .discarded)).length

/-- Live tasks of a context (R248, R270): a complete graph keeps its slots until its record and its bell are out (R235). -/
def Dev.liveOf (d : Dev) (c : BitVec 12) : Nat :=
  ((d.mkt.graphs.filter (·.ctx == c)).map Graph.slots).sum

def Dev.liveAll (d : Dev) : Nat := (d.mkt.graphs.map Graph.slots).sum

/-- What a launch came to. `failed` carries the cause of R266. -/
inductive Launch where
  | started | held | noQuota | failed (cause : Nat)
  deriving DecidableEq, Repr

/-- Read a graph structure; an error response fills the memory fault record, and poison reads as unreadable. -/
def Dev.mktRead (d : Dev) (c : BitVec 12) (va len : Nat) : Dev × Option (List Byte) :=
  match d.readVirt unitMkt c va len with
  | (d, .error x) => (d.memFault c x .read 0xA, none)
  | (d, .ok (bs, p)) => (d, if p then none else some bs)

/-- A task record (R231), with its successor list still to be read: none is BAD_RECORD. -/
def Task.ofRecord (va : Nat) (r : List Byte) (batch : Bool) : Option (Task × Nat × Nat) :=
  let prog := field r 0x00 8
  let eff := field r 0x10 8
  let effN := field r 0x18 1
  let prio := field r 0x19 1
  let flags := field r 0x1A 1
  let dep := field r 0x1C 4
  let si := field r 0x20 4
  let sn := field r 0x24 4
  let ch := field r 0x28 2
  let cn := field r 0x2A 2
  let credit := bit flags 1
  if prio / 8 != 0 || flags / 4 != 0 || field r 0x1B 1 != 0 || field r 0x2C 4 != 0 || field r 0x38 8 != 0
      || effN > 16 || prog % 8 != 0 || eff % 16 != 0 || prog ≥ 2 ^ 52 || eff ≥ 2 ^ 52 || sn > 65535
      || (credit && (ch > 4095 || cn == 0)) || (batch && (dep != 0 || sn != 0)) then none
  else some ({
    va := BitVec.ofNat 52 va, prog := BitVec.ofNat 52 prog, arg := BitVec.ofNat 64 (field r 8 8)
    eff := BitVec.ofNat 52 eff, effN := effN, prio := BitVec.ofNat 3 prio, w128 := bit flags 0, credit := credit
    crdCh := ch, crdN := cn, tag := BitVec.ofNat 64 (field r 0x30 8), ctr := dep }, si, sn)

def Task.records (tasks : Nat) (batch : Bool) (bs : List Byte) (n : Nat) : Option (List (Task × Nat × Nat)) :=
  (List.range n).mapM fun i => Task.ofRecord (tasks + 64 * i) (slice bs (64 * i) 64) batch

/-- Read the successor entries of each task record; the number is a cause of R266. -/
def Dev.readSuccs (d : Dev) (c : BitVec 12) (succ ntask : Nat) : List (Task × Nat × Nat) → Dev × Except Nat (List Task)
  | [] => (d, .ok [])
  | (t, si, sn) :: ts =>
    match (if sn = 0 then (d, some []) else d.mktRead c (succ + 4 * si) (4 * sn)) with
    | (d, none) => (d, .error 0x05)
    | (d, some bs) =>
      let xs := (List.range sn).map fun i => field bs (4 * i) 4
      if xs.any fun x => decide (ntask ≤ x) || decide (2 ^ 16 ≤ x) then (d, .error 0x02)
      else match d.readSuccs c succ ntask ts with
        | (d, .error e) => (d, .error e)
        | (d, .ok r) => (d, .ok ({ t with succ := xs } :: r))

/-- The external-dependence entries: semaphore, task, target; a cause of R266 when one is bad. -/
def Dev.checkExts (d : Dev) (c : BitVec 12) (ntask : Nat) (bs : List Byte) (n : Nat) : Except Nat (List (Nat × Nat × Nat)) :=
  (List.range n).mapM fun i =>
    let e := slice bs (16 * i) 16
    let sem := field e 0 4
    let task := field e 4 2
    if 2 ^ 17 ≤ sem ∨ field e 6 2 ≠ 0 ∨ ntask ≤ task then .error 0x02
    else if d.semOwner sem != some c then .error 0x03
    else .ok (sem, task, field e 8 8)

/-- The fields of a launch: a graph descriptor, or what stands for one in a TASK_BATCH. -/
structure GDesc where
  ntask : Nat
  next : Nat := 0
  tasks : Nat
  succ : Nat := 0
  exts : Nat := 0
  doneSem : Word := 0
  doneVal : Word := 0
  tag : Word := 0
  flags : Nat := 0

/-- A graph descriptor (R230); none is BAD_RECORD. -/
def GDesc.ofBytes (va : Nat) (bs : List Byte) : Option GDesc :=
  let g : GDesc := {
    ntask := field bs 0 4, next := field bs 4 4, tasks := field bs 8 8, succ := field bs 0x10 8, exts := field bs 0x18 8
    doneSem := BitVec.ofNat 64 (field bs 0x20 8), doneVal := BitVec.ofNat 64 (field bs 0x28 8)
    tag := BitVec.ofNat 64 (field bs 0x30 8), flags := field bs 0x38 1 }
  if va % 64 != 0 || g.ntask == 0 || g.ntask > 65536 || g.next > 4096 || g.tasks % 64 != 0 || g.succ % 4 != 0
      || g.tasks ≥ 2 ^ 52 || g.succ ≥ 2 ^ 52 || (g.next != 0 && (g.exts % 16 != 0 || g.exts ≥ 2 ^ 52))
      || (bit g.flags 0 && g.doneSem.getLsbD 63) || g.flags / 4 != 0 || field bs 0x39 7 != 0 then none
  else some g

/-- A decrement of a task of a graph. -/
def Dev.decOf (d : Dev) (t : TaskRef) : Dec :=
  let g := d.graph? t.graph
  { task := t, ctx := (g.map (·.ctx)).getD 0, queue := (g.map (·.queue)).getD 0, tag := ((d.task? t).map (·.tag)).getD 0 }

/-- Register a graph's external dependences in order; one already met decrements at once (R234, R246). -/
def Dev.registerExts (d : Dev) (g : Nat) (es : List (Nat × Nat × Nat)) : Dev :=
  es.foldl (fun d e =>
    let t : TaskRef := { graph := g, idx := e.2.1 }
    if e.2.2 ≤ (d.sem e.1).toNat then d.decrement t
    else { d with mkt := { d.mkt with
      watchers := d.mkt.watchers ++ [{ sem := e.1, target := e.2.2, what := .task (d.decOf t) }] } }) d

/-- Offer the tasks whose counters are zero, in ascending index (R234). -/
def Dev.releaseReady (d : Dev) (g n : Nat) : Dev :=
  (List.range n).foldl (fun d i =>
    match d.task? { graph := g, idx := i } with
    | some x => if x.state == .pending && x.ctr == 0 then d.release { graph := g, idx := i } else d
    | none => d) d

/-- Give a graph its slots and start it. -/
def Dev.addGraph (d : Dev) (c : BitVec 12) (q seq : Nat) (kind : GKind) (g : GDesc) (ts : List Task) : Dev × Nat :=
  let id := d.mkt.nextGraph
  ({ d with mkt := { d.mkt with
      nextGraph := id + 1
      graphs := d.mkt.graphs ++ [{
        id := id, ctx := c, queue := q, seq := seq, kind := kind, tasks := ts, doneSem := g.doneSem
        doneVal := g.doneVal, bell := bit g.flags 0, bellAdd := bit g.flags 1, tag := g.tag }] } }, id)

/-- Launch a graph or a batch as one unit (R234, R507). -/
def Dev.launchDesc (d : Dev) (c : BitVec 12) (q : Nat) (e : Entry) (batch : Bool) (g : GDesc) : Dev × Launch :=
  let max := (d.ctx c).maxTasks.toNat
  if max < g.ntask then (d, .noQuota)
  else if max < d.liveOf c + g.ntask || decide (watcherCap < d.mkt.watchers.length + g.next) then (d, .held)
  else match d.mktRead c g.tasks (64 * g.ntask) with
  | (d, none) => (d, .failed 0x05)
  | (d, some bs) => match Task.records g.tasks batch bs g.ntask with
    | none => (d, .failed 0x02)
    | some rs => match d.readSuccs c g.succ g.ntask rs with
      | (d, .error x) => (d, .failed x)
      | (d, .ok ts) =>
        match (if g.next = 0 then (d, some []) else d.mktRead c g.exts (16 * g.next)) with
        | (d, none) => (d, .failed 0x05)
        | (d, some eb) => match d.checkExts c g.ntask eb g.next with
          | .error x => (d, .failed x)
          | .ok es =>
            let (d, id) := d.addGraph c q e.seq (if batch then .batch else .graph) g ts
            let d := d.updQueue q fun r => { r with entries := r.entries.map fun x =>
              if x.seq == e.seq then { x with state := .running, graph := some id } else x }
            ((d.registerExts id es).releaseReady id g.ntask, .started)

/-- GRAPH_LAUNCH and TASK_BATCH: read the descriptor or take it from the entry. -/
def Dev.launchEntry (d : Dev) (c : BitVec 12) (q : Nat) (e : Entry) (batch : Bool) : Dev × Launch :=
  if batch then
    let g : GDesc := { ntask := field e.bytes 0x18 4, tasks := field e.bytes 0x10 8, tag := BitVec.ofNat 64 e.tag }
    if g.ntask = 0 ∨ 65536 < g.ntask ∨ g.tasks % 64 ≠ 0 ∨ 2 ^ 52 ≤ g.tasks then (d, .failed 0x02) else d.launchDesc c q e true g
  else
    let va := field e.bytes 0x10 8
    if va % 64 ≠ 0 ∨ 2 ^ 52 ≤ va then (d, .failed 0x02)
    else match d.mktRead c va 64 with
      | (d, none) => (d, .failed 0x05)
      | (d, some bs) => match GDesc.ofBytes va bs with
        | none => (d, .failed 0x02)
        | some g => d.launchDesc c q e false g

/-! ### The end of a graph (R235) -/

def Dev.dropGraph (d : Dev) (g : Nat) : Dev :=
  { d with mkt := { d.mkt with graphs := d.mkt.graphs.filter (·.id != g) } }

/-- A graph's completion bell failed (R235, R266). -/
def Dev.bellFailed (d : Dev) (c : BitVec 12) (q : Nat) (tag : Word) (addr : Word) (add : Bool) (cause : Nat) : Dev :=
  let d := d.memFault c { cause := cause, va := addr.toNat, fab := some addr.toNat } (if add then .bellAdd else .bellStore) 0xA
  d.marketFault c 0x06 none tag (some q)

/-- Ring a completed graph's DONE_SEM (R235): to another device it is a commit point (R429 row 3). -/
def Dev.graphBell (d : Dev) (id : Nat) : Dev :=
  match d.graph? id with
  | none => d
  | some g =>
    if !g.bell then d.dropGraph id
    else
    let cx := d.ctx g.ctx
    let far := fabDev g.doneSem != d.lnk.devId
    let (d, ready) := if far then d.commitReady g.ctx (.graph id) else (d, true)
    if !ready then d
    else if far && (d.ctx g.ctx).taint then (d.kill g.ctx 3 (g.doneSem.toNat % 2 ^ 63) { entry := some (g.queue, g.seq) }).dropGraph id
    else
      let d := d.dropGraph id
      match d.bell g.doneSem g.doneVal g.bellAdd cx.job (.graphBell g.ctx g.queue g.tag g.bellAdd) with
      | (d, none) => d
      | (d, some cause) => d.bellFailed g.ctx g.queue g.tag g.doneSem g.bellAdd cause

/-- A graph whose tasks are all DONE completes: its record, then its bell, then its slots are freed (R235). A watcher of it that
has not fired stays until it does (R246). A record that waits holds the bell. `i0` and `i1` are the results of a COPY. -/
def Dev.settleGraph (d : Dev) (id : Nat) (i0 i1 : Nat := 0) : Dev :=
  match d.graph? id with
  | none => d
  | some g =>
    if g.completed || g.aborted || g.destroyed || !(g.tasks.all (·.state == .done)) then d
    else
      let d := d.updGraph id fun g => { g with completed := true }
      let (d, placed) := match d.entry? g.queue g.seq with
        | some e => d.complete g.queue e .ok i0 i1 0 (some g.tag.toNat) (some id)
        | none => (d, true)
      if placed then d.graphBell id
      else d.updGraph id fun g => { g with recWaits := true }

/-- A task is DONE: its successors' decrements set out, and its graph may be complete (R237, R238). -/
def Dev.taskDone (d : Dev) (t : TaskRef) (i0 i1 : Nat := 0) : Dev :=
  match d.task? t with
  | none => d
  | some x =>
    let d := d.updTask t fun x => { x with state := .done, frame := none }
    let next : List Dec := x.succ.map fun i => d.decOf { graph := t.graph, idx := i }
    let d := { d with mkt := { d.mkt with decs := d.mkt.decs ++ next } }
    d.settleGraph t.graph i0 i1

/-- Graph bells that were held by a guard wait try again. -/
def Dev.resumeGraphs (d : Dev) : Dev :=
  let gs := (d.mkt.graphs.filter fun g => g.completed && !g.recWaits).map (·.id)
  gs.foldl (fun d g => d.graphBell g) d

/-- Graphs that were aborted or destroyed and have no task on a frame free their slots. -/
def Dev.reapGraphs (d : Dev) : Dev :=
  { d with mkt := { d.mkt with graphs := d.mkt.graphs.filter fun g =>
      !(g.aborted || g.destroyed) || g.tasks.any (·.state == .taken) } }

/-! ### Stopping the work of a queue or a context (R251, R294, R296) -/

/-- 4 KiB chunks of a move that are not begun, when it stops at the next boundary. -/
def Move.stopAtChunk (m : Move) : Move × Nat :=
  if m.acked then (m, 0)
  else
    let keep := min m.lines (m.begun * 64)
    ({ m with lines := keep, acked := keep == 0 }, ceilDiv m.lines 64 - ceilDiv keep 64)

/-- Stop a frame whose task is to be discarded: instructions and chunks not done (R294 steps 3 and 4). -/
def Dev.haltFrame (d : Dev) (f : FrameId) : Dev × Nat × Nat :=
  let fr := d.frame f
  if fr.killing then (d, 0, 0)
  else
    let ms := fr.moves.map (·.stopAtChunk)
    let mma := fr.mmaQ.filter (·.streaming)
    let n := fr.mmaQ.length - mma.length + (fr.vecQ.length - 1)
    ((d.setFrame f { fr.keepMma mma with
        state := .faulted, held := none, vecQ := fr.vecQ.take 1, tyQ := [], moves := ms.map (·.1)
        killing := true, ringing := none }).settle f, n, (ms.map (·.2)).sum)

/-- Discard the tasks of some graphs, running ones too: tasks, instructions and chunks discarded. -/
def Dev.stopGraphs (d : Dev) (p : Graph → Bool) : Dev × Nat × Nat × Nat :=
  let gs := d.mkt.graphs.filter fun g => p g && !g.completed && !g.aborted && !g.destroyed
  let ids := gs.map (·.id)
  let tasks := ((gs.flatMap (·.tasks)).filter (·.state.live)).length
  let gone := d.mkt.graphs.map fun g => if ids.contains g.id then { g with destroyed := true } else g
  let d := { d with mkt := { d.mkt with graphs := gone } }
  let d := d.discardIdle ids.contains
  let d := d.undoGrants fun t => ids.contains t.graph
  let (d, n, k) := (d.framesOf fun t => ids.contains t.graph).foldl (fun (r : Dev × Nat × Nat) f =>
    let (d, n, k) := r.1.haltFrame f
    (d, r.2.1 + n, r.2.2 + k)) (d, 0, 0)
  (d.reapGraphs, tasks, n, k)

/-- RESUME_CTX aborts the graphs that hold a FAULTED task (R251). -/
def Dev.abortFaulted (d : Dev) (c : BitVec 12) : Dev :=
  let gs := d.mkt.graphs.filter fun g => g.ctx == c && !g.completed && !g.aborted && !g.destroyed
    && g.tasks.any (·.state == .faulted)
  let d := gs.foldl (fun d g =>
    let d := (d.discardIdle (· == g.id)).undoGrants (·.graph == g.id)
    let d := d.updGraph g.id fun g => { g with aborted := true }
    let d := (d.framesOf (·.graph == g.id)).foldl (fun d f => (d.haltFrame f).1) d
    match d.entry? g.queue g.seq with
    | some e => (d.complete g.queue e .graphAborted 0 0 0 (some g.tag.toNat)).1
    | none => d) d
  d.reapGraphs

end Sys2Proof.Machine
end

