-- ==== Sys2Proof/Machine/MemErr.lean ====
section
/-! DEFINITION. Errors of memory as reads meet them: the decode of a DRAM line and of SRAM sectors, retirement, and
row sparing (R197, R212–R226, R421). -/

namespace Sys2Proof.Machine

/-! ### The outer code (R213–R216) -/

def gfDouble (r : Nat) : Nat := if 128 ≤ r then (2 * r) ^^^ 0x11D else 2 * r

/-- Product in the field of R213. -/
def gfMul (a b : Nat) : Nat :=
  (List.range 8).foldl (fun r i => if b.testBit (7 - i) then gfDouble r ^^^ a else gfDouble r) 0

def gfPow (a : Nat) : Nat → Nat
  | 0 => 1
  | n + 1 => gfMul (gfPow a n) a

/-- α^n; the order of α is 255. -/
def gfAlpha (n : Nat) : Nat := gfPow 2 (n % 255)

/-- The locator of a stored symbol: byte b is the coefficient of x^(67 − b), and check k that of x^(3 − k). -/
def symLoc (p : Nat) : Nat := gfAlpha (67 - p)

/-- The syndrome of an error pattern: its values at 1, α, α², α³. -/
def syndrome (es : List (Nat × Nat)) : List Nat :=
  (List.range 4).map fun j => es.foldl (fun r e => r ^^^ gfMul e.2 (gfPow (symLoc e.1) j)) 0

/-- The syndrome that P produces in the check positions (R215). -/
def poisonSyndrome : List Nat := syndrome [(64, 0xA5), (65, 0x5A), (66, 0xA5), (67, 0x5A)]

/-- The one-symbol pattern of a syndrome at a position. -/
def oneError (s : List Nat) (p : Nat) : Option (List (Nat × Nat)) :=
  let e := [(p, s.headD 0)]
  if s.headD 0 != 0 && syndrome e == s then some e else none

/-- The two-symbol pattern of a syndrome at two positions. -/
def twoErrors (s : List Nat) (p q : Nat) : Option (List (Nat × Nat)) :=
  let x := symLoc p
  let y := symLoc q
  let s0 := s.headD 0
  let s1 := (s[1]?).getD 0
  let d := gfMul (s1 ^^^ gfMul s0 y) (gfPow (x ^^^ y) 254)
  let e := [(p, d), (q, s0 ^^^ d)]
  if d != 0 && s0 ^^^ d != 0 && syndrome e == s then some e else none

/-- The error pattern of one or two symbols with a syndrome, if one exists. -/
def errorOf (s : List Nat) : Option (List (Nat × Nat)) :=
  match (List.range 68).findSome? (oneError s) with
  | some e => some e
  | none => (List.range 68).findSome? fun p => (List.range p).findSome? fun q => twoErrors s q p

/-- The word the inner code protects a symbol in: four of data, and the check symbols (R212). -/
def innerWord (p : Nat) : Nat := p / 16

inductive LineRead where
  | good | poisoned | corrected (e : List (Nat × Nat)) | uncorrectable
  deriving DecidableEq, Repr

/-- The controller's decode (R216): `s` is the syndrome of data and stored checks with the fold. -/
def decodeLine (s : List Nat) (uncorr : BitVec 5) : LineRead :=
  if s.all (· == 0) then .good
  else if s == poisonSyndrome then .poisoned
  else match errorOf s with
    | some e => if e.all fun x => uncorr.getLsbD (innerWord x.1) then .corrected e else .uncorrectable
    | none => .uncorrectable

def ScrubObs.errors (o : ScrubObs) : List (Nat × Nat) := o.errs.map fun e => (e.1, e.2.toNat)

def xorLists (a b : List Nat) : List Nat := (List.zip a b).map fun p => p.1 ^^^ p.2

/-- Symbols of a line with an error pattern applied. -/
def applyErrors (bs : List Byte) (es : List (Nat × Nat)) : List Byte :=
  es.foldl (fun bs e => bs.modify e.1 fun b => b ^^^ BitVec.ofNat 8 e.2) bs

/-! ### Retirement and sparing (R225, R226) -/

def Dev.updMErr (d : Dev) (sram : Bool) (i : Nat) (g : MErr → MErr) : Dev :=
  if h : i < 64 then
    if sram then { d with mem := { d.mem with serr := d.mem.serr.set i (g d.mem.serr[i]) } }
    else { d with mem := { d.mem with derr := d.mem.derr.set i (g d.mem.derr[i]) } }
  else d

/-- The retirement table of an address: its number and its size (R225). -/
def retireCap (key : Nat) : Nat := if key < 16 then 512 else 64

/-- A line or sector is uncorrectable (R225): written poisoned, retired if its table has room, recorded. -/
def Dev.uncorrectable (d : Dev) (pa : Nat) (unit index syn : Nat) (code : Nat) : Dev :=
  let key := d.mem.retireKey pa
  let used := (d.mem.retired.filter fun r => r.1 == key.1).length
  let full := decide (retireCap key.1 ≤ used)
  let d := { d with mem := d.mem.markGran pa true }
  let old := d.mem.retired.contains key
  let d := if full || old then d else { d with mem := { d.mem with retired := d.mem.retired ++ [key] } }
  d.ledger 0x01 (if full && !old then 0x04 else code) {
    unit := unit, index := index, addr := pa, syn := syn, aux0 := if full || old then used else used + 1 }

/-- The spare rows of a bank that are in use or being filled. -/
def Memory.sparesUsed (m : Memory) (die bank : Nat) : Nat :=
  ((m.spared ++ m.copying).filter fun r => r.die == die && r.bank == bank).length

/-- The row a line of the DRAM dies lies in: DRAM die, bank and row (R226). -/
def lineRow (l : Nat) : RowCopy :=
  let die := l / 2 ^ 27
  let row := l % 2 ^ 27 / 32
  { die := die, bank := (Config.dramBank die row).toNat, row := row }

/-- The number of the line that holds a DRAM address, among the lines of all DRAM dies. -/
def Memory.dieLine (m : Memory) (pa : Nat) : Nat :=
  let h := m.home pa
  h.2.1 * 2 ^ 27 + h.2.2 / 64

/-- The row of a DRAM address (R226). -/
def Memory.rowOf (m : Memory) (pa : Nat) : RowCopy := lineRow (m.dieLine pa)

/-- Begin to spare a row while its bank has a spare left. -/
def Dev.spareRow (d : Dev) (r : RowCopy) : Dev :=
  if d.mem.copying.contains r || decide (2 ≤ d.mem.sparesUsed r.die r.bank) then d
  else { d with mem := { d.mem with copying := d.mem.copying ++ [r] } }

/-- A line's error came again after its write-back: a hard error (R224, R226). SRAM lines wait for a reset. -/
def Dev.hardLine (d : Dev) (pa : Nat) (uncorr : Bool) : Dev :=
  if dramEnd ≤ pa then
    if d.mem.hardSram.contains (pa / 64) then d
    else { d with mem := { d.mem with hardSram := d.mem.hardSram ++ [pa / 64] } }
  else
    let line := d.mem.dieLine pa
    let r := lineRow line
    let d := if uncorr || d.mem.hard.contains line then d
      else { d with mem := { d.mem with hard := d.mem.hard ++ [line] } }
    let n := (d.mem.hard.filter fun l => lineRow l == r).length
    if uncorr || decide (2 ≤ n) then d.spareRow r else d

/-- Corrected words in a frame's LS count towards its suspicion, once in a patrol period (R421). -/
def Dev.lsCorrected (d : Dev) (f : FrameId) : Dev :=
  let n := (d.frame f).svc.lsCe + 1
  let d := d.updFrame f fun fr => { fr with svc := { fr.svc with lsCe := n } }
  if n = 16 then d.setSusp f (min 3 ((d.frame f).svc.susp.toNat + 1)) else d

/-- The cluster of an SRAM address, and the frame when it is in an LS. -/
def sramUnit (pa : Nat) : Option (Nat × Option FrameId) :=
  match regionOf pa with
  | .ls i => if h : i < 384 then some (i / 6, some ⟨i, h⟩) else none
  | .comb j => some (j, none)
  | _ => none

/-! ### One read of a line (R216, R219, R224, R225) -/

/-- A corrected line or word waits for its write-back (R216, R219). -/
def Dev.pushBack (d : Dev) (pa : Nat) (bs : List Byte) : Dev :=
  { d with mem := { d.mem with wbacks := d.mem.wbacks ++ [{ pa := pa, data := bs }] } }

/-- Bits set in a flag word. -/
def countBits {w : Nat} (b : BitVec w) : Nat := ((List.range w).filter b.getLsbD).length

/-- The fold symbols of a line (R214): F0–F3 at the check positions. -/
def Memory.foldSyms (m : Memory) (pa : Nat) : List Nat :=
  let a := m.foldWord pa
  [bits a 31 24, bits a 23 16, bits a 15 8, bits a 7 0]

/-- The line that a read returns: another of the same comb die, or the one addressed (R214). -/
def Memory.readLine (m : Memory) (line : Nat) (o : ScrubObs) : Nat :=
  match o.other with
  | some l => if l * 64 < dramEnd && (m.home (l * 64)).1 == (m.home (line * 64)).1 then l else line
  | none => line

/-- The syndrome of a line as its controller forms it, with the fold of the line it addressed (R214–R216). -/
def Memory.lineSyndrome (m : Memory) (line : Nat) (o : ScrubObs) : List Nat :=
  let src := m.readLine line o
  let fold := (List.zip (List.range 4) (xorLists (m.foldSyms (src * 64)) (m.foldSyms (line * 64)))).map fun p =>
    (64 + p.1, p.2)
  let s := xorLists (syndrome (ScrubObs.errors o)) (syndrome fold)
  if (m.poison.get? (src * 64 / 32)).getD false then xorLists s poisonSyndrome else s

/-- The DRAM line at a number is read (R212, R216, R225). Memory holds what the line now decodes to. The patrol also writes
back a line with an inner correction, and reads each line it corrected once more (R224). -/
def Dev.dramRead (d : Dev) (line : Nat) (o : ScrubObs) (patrol : Bool) : Dev :=
  let pa := line * 64
  let dd := (d.mem.home pa).2.1
  let s := d.mem.lineSyndrome line o
  let syn := (s.zip [1, 256, 65536, 16777216]).foldl (fun r p => r + p.1 * p.2) 0 + o.uncorr.toNat * 2 ^ 32
  let found := applyErrors (d.read (d.mem.readLine line o * 64) 64 ++ zeros 4) (ScrubObs.errors o)
  let keep (d : Dev) (bs : List Byte) : Dev :=
    if bs == d.read pa 64 then d else { d with mem := d.mem.storeBytes pa bs }
  let hard (d : Dev) (uncorr : Bool) : Dev := if patrol && o.again then d.hardLine pa uncorr else d
  let d := if o.corr == 0 then d
    else d.updMErr false dd fun e => { e with inner := satAdd e.inner (countBits o.corr) }
  match if o.misdir then .uncorrectable else decodeLine s o.uncorr with
  | .good =>
    let d := keep d (found.take 64)
    if patrol && o.corr != 0 then hard (d.pushBack pa (found.take 64)) false else d
  | .poisoned =>
    let d := { d with mem := d.mem.markGran pa true }
    if patrol && o.corr != 0 then hard (d.pushBack pa (found.take 64)) false else d
  | .corrected e =>
    let bs := (applyErrors found e).take 64
    let d := d.updMErr false dd fun x => { x with outer := satAdd x.outer }
    let d := keep { d with mem := d.mem.markGran pa false } bs
    hard (d.pushBack pa bs) false
  | .uncorrectable =>
    let d := d.updMErr false dd fun e => { e with ue := satAdd e.ue }
    hard (d.uncorrectable pa 3 dd syn (if o.misdir then 0x02 else 0x01)) true

/-- A word of an SRAM line with a single-bit error is corrected, counted and written back (R219). -/
def Dev.wordCorrected (d : Dev) (cl : Nat) (f : Option FrameId) (pa : Nat) : Dev :=
  let d := (d.updMErr true cl fun e => { e with inner := satAdd e.inner }).pushBack pa (d.read pa 8)
  match f with
  | some f => d.lsCorrected f
  | none => d

/-- The syndromes found in the words of a sector, in [8i+7:8i] for word i. -/
def ScrubObs.sectorSyn (o : ScrubObs) (i : Nat) : Nat :=
  (o.words.filter fun w => w.1 / 4 == i).foldl (fun r w => r + ((w.2.map (·.toNat)).getD 0) * 256 ^ (w.1 % 4)) 0

/-- The SRAM line at a number is read (R218, R219, R224, R225). A sector reads as poisoned by its poison bit or by a word with
syndrome 0xFF. -/
def Dev.sramRead (d : Dev) (line : Nat) (o : ScrubObs) (patrol : Bool) : Dev :=
  let pa := line * 64
  match sramUnit pa with
  | none => d
  | some (cl, f) =>
    let one := (o.words.filter fun w => w.2.isNone).map (·.1)
    let d := one.foldl (fun d w => d.wordCorrected cl f (pa + 8 * w)) d
    let d := if patrol && o.again then d.hardLine pa false else d
    [0, 1].foldl (fun (d : Dev) i =>
      let a := pa + 32 * i
      let bad := (o.words.filter fun w => w.1 / 4 == i).filterMap (·.2)
      if d.mem.poisonedAt a then d
      else if o.pflip.getLsbD i || bad.contains 0xFF then { d with mem := d.mem.markGran a true }
      else if bad.isEmpty then d
      else (d.updMErr true cl fun e => { e with ue := satAdd e.ue }).uncorrectable a 2 cl (ScrubObs.sectorSyn o i) 0x01) d

/-- A read of a line meets what its memory returns. -/
def Dev.lineRead (d : Dev) (line : Nat) (o : ScrubObs) (patrol : Bool := false) : Dev :=
  if line * 64 < dramEnd then d.dramRead line o patrol else d.sramRead line o patrol

/-- A demand read meets errors in the lines it reads. -/
def Dev.demandRead (d : Dev) (lines : List Nat) (errs : LineErrs) : Dev :=
  (errs.filter fun e => lines.contains e.1).foldl (fun d e => d.lineRead e.1 e.2) d

/-- Lines that hold some bytes. -/
def linesOf (pa len : Nat) : List Nat := (List.range ((pa + len - 1) / 64 - pa / 64 + 1)).map (pa / 64 + ·)

/-- Lines that a write reads first: those of the granules it covers in part (R220). -/
def partLines (pa len : Nat) : List Nat :=
  ((grans pa len).filter fun g => !(decide (pa ≤ g) && decide (g + gran g ≤ pa + len))).map (· / 64)

@[simp] theorem Dev.demandRead_nil (d : Dev) (lines : List Nat) : d.demandRead lines [] = d := rfl

/-! ### Retirement and sparing lists (R225–R227) -/

/-- The line or row that an entry of a retirement and sparing list names lies in the DRAM die it names. -/
def Memory.knows (m : Memory) (e : RepairEntry) : Bool :=
  decide (e.addr + 64 ≤ dramEnd) && (m.home e.addr).2.1 == e.die

/-- One entry of a retirement and sparing list (R225, R226). -/
def Dev.applyRepair (d : Dev) (e : RepairEntry) : Dev :=
  if e.row then
    let r := d.mem.rowOf e.addr
    if d.mem.spared.contains r || decide (2 ≤ d.mem.sparesUsed r.die r.bank) then d
    else { d with mem := { d.mem with spared := d.mem.spared ++ [r] } }
  else
    let k := d.mem.retireKey e.addr
    if d.mem.retired.contains k || decide (retireCap k.1 ≤ (d.mem.retired.filter fun r => r.1 == k.1).length) then d
    else { d with mem := { d.mem with retired := d.mem.retired ++ [k] } }

/-- The entries of a list, each once: one applied before changes nothing again. -/
def Dev.applyRepairs (d : Dev) (es : List RepairEntry) : Dev := es.foldl (fun d e => d.applyRepair e) d

end Sys2Proof.Machine
end

