-- ==== Sys2Proof/Machine/Matrix.lean ====
section
/-! DEFINITION. The matrix instructions, the loading of weight planes and the drain (R64–R80, R155–R164). -/

namespace Sys2Proof.Machine

def Shape.groups : Shape → Nat
  | .f => 1 | .h2 => 2 | .q4 => 4

def Shape.groupRows : Shape → Nat
  | .f => 128 | .h2 => 64 | .q4 => 32

/-- Rows in flight one group may hold (R74). -/
def Shape.maxRows (s : Shape) (half : Bool) : Nat :=
  (match s with | .f => 512 | .h2 => 256 | .q4 => 128) / if half then 2 else 1

/-- Columns of the accumulator file in this mode. -/
def accCols (half : Bool) : Nat := if half then 256 else 128

/-- The accumulator entry of a row and column of a group (R74). -/
def accIdx (s : Shape) (half : Bool) (g m c : Nat) : Nat := g * (65536 / s.groups) + m * accCols half + c

/-- The entries of a group's first rows, as far as the group has rows (R74): instructions that carry START and FINAL
may stream more rows than that, each of which retires before it needs an entry of its own (R76). -/
def inRows (s : Shape) (half : Bool) (g m : Nat) (e : Nat) : Bool :=
  decide (accIdx s half g 0 0 ≤ e) && decide (e < accIdx s half g (min m (s.maxRows half)) 0)

/-- Entries the first `m` rows and `n` columns of a group get a type in (R160). -/
def typeEntries (s : Shape) (half : Bool) (g m n ty : Nat) (r : SMap Nat) : SMap Nat :=
  (List.range (min m (s.maxRows half))).foldl (fun r i =>
    (List.range n).foldl (fun r c => SMap.put r (accIdx s half g i c) ty) r) r

/-- FINAL releases every entry of the rows it writes (R160; the columns beyond N among them, DEDUCED, assumption 107). -/
def freeRows {α : Type} (s : Shape) (half : Bool) (g m : Nat) (r : SMap α) : SMap α :=
  r.filter fun e => !inRows s half g m e.1

/-- The place of a group of a shape among the seven that KEEP tells apart (R161). -/
def weightSlot : Shape → Nat → Nat
  | .f, _ => 0
  | .h2, g => 1 + g
  | .q4, g => 3 + g

/-- Two groups of two shapes have array rows in common. -/
def groupsMeet (s : Shape) (g : Nat) (s' : Shape) (g' : Nat) : Bool :=
  decide (g * s.groupRows < (g' + 1) * s'.groupRows) && decide (g' * s'.groupRows < (g + 1) * s.groupRows)

/-- Shape and group of each place. -/
def slotGroups : List (Shape × Nat) := [(.f, 0), (.h2, 0), (.h2, 1), (.q4, 0), (.q4, 1), (.q4, 2), (.q4, 3)]

/-- A load of a group replaces what any group with rows in common held (R66, R161). -/
def setWeights (v : Vector (Option Kept) 7) (s : Shape) (g : Nat) (k : Option Kept) : Vector (Option Kept) 7 :=
  (v.mapIdx fun i o => match slotGroups[i]? with
    | some p => if groupsMeet s g p.1 p.2 then none else o
    | none => o).setIfInBounds (weightSlot s g) k

def getWeights (v : Vector (Option Kept) 7) (s : Shape) (g : Nat) : Option Kept :=
  (v.toList[weightSlot s g]?).getD none

/-- The cell of a reduction index and a column: active and shadow sets (R64). -/
def cellKey (s : Shape) (g k c : Nat) : Nat := (g * s.groupRows + k) * 256 + c

structure MmaMod where
  mode : Nat
  start : Bool
  final : Bool
  fast : Bool
  merge : Bool
  keep : Bool
  group : Nat
  cbase : Nat

/-- The MOD field of R156. -/
def mmaMod (x : Insn) : MmaMod :=
  let v := x.mod.toNat
  { mode := v % 8, start := bit v 3, final := bit v 4, fast := bit v 5, merge := bit v 6, keep := bit v 7
    group := bits v 9 8, cbase := bits v 31 16 }

/-- The SRCC operand is read or written in these modes (R155). -/
def usesThird (m : MmaMod) : Bool := m.final && decide (2 ≤ m.mode) && decide (m.mode ≤ 5)

def mmaLegal (s : Shape) (x : Insn) : Bool :=
  let m := mmaMod x
  fieldsOk x rT rT (if m.keep then none else rT) (if usesThird m then rT else none)
    && bits x.mod.toNat 15 10 == 0
    && (if m.final then decide (m.mode < 6) else m.mode == 0)
    && (!m.merge || m.mode == 4 || m.mode == 5)
    && decide (m.group < s.groups)

/-- Fault of an instruction as its checks find it, in the order of R141. -/
inductive Check where
  | ok
  | bad (code : Nat) (addr : Option (Nat × Bool))

def Check.then_ (c : Check) (k : Unit → Check) : Check :=
  match c with | .ok => k () | .bad a b => .bad a b

def need (b : Bool) (code : Nat) : Check := if b then .ok else .bad code none

/-- LS range (R124), then effects (R121) of the spans of an instruction. -/
def checkLs (ss : List Span) : Check :=
  match lsRange ss with | some a => .bad 0x05 (some (a, false)) | none => .ok

def checkEff (fr : Frame) (ss : List (Right × Span)) : Check :=
  match ss.findSome? fun s => fr.spanEffect s.1 s.2 with
  | some a => .bad 0x04 (some (a, true))
  | none => .ok

/-- Descriptor checks of an operand of a matrix instruction (R115, R117). -/
def operandOk (t : TReg) (red : Option Bool) (lsOnly : Bool) : Bool :=
  let x := t.shape
  t.ok && x.e2 == 1 && x.e3 == 1 && (!lsOnly || !x.space)
    && (match red with | none => true | some r => x.red == r)

/-- Everything a matrix instruction decides at issue (R155–R161): its job, or the fault, or a hold. An instruction the
unit streams still counts toward the queue's depth of 4 (R105; DESIGN CHOICE, assumption 108). The operands whose effects are
checked are activations, weights, DST and T in that order (DESIGN CHOICE, assumption 136); a DST that is neither read nor written
takes no part in the checks of R118, R121 and R124 (DEDUCED, assumption 137). -/
def mmaIssue (s : Shape) (op : Op) (d : Dev) (f : FrameId) (x : Insn) : Issue :=
  let fr := d.frame f
  let m := mmaMod x
  let tr := fr.regs.getT
  let third := usesThird m
  let idx := m.final && (m.mode == 4 || m.mode == 5)
  let kept := getWeights fr.arr.loadedBy s m.group
  let dT := tr x.dst
  let aT := tr x.a
  let bT := tr x.b
  let cT := tr x.c
  let dX := some dT.shape
  let aX := some aT.shape
  let bX := if m.keep then none else some bT.shape
  let cX := if third then some cT.shape else none
  let aHalf := (aX.map (·.fmt.half)).getD false
  let keepOk := match kept with
    | some k => k.half == (aHalf && k.fmt.half)
    | none => false
  let ext (o : Option Tensor) (p : Tensor → Bool) : Bool := (o.map p).getD true
  let kK := if m.keep then (kept.map (·.k)).getD 0 else (bX.map (·.e1)).getD 0
  let nN := if m.keep then (kept.map (·.n)).getD 0 else (bX.map (·.e0)).getD 0
  let wf := if m.keep then kept.map (·.fmt) else bX.map (·.fmt)
  let wScaled := if m.keep then (kept.map (·.scaled)).getD false else (bX.map (·.scaled)).getD false
  let wSigned := if m.keep then (kept.map (·.signed)).getD false else (bX.map (·.signed)).getD false
  let descs := dT.ok && operandOk dT none false && operandOk aT (some false) true
    && (m.keep || operandOk bT (some true) false) && (!third || operandOk cT none false)
  let exts := ext aX (·.e0 == kK) && (idx || ext dX (·.e0 == nN))
    && ext aX (fun a => ext dX (·.e1 == a.e1) && ext cX (·.e1 == a.e1))
    && (!idx || (ext dX (·.e0 == 1) && ext cX fun c => c.e0 == 1 && c.fmt == .q32 && !c.signed && !c.scaled))
    && (idx || ext cX (·.e0 == nN))
  let c0 := need (!m.keep || keepOk) 0x01 |>.then_ fun _ => need (descs && exts) 0x03
  match c0 with
  | .bad code a => .fault code 1 a
  | .ok =>
    match dX, aX, wf with
    | some dst, some act, some wfmt =>
      let half := act.fmt.half && wfmt.half
      let scaled := act.scaled || wScaled
      let int := act.fmt.isInt && wfmt.isInt && !scaled
      let ty := if int then 2 else 1
      let M := act.e1
      let typed := (!m.final || decide (M ≤ s.maxRows half))
        && (List.range (min M (s.maxRows half))).all fun r => (List.range nN).all fun c =>
          fr.arr.issued.get? (accIdx s half m.group r c) == some ty
      let plainOut (t : Tensor) : Bool := t.fmt != .x8 && t.fmt != .g32
      let scOk (t : Tensor) : Bool := !t.scaled || t.fmt.scalable
      let fmtOk := dT.known && aT.known && (m.keep || bT.known) && (!third || cT.known)
        && act.fmt.arrayOperand && wfmt.arrayOperand && scOk act && ext bX scOk
        && plainOut dst && !dst.scaled && (!third || (cX.map plainOut).getD false) && ext cX scOk
        && !((scaled || (cX.map (·.scaled)).getD false) && dst.fmt.isInt) && (m.start || typed)
      let cols := (if half then 16 else 8) * fr.geom.colgrp
      let aS := act.spans false
      let bS := (bX.map (·.spans false)).getD []
      let dS := if m.final then [dst.span true] else []
      let tS := if third then (match cX with
        | some t => if idx then [t.span true] else t.spans false
        | none => []) else []
      let all := aS ++ bS ++ dS ++ tS
      let c1 := need fmtOk 0x02
        |>.then_ fun _ => need (decide (kK ≤ s.groupRows) && decide (nN ≤ cols)) 0x07
        |>.then_ fun _ => need (m.final || decide (M ≤ s.maxRows half)) 0x08
        |>.then_ fun _ => checkLs all
      match c1 with
      | .bad code a => .fault code 1 a
      | .ok =>
        let readsD := m.final && (m.mode == 1 || m.merge)
        let dAcc := if readsD then Acc6.readWrite else Acc6.write
        let (d, comb) := d.allOwnComb f
          ((aS ++ bS).map (·, Acc6.read) ++ dS.map (·, dAcc)
            ++ tS.map fun t => (t, if idx then (if m.merge then Acc6.readWrite else Acc6.write) else Acc6.read))
        if !comb then .fault 0x03 1 none
        else
          let effs := (aS ++ bS).map (Right.r, ·) ++ dS.map (Right.w, ·)
            ++ (if readsD then dS.map (Right.r, ·) else [])
            ++ (if idx then tS.map (Right.w, ·) else tS.map (Right.r, ·))
            ++ (if idx && m.merge then tS.map (Right.r, ·) else [])
          match checkEff fr effs with
          | .bad code a => .fault code 1 a
          | .ok =>
            if 4 ≤ fr.mmaQ.length || fr.overlaps all then .hold d
            else
              let job : MmaJob := {
                word := insnWord op x, shape := s, group := m.group, mode := BitVec.ofNat 3 m.mode
                start := m.start, final := m.final, fast := m.fast, merge := m.merge, keep := m.keep
                cbase := m.cbase, k := kK, m := M, n := nN, act := act, wgt := bX, wfmt := wfmt
                wsigned := wSigned, dst := dst, third := cX, int := int
                planes := if m.keep then 0 else wfmt.limbs }
              let issued := if m.final then freeRows s half m.group M fr.arr.issued
                else typeEntries s half m.group M nN ty fr.arr.issued
              let nk : Kept := { shape := s, fmt := wfmt, signed := wSigned, half := half, n := nN, k := kK
                                 scaled := wScaled, scales := [] }
              let loadedBy := if m.keep then fr.arr.loadedBy else setWeights fr.arr.loadedBy s m.group (some nk)
              let d := d.trace 128 f.val fr.ctx.toNat job.word.toNat
              .next (d.updFrame f fun fr => { fr with
                mmaQ := fr.mmaQ ++ [job]
                arr := { fr.arr with issued := issued, loadedBy := loadedBy } })
    | _, _, _ => .fault 0x02 1 none

def mmaBody (s : Shape) (op : Op) : Body :=
  { legal := mmaLegal s
    uses := fun x => [.t x.dst, .t x.a] ++ (if (mmaMod x).keep then [] else [.t x.b])
      ++ (if usesThird (mmaMod x) then [.t x.c] else [])
    unit := 1
    act := fun d f x _ => mmaIssue s op d f x }

/-! ### Weights (R66–R68) -/

/-- Read a weight tensor into cells, with its scales (R56, R66). -/
def Dev.readWeights (d : Dev) (f : FrameId) (j : MmaJob) (t : Tensor) :
    Dev × Option (SMap Cell × SMap Byte × FmtFlags) :=
  let (d, v) := d.view f (t.span false) .read
  let (d, sv) := match t.scaleSpan false with
    | s :: _ => d.view f s .read
    | [] => (d, .ok (lsView f))
  match v, sv with
  | .ok v, .ok sv =>
    let step (acc : SMap Cell × FmtFlags) (i : Nat) : SMap Cell × FmtFlags :=
      let k := i / j.n
      let c := i % j.n
      let ba := t.bitAddr c k 0 0
      let (cell, fl) := limbsOf t.fmt t.signed (readBits d.mem v ba t.fmt.width) (bitsPoison d.mem v ba t.fmt.bits)
      let sp := t.scaled && d.mem.poisonedAt (sv.pa (t.scaleAddr c k 0 0))
      (SMap.put acc.1 (cellKey j.shape j.group k c) { cell with poison := cell.poison || sp }, acc.2 ||| fl)
    let (cells, fl) := (List.range (j.k * j.n)).foldl step ([], 0)
    let scales : SMap Byte := if t.scaled then
        (List.range (ceilDiv j.k 32 * j.n)).foldl (fun m i =>
          SMap.put m i (d.mem.byte (sv.pa (t.scaleAddr (i % j.n) (i / j.n * 32) 0 0)))) []
      else []
    (d, some (cells, scales, fl))
  | _, _ => (d, none)

/-- The cells of one row group. -/
def groupCells (s : Shape) (g : Nat) (key : Nat) : Bool :=
  decide (g * s.groupRows * 256 ≤ key) && decide (key < (g + 1) * s.groupRows * 256)

/-- A start from ramp level 0 against the power frame (R397): true when it is held. -/
def Dev.startArray (d : Dev) (f : FrameId) : Dev × Bool :=
  let fr := d.frame f
  let now := d.waggle
  let recent := d.wag.starts.filter fun t => decide (now < t + 1024)
  if 96 < recent.length + 1 then
    (({ d with wag := { d.wag with starts := recent, heldCnt := satAdd d.wag.heldCnt } } : Dev).updFrame f fun fr =>
      { fr with ramp := { fr.ramp with startHold := true } }, true)
  else
    (({ d with wag := { d.wag with starts := recent ++ [now] } } : Dev).setFrame f
      { fr with ramp := { fr.ramp with level := min 1 fr.ramp.cap } }, false)

/-- The limb of an element that a pass uses is not zero (R96); a NaN or an infinity takes part in pass (0,0). -/
def Cell.works (c : Cell) (i : Nat) : Bool := if c.cls == 0 then c.limb i != 0 else i == 0

/-- Some pass of an instruction forms a product of two non-zero limbs (R94, R96). -/
def Dev.hasProduct (d : Dev) (f : FrameId) (j : MmaJob) (cells : SMap Cell) : Bool :=
  let act (k m : Nat) : Cell :=
    (limbsOf j.act.fmt j.act.signed (readBits d.mem (lsView f) (j.act.bitAddr k m 0 0) j.act.fmt.width) false).1
  (passes j.act.fmt j.wfmt j.fast).any fun p => (List.range j.k).any fun k =>
    ((List.range j.m).any fun m => (act k m).works p.1)
    && ((List.range j.n).any fun c => match cells.get? (cellKey j.shape j.group k c) with
      | some w => w.works p.2
      | none => false)

/-- Guard buffer bytes of one tile: its activation rows with their scales, the planes, the record (R422). -/
def tileBytes (j : MmaJob) (rows : Nat) : Nat :=
  rows * (j.act.rowBytes + if j.act.scaled then ceilDiv j.k 32 else 0)
    + j.wfmt.limbs * j.shape.groupRows * 128 * 2 + 64

/-- Update the job of a frame's matrix queue at a position. -/
def Dev.updMma (d : Dev) (f : FrameId) (i : Nat) (g : MmaJob → MmaJob) : Dev :=
  d.updFrame f fun fr => { fr with mmaQ := fr.mmaQ.modify i g }

/-- An instruction of another shape meets rows of the previous shape in flight (R162). -/
def Dev.shapeFault (d : Dev) (f : FrameId) (j : MmaJob) : Dev :=
  d.updFrame f fun fr =>
    fr.stopWith { code := 0x08, unit := 1, precise := true, insn := j.word }

/-- Both operands are of class H (R58, R70). -/
def MmaJob.half (j : MmaJob) : Bool := j.act.fmt.half && j.wfmt.half

/-- The cells an instruction streams against: what it loaded into its group's shadow set, or under KEEP the active
ones (R67, R161). -/
def Array.cellsFor (arr : Array) (j : MmaJob) : SMap Cell :=
  (if j.planes = 0 then arr.active else arr.shadow).filter fun c => groupCells j.shape j.group c.1

/-- The swap from shadow to active set as the first vector passes (R67); the shadow set keeps what it held (DESIGN CHOICE,
assumption 134). -/
def Array.swap (arr : Array) (j : MmaJob) : Array :=
  if j.planes = 0 then { arr with shape := some j.shape }
  else { arr with
    shape := some j.shape
    active := (arr.cellsFor j).foldl (fun m c => SMap.put m c.1 c.2)
      (arr.active.filter fun c => !groupCells j.shape j.group c.1)
    keep := setWeights arr.keep j.shape j.group (getWeights arr.next j.shape j.group) }

/-- Rows of the tile an instruction streams (R418). -/
def MmaJob.tileRows (j : MmaJob) : Nat := min 512 (j.m - j.tile * 512)

/-- The draw of the tile whose first vector would be presented now, made once (R418, R420): is it sampled, and does it have to
wait for room in the guard buffer of its cluster (R422)? -/
def Dev.drawTile (d : Dev) (f : FrameId) (j : MmaJob) : Dev × Bool × Bool :=
  let (d, hit) := if j.drawn then (d, j.hit) else d.drawOne f
  (d, hit, hit && decide (guardBufBytes < d.guardUse (clusterOf f) + tileBytes j j.tileRows))

/-- Open the guard record of a tile that is sampled (R422). -/
def Dev.recordTile (d : Dev) (f : FrameId) (hit : Bool) (j : MmaJob) : Dev × Option Nat :=
  if hit then let (d, id) := d.openTile f j j.half (tileBytes j j.tileRows); (d, some id) else (d, none)

/-- Present the first vector of an instruction (R67, R94, R397, R418, R422): it waits where its first tile finds the guard buffer
full, and where its start from ramp level 0 is held for the power slot; then the weights swap. -/
def Dev.beginStream (d : Dev) (f : FrameId) (i : Nat) (j : MmaJob) : Dev :=
  let (d, hit, full) := d.drawTile f j
  let wait (d : Dev) (buf : Bool) : Dev := d.updMma f i fun j => { j with
    drawn := true, hit := hit, bufHold := buf, startHold := !buf }
  if full then wait d true
  else
    let cells := (d.frame f).arr.cellsFor j
    let ramp := (d.frame f).ramp
    let (d, held) := if ramp.level = 0 && d.hasProduct f j cells then
        (if ramp.startHold then (d, true) else d.startArray f)
      else (d, false)
    if held then wait d false
    else
      let d := d.updFrame f fun fr => { fr with arr := fr.arr.swap j }
      let j := { j with
        streaming := true, drawn := true, hit := hit, bufHold := false, startHold := false, cells := cells
        weights := getWeights (d.frame f).arr.keep j.shape j.group }
      let (d, r) := d.recordTile f hit j
      d.updMma f i fun _ => { j with guardRec := r }

/-- Present the first vector of a later tile of an instruction; false where it waits for room in the guard buffer (R418, R422). -/
def Dev.nextTile (d : Dev) (f : FrameId) (i : Nat) (j : MmaJob) : Dev × Bool :=
  let (d, hit, full) := d.drawTile f j
  let j := { j with drawn := true, hit := hit, bufHold := full }
  if full then (d.updMma f i fun _ => j, false)
  else
    let (d, r) := d.recordTile f hit j
    (d.updMma f i fun _ => { j with guardRec := r }, true)

/-- Two instructions of a group chain (R68): the same shape, columns and half-limb mode, the second in the queue before
the first is done (that it was issued before the first's last vector is taken from this, DESIGN CHOICE, assumption 109). -/
def MmaJob.chains (e j : MmaJob) : Bool := e.shape == j.shape && e.n == j.n && e.half == j.half

/-- May the instruction at a position begin to stream (R68, R162)? Its planes are loaded, none of another shape is
before it, and the one before it in its group streams and chains with it, or there is none. -/
def mayStream (q : List MmaJob) (i : Nat) : Bool :=
  match q[i]? with
  | none => false
  | some j => !j.streaming && !j.bufHold && !j.startHold && j.loaded == j.planes
      && (q.take i).all fun e => e.shape == j.shape && (e.group != j.group || (e.streaming && e.chains j))

/-- Accumulator rows are in flight (R74, R162). -/
def rowsLive (arr : Array) : Bool := !arr.rows.isEmpty

/-- Let every instruction that may begin to stream do so, in queue order; each pass starts at most one. -/
def Dev.pumpMma (d : Dev) (f : FrameId) : Nat → Dev
  | 0 => d
  | n + 1 =>
    let fr := d.frame f
    match (List.range fr.mmaQ.length).find? (mayStream fr.mmaQ) with
    | none => d
    | some i => match fr.mmaQ[i]? with
      | none => d
      | some j =>
        if fr.arr.shape.isSome && fr.arr.shape != some j.shape && rowsLive fr.arr then d.shapeFault f j
        else (d.beginStream f i j).pumpMma f n

/-- The instruction whose next weight plane the bus loads (R66, R67, R162): the first with planes to load whose
group's shadow set is free and whose shape is that of every instruction before it. -/
def nextPlane (q : List MmaJob) : Option Nat :=
  (List.range q.length).find? fun i =>
    match q[i]? with
    | none => false
    | some j => decide (j.loaded < j.planes)
        && (q.take i).all fun e => e.shape == j.shape && (e.group != j.group || e.streaming)

def Dev.loadPlane (d : Dev) (f : FrameId) : Dev :=
  let fr := d.frame f
  match nextPlane fr.mmaQ with
  | none => d
  | some i => match fr.mmaQ[i]? with
    | none => d
    | some j =>
      if fr.arr.shape.isSome && fr.arr.shape != some j.shape && rowsLive fr.arr then d.shapeFault f j
      else if j.loaded + 1 < j.planes then d.updMma f i fun j => { j with loaded := j.loaded + 1 }
      else match j.wgt with
        | none => d
        | some t => match d.readWeights f j t with
          | (d, none) => d
          | (d, some (cells, scales, fl)) =>
            let d := d.updFrame f fun fr => { (fr.raiseFlags fl) with
              arr := { fr.arr with
                shadow := cells.foldl (fun m c => SMap.put m c.1 c.2)
                  (fr.arr.shadow.filter fun c => !groupCells j.shape j.group c.1)
                next := setWeights fr.arr.next j.shape j.group (some {
                  shape := j.shape, fmt := j.wfmt, signed := j.wsigned, half := j.half
                  n := j.n, k := j.k, scaled := t.scaled, scales := scales }) } }
            (d.updMma f i fun j => { j with loaded := j.planes }).pumpMma f 8

/-! ### The drain (R59, R75–R79) -/

/-- A value with the flags its forming set. -/
structure VF where
  v : Num
  fl : FmtFlags := 0

/-- F40 sum of two values with its flags (R50). -/
def add40 (a b : Num) : VF :=
  let s := a.add b
  let (r, fl) := rne40 s
  { v := r, fl := fl ||| (if s.isNan && !a.isNan && !b.isNan then flNanGen else 0) }

/-- Column sum of one pass over rows lo .. hi − 1, ascending (R59). -/
def colSum (acts ws : List Cell) (i j : Nat) : VF :=
  (List.zip acts ws).foldl (fun t c =>
    let p := limbProduct c.1 c.2 i j
    let gen := if p.isNan && c.1.cls != 2 && c.2.cls != 2 then flNanGen else 0
    let r := add40 t.v p
    { v := r.v, fl := t.fl ||| r.fl ||| gen }) { v := Num.zero }

/-- The tile sum of one element (R59): passes in order, blocks of 32 rows when scaled. `xa` and `xw` are the
block scales. A block with scale 0xFF sets X8_INVALID (R45) and neither NAN_IN nor NAN_GEN for the NaN it makes
(DESIGN CHOICE, assumption 110). -/
def tileSum (acts ws : List Cell) (ps : List (Nat × Nat)) (scaled : Bool) (xa xw : Nat → Nat) : VF :=
  let n := acts.length
  let bs := if scaled then 32 else max n 1
  let blocks := if scaled then ceilDiv n 32 else 1
  ps.foldl (fun t p =>
    (List.range blocks).foldl (fun t g =>
      let c := colSum (slice acts (g * bs) bs) (slice ws (g * bs) bs) p.1 p.2
      let w := c.v.scale (-(8 * ((p.1 : Int) + p.2)))
      let w := if scaled then (if xa g = 0xFF ∨ xw g = 0xFF then Num.nan else w.scale (x8Exp (xa g) + x8Exp (xw g)))
        else w
      let bad := if scaled && (xa g == 0xFF || xw g == 0xFF) then flX8Invalid else 0
      let r := add40 t.v w
      { v := r.v, fl := t.fl ||| c.fl ||| r.fl ||| bad }) t) { v := Num.zero }
where
  slice (l : List Cell) (o n : Nat) : List Cell := (l.drop o).take n

/-- Saturate to 64-bit two's complement (R33). -/
def sat64 (v : Int) : Int × FmtFlags :=
  if 2 ^ 63 - 1 < v then (2 ^ 63 - 1, flIntSat) else if v < -(2 ^ 63) then (-(2 ^ 63), flIntSat) else (v, 0)

def word64 (v : Int) : Word := BitVec.ofInt 64 v

/-- The container of a value in the accumulator file (R74). -/
def container (int : Bool) (x : Num) : Word :=
  if int then (match x with | .fin s m e => word64 (finAt s m e (min e 0) / 2 ^ (-(min e 0)).toNat) | _ => 0)
  else BitVec.ofNat 64 (Fmt.f40.encode false x).1

def accNum (int : Bool) (w : Word) : Num :=
  if int then Num.ofInt w.toInt else (Fmt.f40.decode false w.toNat).1

/-- Value of an integer-valued number. -/
def Num.toInt : Num → Int
  | .fin s m e => finAt s m e (min e 0) / 2 ^ (-(min e 0)).toNat
  | _ => 0

/-- The finishing operation of D5 (R75, R77): `o` is the operand, `oInt` that it is an integer. The accumulator is none of the
instruction's operands: a NaN in it sets NAN_IN neither here nor in D3 (DEDUCED, assumption 133). -/
def finish (mul int oInt : Bool) (acc o : Num) : VF :=
  if int && oInt then
    let (v, fl) := sat64 (if mul then acc.toInt * o.toInt else acc.toInt + o.toInt)
    { v := Num.ofInt v, fl := fl }
  else
    let a := if int then (rne40 acc).1 else acc
    let e := if mul then a.mul o else a.add o
    let (r, fl) := rne40 e
    { v := r, fl := fl ||| (if o.isNan then flNanIn else if e.isNan && !a.isNan then flNanGen else 0) }

/-- Does candidate (v, i) beat the winner (w, k) (R78)? -/
def beats (isMax : Bool) (v : Num) (i : Nat) (w : Num) (k : Nat) : Bool :=
  if v.isNan then !w.isNan || decide (i < k)
  else if w.isNan then false
  else if (if isMax then w.lt v else v.lt w) then true
  else v.eq w && decide (i < k)

/-- One element of the result on its way through the drain. -/
structure RowOut where
  buf : WBuf := []
  acc : SMap Acc
  fl : FmtFlags := 0
  psn : Bool := false
  anyPsn : Bool := false
  bad : List Nat := []

/-- Cells of an activation row. -/
def actRow (m : Memory) (v : View) (t : Tensor) (k row : Nat) : List Cell × FmtFlags :=
  let cs := (List.range k).map fun i =>
    let ba := t.bitAddr i row 0 0
    limbsOf t.fmt t.signed (readBits m v ba t.fmt.width) (bitsPoison m v ba t.fmt.bits)
  (cs.map (·.1), cs.foldl (fun fl c => fl ||| c.2) 0)

/-- The block scales of an activation row (R44). -/
def actScales (m : Memory) (sv : View) (t : Tensor) (k row : Nat) : List Byte :=
  if t.scaled then (List.range (ceilDiv k 32)).map fun g => m.byte (sv.pa (t.scaleAddr (g * 32) row 0 0)) else []

/-- The tile sums of one output row from its activation row and block scales (R59, R161). -/
def MmaJob.sums (j : MmaJob) (acts : List Cell) (scales : List Byte) : List VF :=
  let kept := j.weights
  let wScaled := (kept.map (·.scaled)).getD false
  let scaled := j.act.scaled || wScaled
  let ps := passes j.act.fmt j.wfmt j.fast
  let xa (g : Nat) : Nat := if j.act.scaled then ((scales[g]?).getD 0).toNat else 127
  (List.range j.n).map fun c =>
    let ws := (List.range j.k).map fun k => (j.cells.get? (cellKey j.shape j.group k c)).getD {}
    let xw (g : Nat) : Nat := if wScaled then ((kept.bind fun k => k.scales.get? (g * j.n + c)).getD 0).toNat else 127
    let nanIn := if acts.any (·.cls == 2) || ws.any (·.cls == 2) then flNanIn else 0
    if j.int then
      let s := (List.zip acts ws).foldl (fun (t : Int) p =>
        t + (p.1.l0 * 2 ^ p.1.exp.toNat + p.1.l1) * (p.2.l0 * 2 ^ p.2.exp.toNat + p.2.l1)) 0
      { v := Num.ofInt s }
    else
      let t := tileSum acts ws ps scaled xa xw
      { v := t.v, fl := t.fl ||| nanIn }

/-- The tile sums of one output row with their flags. -/
def rowSums (j : MmaJob) (m : Memory) (f : FrameId) (sv : View) (row : Nat) : List VF :=
  let (acts, fl) := actRow m (lsView f) j.act j.k row
  (j.sums acts (actScales m sv j.act j.k row)).map fun s => { s with fl := s.fl ||| fl }

/-- D3: the tile sum into the accumulator (R75, R76). -/
def intoAcc (int start : Bool) (old : Acc) (t : Num) : VF :=
  if start then { v := t }
  else if int then
    let (v, fl) := sat64 ((accNum true old.v).toInt + t.toInt)
    { v := Num.ofInt v, fl := fl }
  else add40 (accNum false old.v) t

/-- The views an instruction's drain needs: destination, SRCC, activation scales, SRCC scales. -/
structure DrainViews where
  dst : View
  third : View
  scale : View
  tscale : View

def Dev.drainViews (d : Dev) (f : FrameId) (j : MmaJob) : Dev × Except XErr DrainViews :=
  let opt (d : Dev) (s : List Span) (a : Acc6) : Dev × Except XErr View :=
    match s with | x :: _ => d.view f x a | [] => (d, .ok (lsView f))
  let idx := j.mode == 4 || j.mode == 5
  let (d, v1) := opt d (if j.final then [j.dst.span true] else []) (if j.mode == 1 || j.merge then .readWrite else .write)
  let (d, v2) := opt d ((j.third.map fun t => [t.span idx]).getD [])
    (if idx then (if j.merge then .readWrite else .write) else .read)
  let (d, v3) := opt d (j.act.scaleSpan false) .read
  let (d, v4) := opt d (if idx then [] else (j.third.map (·.scaleSpan false)).getD []) .read
  match v1, v2, v3, v4 with
  | .ok a, .ok b, .ok c, .ok e => (d, .ok { dst := a, third := b, scale := c, tscale := e })
  | .error x, _, _, _ => (d, .error x)
  | _, .error x, _, _ => (d, .error x)
  | _, _, .error x, _ => (d, .error x)
  | _, _, _, .error x => (d, .error x)

/-- One output element in the modes that write every column (R77). -/
def drainElem (j : MmaJob) (m : Memory) (dv : DrainViews) (row c : Nat) (acc : Num) : Nat × FmtFlags × Bool :=
  let (r, p) : VF × Bool := match j.mode.toNat with
    | 1 =>
      let e := j.dst.elem m dv.dst dv.dst c row 0 0
      let r := finish false j.int j.dst.fmt.isInt acc e.v
      ({ r with fl := r.fl ||| e.fl }, e.poison)
    | 2 | 3 => match j.third with
      | some t =>
        let e := t.elem m dv.third dv.tscale c row 0 0
        let r := finish (j.mode == 3) j.int (t.fmt.isInt && !t.scaled) acc e.v
        ({ r with fl := r.fl ||| e.fl }, e.poison)
      | none => ({ v := acc }, false)
    | _ => ({ v := acc }, false)
  let (code, fl) := j.dst.fmt.encode j.dst.signed r.v
  (code, r.fl ||| fl, p)

/-- The winner of a row among converted values and their indices, with MERGE's pair (R78). -/
def rowWinner (isMax : Bool) (cands : List (Num × Nat)) : Option (Num × Nat) :=
  cands.foldl (fun w c => match w with
    | none => some c
    | some w => if beats isMax c.1 c.2 w.1 w.2 then some c else some w) none

/-- One output row through the drain: accumulators, finishing, writes into the buffer. A pair that MERGE reads is an
operand as any other: it is decoded with its flags, and where it wins its value is written in the code that R34, R36 and
R39 have Leruri write (DEDUCED, assumption 111). -/
def drainRow (j : MmaJob) (m : Memory) (dv : DrainViews) (sums : List VF) (psn : Bool) (row : Nat) (o : RowOut) :
    RowOut :=
  let idx c := accIdx j.shape j.half j.group row c
  let accs := (List.zip (List.range j.n) sums).map fun p =>
    let old := (o.acc.get? (idx p.1)).getD {}
    let r := intoAcc j.int j.start old p.2.v
    (p.1, r.v, p.2.fl ||| r.fl, psn || (!j.start && old.poison))
  let fl := accs.foldl (fun fl a => fl ||| a.2.2.1) o.fl
  if !j.final then
    { o with
      acc := accs.foldl (fun m a => SMap.putD {} m (idx a.1) { v := container j.int a.2.1, poison := a.2.2.2 }) o.acc
      fl := fl, anyPsn := o.anyPsn || accs.any (·.2.2.2) }
  else
    let acc := if row < j.shape.maxRows j.half then
        o.acc.filter fun e => !(decide (idx 0 ≤ e.1) && decide (e.1 < idx (accCols j.half)))
      else o.acc
    let o := { o with acc := acc, fl := fl }
    if j.mode == 4 || j.mode == 5 then
      let cv := accs.map fun a =>
        let (code, fl) := j.dst.fmt.encode j.dst.signed a.2.1
        ((j.dst.fmt.decode j.dst.signed code).1, 8 * j.cbase + a.1, fl)
      let ip := j.third.getD j.dst
      let vb := j.dst.bitAddr 0 row 0 0
      let ib := ip.bitAddr 0 row 0 0
      let (old, oldFl) := j.dst.fmt.decode j.dst.signed (readBits m dv.dst vb j.dst.fmt.width)
      let merged := if j.merge then [(old, readBits m dv.third ib 32)] else []
      let mergeFl := if j.merge then oldFl ||| nanFlags [old] old else 0
      let mp := j.merge && (bitsPoison m dv.dst vb j.dst.fmt.bits || bitsPoison m dv.third ib 32)
      match rowWinner (j.mode == 4) (merged ++ cv.map fun c => (c.1, c.2.1)) with
      | none => o
      | some w =>
        let bad := accs.any (·.2.2.2) || mp
        { o with
          buf := ((o.buf.putBits dv.dst vb j.dst.fmt.bits (j.dst.fmt.encode j.dst.signed w.1).1).putBits dv.third ib 32
            (w.2 % 2 ^ 32))
          fl := cv.foldl (fun fl c => fl ||| c.2.2) (o.fl ||| mergeFl)
          psn := o.psn || mp, anyPsn := o.anyPsn || bad
          bad := if bad then o.bad ++ [dv.dst.pa (vb / 8), dv.third.pa (ib / 8)] else o.bad }
    else
      accs.foldl (fun o a =>
        let (code, fl, p) := drainElem j m dv row a.1 a.2.1
        let ba := j.dst.bitAddr a.1 row 0 0
        let bad := a.2.2.2 || p
        { o with
          buf := o.buf.putBits dv.dst ba j.dst.fmt.bits code
          fl := o.fl ||| fl, psn := o.psn || p, anyPsn := o.anyPsn || bad
          bad := if bad then o.bad ++ [dv.dst.pa (ba / 8), dv.dst.pa ((ba + j.dst.fmt.bits - 1) / 8)] else o.bad }) o

/-- Poison among the activation rows, their scales and the weights an instruction consumes (R79). -/
def operandPoison (j : MmaJob) (m : Memory) (f : FrameId) (sv : View) : Bool :=
  ((List.range j.m).any fun r => (List.range j.k).any fun k =>
      bitsPoison m (lsView f) (j.act.bitAddr k r 0 0) j.act.fmt.bits
      || (j.act.scaled && m.poisonedAt (sv.pa (j.act.scaleAddr k r 0 0))))
    || ((List.range j.k).any fun k => (List.range j.n).any fun c =>
      ((j.cells.get? (cellKey j.shape j.group k c)).map (·.poison)).getD false)

/-- The first rows of an instruction. -/
def MmaJob.cut (j : MmaJob) (n : Nat) : MmaJob :=
  { j with m := n, act := { j.act with e1 := n }, dst := { j.dst with e1 := n }, third := j.third.map ({ · with e1 := n }) }

/-- The tile sums of an instruction's rows, by row. -/
def Dev.mmaSums (d : Dev) (f : FrameId) (j : MmaJob) (dv : DrainViews) : List (Nat × List VF) :=
  (List.range j.m).map fun r => (r, rowSums j d.mem f dv.scale r)

/-- What the drain of an instruction's rows leaves. -/
def Dev.drainOut (d : Dev) (f : FrameId) (j : MmaJob) (dv : DrainViews) : RowOut :=
  let psn := operandPoison j d.mem f dv.scale
  (d.mmaSums f j dv).foldl (fun o s => drainRow j d.mem dv s.2 psn s.1 o) { acc := (d.frame f).arr.acc }

/-- The lines that the writes of a drain read: all of them where the result is added to DST or merged with it, else those of
granules written in part (R77, R78, R220). -/
def Dev.mmaLines (d : Dev) (f : FrameId) (j : MmaJob) (dv : DrainViews) : List Nat :=
  let b := (d.drainOut f j dv).buf
  let gs := (b.map fun c => c.1 / gran c.1 * gran c.1).dedup
  let whole (g : Nat) : Bool := (List.range (gran g)).all fun i => ((SMap.get? b (g + i)).map (·.2)).getD 0 == 0xFF
  (if j.mode == 1 || j.merge then gs else gs.filter fun g => !whole g).map (· / 64)

/-- The rows of a matrix instruction through the drain: accumulators, types, flags, poison and writes (R74–R79). -/
def Dev.drainRows (d : Dev) (f : FrameId) (j : MmaJob) (dv : DrainViews) : Dev :=
  let fr := d.frame f
  let psn := operandPoison j d.mem f dv.scale
  let o := d.drainOut f j dv
  let m := d.mem.applyBuf o.buf (o.psn || (psn && j.final))
  let m := o.bad.foldl (fun m a => m.markGran a true) m
  ({ d with mem := m } : Dev).setFrame f { fr with
    fmtFlags := fr.fmtFlags ||| o.fl
    poison := fr.poison || o.anyPsn || psn
    arr := { fr.arr with
      acc := o.acc
      rows := if j.final then freeRows j.shape j.half j.group j.m fr.arr.rows
        else typeEntries j.shape j.half j.group j.m j.n (if j.int then 2 else 1) fr.arr.rows } }

/-- The tally of a mirrored tile (R423, R424): its prefix, then each tile sum in its container, by row and column. -/
def Mirror.tally (x : Mirror) (pfx : List Byte) : Word :=
  crc64 (pfx ++ x.rows.flatMap fun r => (x.job.sums r.1 r.2).flatMap fun v => le 8 (container x.job.int v.v).toNat)

/-- The last row of a tile has passed the drain (R422, R423): the guard buffer has its rows, and a sampled one has its tally. -/
def Dev.endTile (d : Dev) (f : FrameId) (j : MmaJob) (dv : DrainViews) : Dev :=
  match j.guardRec.bind fun id => d.grd.tiles.find? (·.id == id) with
  | none => d
  | some t =>
    let x : Mirror := { job := j, rows := (List.range j.tileRows).map fun r =>
      ((actRow d.mem (lsView f) j.act j.k (j.tile * 512 + r)).1, actScales d.mem dv.scale j.act j.k (j.tile * 512 + r)) }
    (d.updTile t.id fun t => { t with mirror := x }).closeTile t.id (x.tally t.pfx) (operandPoison j d.mem f dv.scale)

/-- Stream the tiles of an instruction from the present one on: true when the last has passed the drain, false where the next
waits for room in the guard buffer (R418, R422). -/
def Dev.streamTiles (d : Dev) (f : FrameId) (i : Nat) (dv : DrainViews) : Nat → Dev × Bool
  | 0 => (d, true)
  | n + 1 => match (d.frame f).mmaQ[i]? with
    | none => (d, false)
    | some j =>
      if j.bufHold then (d, false)
      else
        let d := d.endTile f j dv
        if j.m ≤ (j.tile + 1) * 512 then (d, true)
        else match d.nextTile f i { j with tile := j.tile + 1, drawn := false, hit := false, guardRec := none } with
          | (d, true) => d.streamTiles f i dv n
          | (d, false) => (d, false)

/-- Finish the matrix instruction at a position: its rows and FRM_ARR_HOLD. -/
def Dev.finishMma (d : Dev) (f : FrameId) (i : Nat) (j : MmaJob) (dv : DrainViews) : Dev :=
  ((d.drainRows f j dv).updFrame f fun fr => { fr with
    mmaQ := fr.mmaQ.eraseIdx i
    ramp := { fr.ramp with tiles := fr.ramp.tiles + 1 } }).pumpMma f 8

/-- The first instruction of a row group that streams. -/
def Frame.streamingMma (fr : Frame) (g : Nat) : Option (Nat × MmaJob) :=
  (fr.mmaQ.findIdx? fun j => j.streaming && j.group == g).bind fun i => (fr.mmaQ[i]?).map (i, ·)

/-- The cycles in which row 0 was held for want of data and by the drain (R85, R101). -/
def Frame.countHolds (fr : Frame) (feed drain : BitVec 16) : Frame :=
  { fr with ramp := { fr.ramp with feedHold := fr.ramp.feedHold + feed, drainHold := fr.ramp.drainHold + drain } }

/-- MMA_F (R161). -/
def execMmaF (f : FrameId) (x : Insn) (s : State) : Host.Outcome State Fault Refusal :=
  s.stepDev ((s.toDev.issue f .mmaF x 0 (mmaBody .f .mmaF)).pumpMma f 8)

/-- MMA_H2 (R161). -/
def execMmaH2 (f : FrameId) (x : Insn) (s : State) : Host.Outcome State Fault Refusal :=
  s.stepDev ((s.toDev.issue f .mmaH2 x 0 (mmaBody .h2 .mmaH2)).pumpMma f 8)

/-- MMA_Q4 (R161). -/
def execMmaQ4 (f : FrameId) (x : Insn) (s : State) : Host.Outcome State Fault Refusal :=
  s.stepDev ((s.toDev.issue f .mmaQ4 x 0 (mmaBody .q4 .mmaQ4)).pumpMma f 8)

/-- WEIGHT_PLANE_LOADED (R68): the next plane of the matrix unit has loaded. -/
def execWeightPlaneLoaded (f : FrameId) (s : State) : Host.Outcome State Fault Refusal :=
  s.stepDev (s.toDev.loadPlane f)

/-- The last output of a row group's oldest streaming instruction is written (R85, R163, R220), unless one of its tiles still
waits for room in the guard buffer (R422). An operand that no longer translates ends in MEMORY_ERROR_RESPONSE instead. -/
def Dev.completeMma (d : Dev) (m : MmaEnd) : Dev :=
  let f := m.frame
  match (d.frame f).streamingMma m.group.val with
  | none => d
  | some (i, j) => match d.drainViews f j with
    | (d, .ok dv) => match d.streamTiles f i dv (ceilDiv j.m 512 + 1) with
      | (d, false) => d
      | (d, true) =>
        let d := if m.errs.isEmpty then d else d.demandRead (d.mmaLines f j dv) m.errs
        (((d.updFrame f fun fr => fr.countHolds m.feed m.drain).finishMma f i j dv).settle f).resumeGraphs
    | (d, .error _) => d

/-- MMA_COMPLETE (R163). -/
def execMmaComplete (m : MmaEnd) (s : State) : Host.Outcome State Fault Refusal := s.stepDev (s.toDev.completeMma m)

end Sys2Proof.Machine
end

