-- ==== Sys2Proof/Machine/Guard.lean ====
section
/-! DEFINITION. The activity ramp, guard and referee runs, the end of a guard wait, and frames leaving service
(R21–R27, R93–R97, R422–R426, R430). -/

namespace Sys2Proof.Machine

/-! ### The activity ramp (R94, R95) -/

/-- The level after a 6-cycle interval whose highest demand was `demand` products in a cycle (R94). -/
def Ramp.rise (r : Ramp) (demand : Nat) : Ramp :=
  if r.level = 0 then r
  else if 2048 * (r.level - 1) < demand then { r with level := min (r.level + 1) r.cap } else r

/-- The level after a 3-cycle interval (R95). -/
def Ramp.fall (r : Ramp) (demand : Nat) : Ramp :=
  if r.level = 0 then r
  else if (if r.level = 1 then demand == 0 else decide (demand ≤ 2048 * (r.level - 2))) then
    { r with level := r.level - 1 }
  else r

/-- The demand is above what the level permits, so feeders were held for so many of the interval's cycles (R93, R101). -/
def Ramp.limited (r : Ramp) (demand held : Nat) : Ramp :=
  if 2048 * r.level < demand then { r with rampHold := r.rampHold + BitVec.ofNat 16 (min held 6) } else r

/-- The end of a 6-cycle interval (R93, R94). Products that come back at level 0 leave it in that cycle, which is a start
that the power slot may hold (R397). -/
def Dev.rampRise (d : Dev) (f : FrameId) (demand held : Nat) : Dev :=
  let fr := d.frame f
  let d := if fr.ramp.level = 0 ∧ 0 < demand ∧ fr.ramp.startHold = false ∧ fr.mmaQ.any (·.streaming) = true then
      (d.startArray f).1
    else d
  d.updFrame f fun fr =>
    if fr.ramp.startHold then fr else { fr with ramp := (fr.ramp.limited demand held).rise demand }

/-! ### Frames leave and enter service (R21–R27) -/

/-- A frame of another coordinate gets the guard work of one that leaves service (R425). -/
def Dev.moveGuardWork (d : Dev) (f : FrameId) : Dev :=
  let ids := (d.frame f).guardWork
  let d := d.updFrame f fun fr => { fr with guardWork := [] }
  ids.foldl (fun d id =>
    match d.grd.tiles.find? (·.id == id) with
    | none => d
    | some t => if t.guardTally.isNone then d.assignGuard id else d.assignReferee id) d

/-- Frames leave service, each with its cause: the maps, COUNT and GEN move as one update (R22, R23, R27). -/
def Dev.leaveService (d : Dev) (fs : List (FrameId × Nat)) : Dev :=
  if fs.isEmpty then d
  else
    let gen := d.insvc.gen + 1
    let d := { d with insvc := { d.insvc with gen := gen } }
    let d := fs.foldl (fun d p => d.updFrame p.1 fun fr => { fr with
      state := .outOfService, stallV := false, wantTake := false
      geom := { fr.geom with rows := 0, colgrp := 0, byp := 0, spares := 0, fillAdj := 0 }
      svc := { fr.svc with insvc := false, cause := BitVec.ofNat 4 p.2, atGen := gen } }) d
    let d := fs.foldl (fun d p => d.moveGuardWork p.1) d
    fs.foldl (fun d p => d.ledger 0x04 0x01 { unit := 1, index := p.1.val, sub := p.2, aux0 := gen.toNat }) d

/-- Nothing runs on the frame and no take of it is under way. -/
def Frame.free (fr : Frame) : Bool :=
  fr.state == .idle && fr.task.isNone && fr.granted.isNone && fr.guardRun.isNone

/-- A flagged frame leaves its stall once it is idle (R25, R426). -/
def Dev.removeFlagged (d : Dev) (f : FrameId) : Dev :=
  let fr := d.frame f
  if d.up && fr.svc.flagged && fr.svc.insvc && fr.free then d.leaveService [(f, 0x2)] else d

/-! ### Guard runs (R422–R425, R430) -/

/-- A sampled tile that waited for buffer space presents its first vector (R422): the first of an instruction or a later one. -/
def Dev.bufferFreed (d : Dev) (f : FrameId) : Dev :=
  let q := (d.frame f).mmaQ
  match q.findIdx? (·.bufHold) with
  | none => d
  | some i => match q[i]? with
    | none => d
    | some j => if j.streaming then (d.nextTile f i j).1 else (d.beginStream f i j).pumpMma f 8

/-- The frame takes the guard work at the head of its queue, ahead of every context (R424). -/
def Dev.guardTake (d : Dev) (f : FrameId) : Dev :=
  let fr := d.frame f
  match fr.guardWork with
  | [] => d
  | id :: _ =>
    if d.up && fr.svc.insvc && fr.free && d.clusterUp f then
      d.setFrame f { fr with guardRun := some id, cycles := d.ns, wantTake := false }
    else d

/-- The tally of a guard or referee run (R424): the run streams the mirrored tile and forms the tile sums anew. `fault` is what a
fault of the frame does to the tally, 0 on a sound one (DESIGN CHOICE, assumption 85). -/
def Dev.guardTallyOf (d : Dev) (id : Nat) (fault : Word) : Word :=
  ((d.grd.tiles.find? (·.id == id)).map fun t => t.mirror.tally t.pfx ^^^ fault).getD 0

/-- A guard or referee run finishes: its cycles are charged to the sampled context, and the verdict follows (R424, R425). -/
def Dev.guardDone (d : Dev) (f : FrameId) (fault : Word) : Dev :=
  let fr := d.frame f
  match fr.guardRun with
  | none => d
  | some id =>
    let cyc := cyclesAt d.ns - cyclesAt fr.cycles
    let d := d.setFrame f { fr with guardRun := none, guardWork := fr.guardWork.filter (· != id) }
    let d := match d.grd.tiles.find? (·.id == id) with
      | none => d
      | some t => d.updCtx t.ctx fun c => { c with
        frameCycles := c.frameCycles + BitVec.ofNat 64 cyc, deficit := c.deficit - cyc }
    (d.verdict id (d.guardTallyOf id fault)).resumeGraphs

/-- The wait of a context that began first and still waits for a verdict. -/
def Dev.oldestWait (d : Dev) (c : BitVec 12) : Option Held430 :=
  d.grd.waits.find? fun w => w.ctx == c && w.begun && !w.tiles.isEmpty

/-- WAIT_MS has passed since the oldest wait of the context began: its tiles without a verdict are unverified, and it ends (R430). -/
def Dev.guardExpire (d : Dev) (c : BitVec 12) : Dev :=
  match d.oldestWait c with
  | none => d
  | some o =>
  let d := o.tiles.foldl (fun d id =>
    match d.grd.tiles.find? fun t => t.id == id && !t.unver with
    | none => d
    | some t =>
      let d := { d with grd := { d.grd with unverified := satAdd d.grd.unverified } }
      (d.guardRecord 0x04 t).updTile id fun t => { t with unver := true }) d
  let ws := d.grd.waits.map fun w => if w.what == o.what && w.ctx == c then { w with tiles := [] } else w
  ({ d with grd := { d.grd with waits := ws } } : Dev).resumeGraphs

/-- RAMP_RISE_INTERVAL (R94). -/
def execRampRiseInterval (f : FrameId) (r : RampObs) (s : State) : Host.Outcome State Fault Refusal :=
  s.stepDev (s.toDev.rampRise f r.demand r.held)

/-- RAMP_FALL_INTERVAL (R95): `demand` is the highest of the interval. -/
def execRampFallInterval (f : FrameId) (demand : Nat) (s : State) : Host.Outcome State Fault Refusal :=
  s.stepDev (s.toDev.updFrame f fun fr => { fr with ramp := fr.ramp.fall demand })

/-- GUARD_BUFFER_FREED (R422). -/
def execGuardBufferFreed (f : FrameId) (s : State) : Host.Outcome State Fault Refusal :=
  s.stepDev (s.toDev.bufferFreed f)

/-- GUARD_TAKE (R424). -/
def execGuardTake (f : FrameId) (s : State) : Host.Outcome State Fault Refusal :=
  s.stepDev (s.toDev.guardTake f)

/-- GUARD_RUN_COMPLETE (R425): `fault` is what a fault of the frame does to the run's tally. -/
def execGuardRunComplete (f : FrameId) (fault : Word) (s : State) : Host.Outcome State Fault Refusal :=
  s.stepDev (s.toDev.guardDone f fault)

/-- GUARD_WAIT_EXPIRY (R430). -/
def execGuardWaitExpiry (ctx : BitVec 12) (s : State) : Host.Outcome State Fault Refusal :=
  s.stepDev (s.toDev.guardExpire ctx)

/-- FLAGGED_FRAME_REMOVAL (R426). -/
def execFlaggedFrameRemoval (f : FrameId) (s : State) : Host.Outcome State Fault Refusal :=
  s.stepDev (s.toDev.removeFlagged f)

end Sys2Proof.Machine
end

