-- ==== Sys2Proof/Machine/Scalar.lean ====
section
/-! DEFINITION. Scalar and branch instructions and the two-word forms (R148–R154). -/

namespace Sys2Proof.Machine

/-- The registers of the frame after an effect on them. -/
def Dev.withRegs (d : Dev) (f : FrameId) (g : Regs → Regs) : Issue :=
  .next (d.updFrame f fun fr => { fr with regs := g fr.regs })

def useS (is : List (BitVec 6)) : List Dest := is.map .s

/-- Predicate registers; k0 is never locked, since it does not change. -/
def useK (is : List (BitVec 6)) : List Dest := (is.filter (· != 0)).map .k

/-- d ← g(a, b) over s registers, MOD zero (R151). -/
def body3 (g : Word → Word → Word) : Body :=
  { legal := fun x => fieldsOk x rS rS rS none && x.mod == 0
    uses := fun x => useS [x.dst, x.a, x.b]
    act := fun d f x _ => d.withRegs f fun r => r.setS x.dst (g (r.getS x.a) (r.getS x.b)) }

/-- d ← g(a, MOD) over s registers (R151). -/
def body2i (ok : BitVec 32 → Bool) (g : Word → Insn → Word) : Body :=
  { legal := fun x => fieldsOk x rS rS none none && ok x.mod
    uses := fun x => useS [x.dst, x.a]
    act := fun d f x _ => d.withRegs f fun r => r.setS x.dst (g (r.getS x.a) x) }

def shAmt (b : Word) : Nat := (b &&& 63).toNat

def nopBody : Body :=
  { legal := fun x => fieldsOk x none none none none && x.mod == 0, act := fun d _ _ _ => .next d }
def addBody : Body := body3 fun a b => a + b
def subBody : Body := body3 fun a b => a - b
def mulBody : Body := body3 fun a b => a * b
def andBody : Body := body3 fun a b => a &&& b
def orBody : Body := body3 fun a b => a ||| b
def xorBody : Body := body3 fun a b => a ^^^ b
def shlBody : Body := body3 fun a b => a <<< shAmt b
def shrBody : Body := body3 fun a b => a >>> shAmt b
def sraBody : Body := body3 fun a b => a.sshiftRight (shAmt b)
def addiBody : Body := body2i (fun _ => true) fun a x => a + imm64 x
def andiBody : Body := body2i (fun _ => true) fun a x => a &&& imm64 x
def shliBody : Body := body2i (fun m => decide (m.toNat < 64)) fun a x => a <<< x.mod.toNat
def shriBody : Body := body2i (fun m => decide (m.toNat < 64)) fun a x => a >>> x.mod.toNat

/-- The comparisons of R152; the reserved codes never come here. -/
def cond (code : Nat) (a b : Word) : Bool :=
  match code with
  | 0 => a == b | 1 => a != b | 2 => a.slt b | 3 => !a.slt b | 4 => a.ult b | _ => !a.ult b

def lanes (b : Bool) : BitVec 256 := if b then BitVec.allOnes 256 else 0

def cmpBody : Body :=
  { legal := fun x => fieldsOk x rK rS rS none && decide (x.mod.toNat < 6)
    uses := fun x => useS [x.a, x.b] ++ useK [x.dst]
    act := fun d f x _ => d.withRegs f fun r =>
      r.setK x.dst (lanes (cond x.mod.toNat (r.getS x.a) (r.getS x.b))) }
def cmpiBody : Body :=
  { legal := fun x => fieldsOk x rK rS none none && decide (x.mod.toNat % 256 < 6)
    uses := fun x => useS [x.a] ++ useK [x.dst]
    act := fun d f x _ => d.withRegs f fun r =>
      r.setK x.dst (lanes (cond (x.mod.toNat % 256) (r.getS x.a) (imm24 x))) }
def amovBody : Body :=
  { legal := fun x => fieldsOk x rA rS none none && x.mod == 0
    uses := fun x => useS [x.a]
    act := fun d f x _ => d.withRegs f fun r => r.setA x.dst (r.getS x.a) }
def aaddBody : Body :=
  { legal := fun x => fieldsOk x rA rA none none
    act := fun d f x _ => d.withRegs f fun r => r.setA x.dst (r.getA x.a + imm64 x) }
def smovaBody : Body :=
  { legal := fun x => fieldsOk x rS rA none none && x.mod == 0
    uses := fun x => useS [x.dst]
    act := fun d f x _ => d.withRegs f fun r => r.setS x.dst (r.getA x.a) }

def kBody (b : Option Nat) (g : BitVec 256 → BitVec 256 → BitVec 256) : Body :=
  { legal := fun x => fieldsOk x rK rK b none && x.mod == 0
    uses := fun x => useK [x.dst, x.a, x.b]
    act := fun d f x _ => d.withRegs f fun r => r.setK x.dst (g (r.getK x.a) (r.getK x.b)) }
def kandBody : Body := kBody rK fun a b => a &&& b
def korBody : Body := kBody rK fun a b => a ||| b
def knotBody : Body := kBody none fun a _ => ~~~a

/-- pc + 8 × offset (R140, R151). -/
def Frame.target (fr : Frame) (off : Word) : BitVec 52 := fr.pc + (off <<< 3).setWidth 52

/-- Branch when a condition on the registers holds. -/
def branchBody (a : Option Nat) (uses : Insn → List Dest) (ok : Insn → Bool) (off : Insn → Word) (take : Regs → Insn → Bool) :
    Body :=
  { legal := fun x => fieldsOk x none a none none && ok x
    uses := uses
    act := fun d f x _ =>
      let fr := d.frame f
      if take fr.regs x then .jump d (fr.target (off x)) else .next d }

def bBody : Body := branchBody none (fun _ => []) (fun _ => true) imm64 fun _ _ => true
def bzBody : Body := branchBody rS (fun x => useS [x.a]) (fun _ => true) imm64 fun r x => r.getS x.a == 0
def bnzBody : Body := branchBody rS (fun x => useS [x.a]) (fun _ => true) imm64 fun r x => r.getS x.a != 0
def bkBody : Body :=
  branchBody rK (fun x => useK [x.a]) (fun x => decide (x.mod.toNat % 256 < 2)) imm24 fun r x =>
    if x.mod.getLsbD 0 then r.getK x.a == BitVec.allOnes 256 else r.getK x.a != 0

/-- A misaligned target of BR raises a fetch fault at the target (R153). Bits [63:52] of the register are dropped, since the
program counter has 52 bits (DESIGN CHOICE, assumption 115). -/
def brBody : Body :=
  { legal := fun x => fieldsOk x none rS none none && x.mod == 0
    uses := fun x => useS [x.a]
    act := fun d f x _ =>
      let t := (d.frame f).regs.getS x.a
      if t.toNat % 8 = 0 then .jump d (t.setWidth 52)
      else .fault 0x0A 0 (some (t.toNat % 2 ^ 52, true)) }

def li64Body : Body :=
  { legal := fun x => fieldsOk x rS none none none && x.mod == 0
    uses := fun x => useS [x.dst]
    act := fun d f x imm => d.withRegs f fun r => r.setS x.dst imm }
def ai64Body : Body :=
  { legal := fun x => fieldsOk x rA none none none && x.mod == 0
    act := fun d f x imm => d.withRegs f fun r => r.setA x.dst imm }

/-- NOP (R151). -/
def execNop (f : FrameId) (x : Insn) (s : State) : Host.Outcome State Fault Refusal :=
  s.stepDev (s.toDev.issue f .nop x 0 nopBody)

/-- ADD (R151). -/
def execAdd (f : FrameId) (x : Insn) (s : State) : Host.Outcome State Fault Refusal :=
  s.stepDev (s.toDev.issue f .add x 0 addBody)

/-- SUB (R151). -/
def execSub (f : FrameId) (x : Insn) (s : State) : Host.Outcome State Fault Refusal :=
  s.stepDev (s.toDev.issue f .sub x 0 subBody)

/-- MUL (R151). -/
def execMul (f : FrameId) (x : Insn) (s : State) : Host.Outcome State Fault Refusal :=
  s.stepDev (s.toDev.issue f .mul x 0 mulBody)

/-- AND (R151). -/
def execAndS (f : FrameId) (x : Insn) (s : State) : Host.Outcome State Fault Refusal :=
  s.stepDev (s.toDev.issue f .andS x 0 andBody)

/-- OR (R151). -/
def execOrS (f : FrameId) (x : Insn) (s : State) : Host.Outcome State Fault Refusal :=
  s.stepDev (s.toDev.issue f .orS x 0 orBody)

/-- XOR (R151). -/
def execXorS (f : FrameId) (x : Insn) (s : State) : Host.Outcome State Fault Refusal :=
  s.stepDev (s.toDev.issue f .xorS x 0 xorBody)

/-- SHL (R151). -/
def execShl (f : FrameId) (x : Insn) (s : State) : Host.Outcome State Fault Refusal :=
  s.stepDev (s.toDev.issue f .shl x 0 shlBody)

/-- SHR (R151). -/
def execShr (f : FrameId) (x : Insn) (s : State) : Host.Outcome State Fault Refusal :=
  s.stepDev (s.toDev.issue f .shr x 0 shrBody)

/-- SRA (R151). -/
def execSra (f : FrameId) (x : Insn) (s : State) : Host.Outcome State Fault Refusal :=
  s.stepDev (s.toDev.issue f .sra x 0 sraBody)

/-- ADDI (R151). -/
def execAddi (f : FrameId) (x : Insn) (s : State) : Host.Outcome State Fault Refusal :=
  s.stepDev (s.toDev.issue f .addi x 0 addiBody)

/-- ANDI (R151). -/
def execAndi (f : FrameId) (x : Insn) (s : State) : Host.Outcome State Fault Refusal :=
  s.stepDev (s.toDev.issue f .andi x 0 andiBody)

/-- SHLI (R151). -/
def execShli (f : FrameId) (x : Insn) (s : State) : Host.Outcome State Fault Refusal :=
  s.stepDev (s.toDev.issue f .shli x 0 shliBody)

/-- SHRI (R151). -/
def execShri (f : FrameId) (x : Insn) (s : State) : Host.Outcome State Fault Refusal :=
  s.stepDev (s.toDev.issue f .shri x 0 shriBody)

/-- CMP (R152). -/
def execCmp (f : FrameId) (x : Insn) (s : State) : Host.Outcome State Fault Refusal :=
  s.stepDev (s.toDev.issue f .cmp x 0 cmpBody)

/-- CMPI (R152). -/
def execCmpi (f : FrameId) (x : Insn) (s : State) : Host.Outcome State Fault Refusal :=
  s.stepDev (s.toDev.issue f .cmpi x 0 cmpiBody)

/-- AMOV (R151). -/
def execAmov (f : FrameId) (x : Insn) (s : State) : Host.Outcome State Fault Refusal :=
  s.stepDev (s.toDev.issue f .amov x 0 amovBody)

/-- AADD (R151). -/
def execAadd (f : FrameId) (x : Insn) (s : State) : Host.Outcome State Fault Refusal :=
  s.stepDev (s.toDev.issue f .aadd x 0 aaddBody)

/-- SMOVA (R151). -/
def execSmova (f : FrameId) (x : Insn) (s : State) : Host.Outcome State Fault Refusal :=
  s.stepDev (s.toDev.issue f .smova x 0 smovaBody)

/-- KAND (R151). -/
def execKand (f : FrameId) (x : Insn) (s : State) : Host.Outcome State Fault Refusal :=
  s.stepDev (s.toDev.issue f .kand x 0 kandBody)

/-- KOR (R151). -/
def execKor (f : FrameId) (x : Insn) (s : State) : Host.Outcome State Fault Refusal :=
  s.stepDev (s.toDev.issue f .kor x 0 korBody)

/-- KNOT (R151). -/
def execKnot (f : FrameId) (x : Insn) (s : State) : Host.Outcome State Fault Refusal :=
  s.stepDev (s.toDev.issue f .knot x 0 knotBody)

/-- B (R151). -/
def execB (f : FrameId) (x : Insn) (s : State) : Host.Outcome State Fault Refusal :=
  s.stepDev (s.toDev.issue f .b x 0 bBody)

/-- BZ (R151). -/
def execBz (f : FrameId) (x : Insn) (s : State) : Host.Outcome State Fault Refusal :=
  s.stepDev (s.toDev.issue f .bz x 0 bzBody)

/-- BNZ (R151). -/
def execBnz (f : FrameId) (x : Insn) (s : State) : Host.Outcome State Fault Refusal :=
  s.stepDev (s.toDev.issue f .bnz x 0 bnzBody)

/-- BK (R111). -/
def execBk (f : FrameId) (x : Insn) (s : State) : Host.Outcome State Fault Refusal :=
  s.stepDev (s.toDev.issue f .bk x 0 bkBody)

/-- BR (R153). -/
def execBr (f : FrameId) (x : Insn) (s : State) : Host.Outcome State Fault Refusal :=
  s.stepDev (s.toDev.issue f .br x 0 brBody)

/-- LI64 (R154). -/
def execLi64 (f : FrameId) (x : Insn) (imm : Word) (s : State) : Host.Outcome State Fault Refusal :=
  s.stepDev (s.toDev.issue f .li64 x imm li64Body)

/-- AI64 (R154). -/
def execAi64 (f : FrameId) (x : Insn) (imm : Word) (s : State) : Host.Outcome State Fault Refusal :=
  s.stepDev (s.toDev.issue f .ai64 x imm ai64Body)

end Sys2Proof.Machine
end

