-- ==== Sys2Proof/Machine/Move.lean ====
section
/-! DEFINITION. The mover, the tally unit, and the sequencer's loads, stores and descriptor instructions (R127–R132, R178–R184). -/

namespace Sys2Proof.Machine

/-! ### Lines of a move (R127, R130) -/

/-- A run of bytes as a tensor. -/
def byteRun (base len : Nat) : Tensor :=
  { base := base, e0 := len, e1 := 1, e2 := 1, e3 := 1, fmt := .q8, space := true }

def Place.run (p : Place) (len : Nat) : Tensor :=
  match p with
  | .tensor t => t
  | .virt va => byteRun va len
  | .host a => byteRun a len

def Place.isHost : Place → Bool
  | .host _ => true
  | _ => false

def Move.srcT (m : Move) : Tensor := m.src.run m.len
def Move.dstT (m : Move) : Tensor := m.dst.run m.len

def Tensor.rows (t : Tensor) : Nat := t.e1 * t.e2 * t.e3

/-- Address of the first byte of a DIM1 row in walk order. -/
def Tensor.rowAddr (t : Tensor) (r : Nat) : Nat := t.bitAddr 0 (r % t.e1) (r / t.e1 % t.e2) (r / t.e1 / t.e2) / 8

/-- A piece of a row: row, offset and length. -/
abbrev Piece := Nat × Nat × Nat

/-- The pieces a row falls into at 64-byte lines. -/
def Tensor.rowPieces (t : Tensor) (r : Nat) : List Piece :=
  let a := t.rowAddr r
  let n := t.rowBytes
  (List.range ((a + n - 1) / 64 - a / 64 + 1)).map fun i =>
    let lo := max a ((a / 64 + i) * 64)
    (r, lo - a, min (a + n) ((a / 64 + i + 1) * 64) - lo)

/-- Join neighbouring pieces of one line. -/
def joinPieces (key : Piece → Nat) : List Piece → List (List Piece)
  | [] => []
  | p :: ps => match joinPieces key ps with
    | (q :: qs) :: rest => if key p = key q then (p :: q :: qs) :: rest else [p] :: (q :: qs) :: rest
    | rest => [p] :: rest

/-- The lines of a tensor in walk order: the longest runs of the walk inside one 64-byte line. A line that the walk enters more than
once counts each time (R130; DESIGN CHOICE, assumption 144). -/
def Tensor.lines (t : Tensor) : List (List Piece) :=
  joinPieces (fun p => (t.rowAddr p.1 + p.2.1) / 64) ((List.range t.rows).flatMap t.rowPieces)

/-- The bytes of a line: row and offset. -/
def lineBytes (ps : List Piece) : List (Nat × Nat) :=
  ps.flatMap fun p => (List.range p.2.2).map fun i => (p.1, p.2.1 + i)

/-! ### Formats of a move (R53, R128) -/

/-- The conversions a move may make: those R53 lists as exact, and Q32 to F40. -/
def widens (a b : Fmt) : Bool :=
  let narrow (f : Fmt) : Bool := f == .f4 || f == .f6 || f == .f8a || f == .f8b
  let wide (f : Fmt) : Bool := f == .f24 || f == .f32 || f == .f40
  match a with
  | .f16 => wide b
  | .f24 => b == .f32 || b == .f40
  | .f32 => b == .f40
  | .q4 | .q8 | .q16 => wide b
  | .q32 => b == .f40
  | a => narrow a && (b == .f16 || wide b)

/-- The indices of a DIM0 element of a row. -/
def Tensor.rowIdx (t : Tensor) (r k : Nat) : Nat × Nat × Nat × Nat := (k, r % t.e1, r / t.e1 % t.e2, r / t.e1 / t.e2)

/-- The elements that lie in a byte of a row. -/
def Tensor.byteElems (t : Tensor) (o : Nat) : List Nat :=
  let w := t.fmt.bits
  ((List.range ((8 * o + 7) / w - 8 * o / w + 1)).map (8 * o / w + ·)).filter fun k => decide (k < t.e0)

/-- Bits of a byte of a row that belong to its elements. -/
def Tensor.byteMask (t : Tensor) (o : Nat) : Byte :=
  let n := t.e0 * t.fmt.bits
  if 8 * o + 8 ≤ n then 0xFF else BitVec.ofNat 8 (2 ^ (n - 8 * o) - 1)

/-- The bytes, at addresses of the source, that an element takes. -/
def Tensor.elemAddrs (t : Tensor) (r k : Nat) : List Nat :=
  let b := t.rowAddr r * 8 + k * t.fmt.bits
  (List.range ((b + t.fmt.bits - 1) / 8 - b / 8 + 1)).map (b / 8 + ·)

/-- Reading through bytes already fetched. -/
def bitsVia (g : Nat → Byte × Bool) (ba w : Nat) : Nat :=
  (unle ((List.range ((ba % 8 + w + 7) / 8)).map fun i => (g (ba / 8 + i)).1) >>> (ba % 8)) % 2 ^ w

/-- What a move writes at one byte of its destination. -/
structure MByte where
  addr : Nat
  v : Byte
  mask : Byte
  psn : Bool
  fl : FmtFlags := 0

/-- The byte at offset `o` of row `r` of the destination (R128, R221); `g` reads the source's bytes and `sg` its
scales. Bits [63:40] of an F40 container are written as zero (R41). -/
def moveByte (src dst : Tensor) (g sg : Nat → Byte × Bool) (r o : Nat) : MByte :=
  let addr := dst.rowAddr r + o
  let mask := dst.byteMask o
  if src.fmt == dst.fmt then
    let x := g (src.rowAddr r + o)
    { addr := addr, v := if src.fmt == .f40 && decide (5 ≤ o % 8) then 0 else x.1, mask := mask, psn := x.2 }
  else
    (dst.byteElems o).foldl (fun b k =>
      let i := src.rowIdx r k
      let (x, fl) := src.fmt.decode src.signed (bitsVia g (src.rowAddr r * 8 + k * src.fmt.bits) src.fmt.width)
      let s := if src.scaled then sg (src.scaleAddr i.1 i.2.1 i.2.2.1 i.2.2.2) else (0, false)
      let y := if src.scaled then x.withScale s.1.toNat else x
      let (code, fe) := dst.fmt.encode dst.signed y
      let at_ := k * dst.fmt.bits
      let sh := if 8 * o ≤ at_ then code <<< (at_ - 8 * o) else code >>> (8 * o - at_)
      { b with
        v := b.v ||| BitVec.ofNat 8 sh
        psn := b.psn || s.2 || (src.elemAddrs r k).any fun a => (g a).2
        fl := b.fl ||| fl ||| fe ||| if src.scaled && s.1 == 0xFF then flX8Invalid else 0 })
      { addr := addr, v := 0, mask := mask, psn := false }

/-- Source addresses a byte of the destination needs. -/
def byteNeeds (src dst : Tensor) (r o : Nat) : List Nat :=
  if src.fmt == dst.fmt then [src.rowAddr r + o] else (dst.byteElems o).flatMap (src.elemAddrs r)

def byteScales (src dst : Tensor) (r o : Nat) : List Nat :=
  if src.fmt == dst.fmt || !src.scaled then []
  else (dst.byteElems o).map fun k =>
    let i := src.rowIdx r k
    src.scaleAddr i.1 i.2.1 i.2.2.1 i.2.2.2

/-! ### Counters (R130) -/

/-- Raise an arrival counter: in issue order, a move's lines count once every earlier move that names the counter has
landed whole. Gives the moves and how far the counter rises. -/
def creditMoves (ac : Fin 16) : Bool → List Move → List Move × Nat
  | _, [] => ([], 0)
  | clear, m :: ms =>
    if m.copy || m.ac != ac then
      let r := creditMoves ac clear ms
      (m :: r.1, r.2)
    else if clear then
      let r := creditMoves ac (m.front == m.lines) ms
      ({ m with credited := m.front } :: r.1, r.2 + (m.front - m.credited))
    else (m :: ms, 0)

/-- Chunks of 64 lines that a move has completed (R129, R147; a chunk of partial lines is 64 of its lines too, DESIGN CHOICE,
assumption 116; one counts once every line up to its end has landed, DESIGN CHOICE, assumption 145). -/
def Move.chunksDone (m : Move) : Nat := if m.front = m.lines then ceilDiv m.lines 64 else m.front / 64

/-- The first line of a move that has not landed moves past those that have. -/
def advanceFront : Nat → Nat → List Nat → Nat × List Nat
  | 0, front, l => (front, l)
  | n + 1, front, l => if l.contains front then advanceFront n (front + 1) (l.filter (· != front)) else (front, l)

/-- Moves that are acknowledged and whose lines have all counted leave the mover; a COPY's stays for its task's end. -/
def Move.over (m : Move) : Bool := m.acked && !m.copy && m.credited == m.lines

/-- A line of the move at a position has landed. -/
def Frame.lineLanded (fr : Frame) (i line : Nat) : Frame :=
  match fr.moves[i]? with
  | none => fr
  | some m =>
    let (front, landed) := advanceFront (m.landed.length + 1) m.front (line :: m.landed)
    let m' := { m with front := front, landed := landed }
    let (ms, n) := creditMoves m.ac true (fr.moves.set i m')
    { fr with
      moves := ms
      chunks := fr.chunks + BitVec.ofNat 32 (m'.chunksDone - m.chunksDone)
      regs := { fr.regs with ac := fr.regs.ac.set m.ac.val (fr.regs.ac[m.ac.val] + BitVec.ofNat 32 n) } }

/-- Lines of moves that a counter will still count, and moves that a move counter will. -/
def Frame.acPending (fr : Frame) (ac : Fin 16) : Nat :=
  ((fr.moves.filter fun m => !m.copy && m.ac == ac).map fun m => m.lines - m.credited).sum

def Frame.mcPending (fr : Frame) (mc : Fin 8) : Nat := (fr.moves.filter fun m => !m.copy && !m.acked && m.mc == mc).length

/-! ### MOV (R128, R178, R181) -/

def movIssue (d : Dev) (f : FrameId) (x : Insn) : Issue :=
  let fr := d.frame f
  let dR := fr.regs.getT x.dst
  let aR := fr.regs.getT x.a
  let dt := dR.shape
  let a := aR.shape
  let v := x.mod.toNat
  let ac : Fin 16 := ⟨v % 16, Nat.mod_lt _ (by decide)⟩
  let mc : Fin 8 := ⟨v / 16 % 8, Nat.mod_lt _ (by decide)⟩
  let tch : Option (Fin 64) := if bit v 7 then some ⟨v / 256 % 64, Nat.mod_lt _ (by decide)⟩ else none
  let same := descField dR.desc 0x30 1 == descField aR.desc 0x30 1
  let scales := if !same && a.scaled then a.scaleSpan false else []
  let all := [a.span false, dt.span true] ++ scales
  let lines := dt.lines.length
  let c0 := need (dR.ok (!same) && aR.ok (!same)) 0x03
    |>.then_ fun _ => need (a.e0 == dt.e0 && a.e1 == dt.e1 && a.e2 == dt.e2 && a.e3 == dt.e3) 0x03
    |>.then_ fun _ => need (dR.known && aR.known
        && (same || (widens a.fmt dt.fmt && !dt.scaled && (!a.scaled || a.fmt.scalable)))) 0x02
    |>.then_ fun _ => checkLs all
    |>.then_ fun _ => checkEff fr ((Right.w, dt.span true) :: (Right.r, a.span false) :: scales.map (Right.r, ·))
    |>.then_ fun _ => need (decide (fr.regs.ac[ac.val].toNat + fr.acPending ac + lines < 2 ^ 32)
        && decide (fr.regs.mc[mc.val].toNat + fr.mcPending mc + 1 < 2 ^ 32)) 0x09
  match c0 with
  | .bad code ad => .fault code 4 ad
  | .ok =>
    if 64 ≤ (fr.moves.filter (!·.acked)).length || fr.overlaps all then .hold d
    else
      let m : Move := {
        word := insnWord .mov x, src := .tensor a, dst := .tensor dt, ac := ac, mc := mc, tch := tch, lines := lines
        stamp := fr.stamp }
      .next (d.updFrame f fun fr => { fr with moves := fr.moves ++ [m], stamp := fr.stamp + 1 })

def movBody : Body :=
  { legal := fun x => fieldsOk x rT rT none none && decide (x.mod.toNat < 2 ^ 14)
    uses := fun x => [.t x.dst, .t x.a]
    unit := 4
    act := fun d f x _ => movIssue d f x }

/-! ### Landing (R129, R130, R221) -/

/-- Translate the pages some addresses lie on. -/
def Dev.viewOf (d : Dev) (f : FrameId) (space : Bool) (addrs : List Nat) (a : Acc6) : Dev × Except XErr View :=
  if !space then (d, .ok (lsView f))
  else
    match d.pages f (d.frame f).ctx a (addrs.map (· / 0x10000)).dedup with
    | (d, .error x) =>
      (d, .error { x with va := ((addrs.find? fun b => b / 0x10000 == x.va / 0x10000)).getD x.va })
    | (d, .ok m) => (d, .ok { f := f, space := true, pages := m })

/-- Destination addresses of the lines of a move that have not landed. -/
def Move.openAddrs (m : Move) : List Nat :=
  let t := m.dstT
  ((List.zip (List.range m.lines) t.lines).filter fun p => decide (m.front ≤ p.1) && !m.landed.contains p.1).flatMap
    fun p => (lineBytes p.2).map fun b => t.rowAddr b.1 + b.2

/-- A line may land now: it has not, the move is advanced, and every earlier move that writes the same bytes lets it. -/
def Frame.mayLand (fr : Frame) (i line : Nat) (addrs : List Nat) : Bool :=
  match fr.moves[i]? with
  | none => false
  | some m =>
    fr.activeMove i && decide (line < m.lines) && decide (m.front ≤ line) && !m.landed.contains line
      && !(m.wtags.any fun t => t.2.1 == line)
      && (m.tch.isNone || line == m.front)
      && (fr.moves.take i).all fun e =>
        e.acked || e.front == e.lines
          || ((e.dst.isHost != m.dst.isHost || e.dstT.space != m.dstT.space
              || !(e.openAddrs.any fun a => addrs.contains a)))

/-- Moves that come before or at a stamp in the mover's rotation, which goes on after the move it served last. -/
def Frame.rotationUpTo (fr : Frame) (last s : Nat) : Bool :=
  if fr.turn < last then decide (fr.turn < s) && decide (s ≤ last)
  else decide (fr.turn < s) || decide (s ≤ last)

/-- A line of a move lands, so the mover has begun its chunk: it serves the active moves in rotation, a 4 KiB chunk each, until that
chunk has had its turn (R129; DEDUCED, assumption 125). -/
def Frame.beginChunk (fr : Frame) (i line : Nat) : Frame :=
  match fr.moves[i]? with
  | none => fr
  | some m =>
    if line / 64 < m.begun then fr
    else
      let r := line / 64 + 1 - m.begun
      let serve (k : Nat) (e : Move) : Move :=
        if !fr.activeMove k then e
        else { e with begun := min (ceilDiv e.lines 64) (e.begun + if fr.rotationUpTo m.stamp e.stamp then r else r - 1) }
      { fr with moves := fr.moves.mapIdx serve, turn := m.stamp }

/-- The data of one line: its bytes, or an error, or the source lines still to be read from other devices. -/
inductive LineData where
  | bytes (bs : List MByte)
  | missing (as_ : List Nat)
  | bad (x : XErr)

/-- Form the bytes of a line from memory, bytes read from other devices, or the host. -/
def Dev.lineData (d : Dev) (f : FrameId) (m : Move) (ps : List (Nat × Nat)) (host : List Byte) (hostPsn : Bool) :
    Dev × LineData :=
  let src := m.srcT
  let dst := m.dstT
  match m.src with
  | .host _ => (d, .bytes ((List.zip ps host).map fun p =>
      { addr := dst.rowAddr p.1.1 + p.1.2, v := p.2, mask := 0xFF, psn := hostPsn }))
  | _ =>
    let needs := (ps.flatMap fun p => byteNeeds src dst p.1 p.2).dedup
    let sneeds := (ps.flatMap fun p => byteScales src dst p.1 p.2).dedup
    match d.viewOf f src.space needs .read with
    | (d, .error x) => (d, .bad x)
    | (d, .ok v) => match d.viewOf f src.scaleSpace sneeds .read with
      | (d, .error x) => (d, .bad x)
      | (d, .ok sv) =>
        let far := (needs.filter fun a => (v.remote a).isSome) ++ (sneeds.filter fun a => (sv.remote a).isSome)
        let miss := far.filter fun a => (m.rdata.get? a).isNone
        if !miss.isEmpty then (d, .missing (miss.map fun a => a / 64 * 64).dedup)
        else
          let get (v : View) (a : Nat) : Byte × Bool :=
            if (v.remote a).isSome then (m.rdata.get? a).getD (0, false)
            else (d.mem.byte (v.pa a), d.mem.poisonedAt (v.pa a))
          (d, .bytes (ps.map fun p => moveByte src dst (get v) (get sv) p.1 p.2))

/-- Update the move of a frame at a position. -/
def Dev.updMove (d : Dev) (f : FrameId) (i : Nat) (g : Move → Move) : Dev :=
  d.updFrame f fun fr => { fr with moves := fr.moves.modify i g }

/-- Ask another device for the 64-byte line at a virtual address of a frame's context (R354). -/
def Dev.readRemote (d : Dev) (f : FrameId) (o : Origin) (va : Nat) : Dev × Except XErr (BitVec 32) :=
  let c := (d.frame f).ctx
  match d.xlate f.val c va .read with
  | (d, .error x) => (d, .error x)
  | (d, .ok (none, _)) => (d, .error { cause := 0x08, va := va })
  | (d, .ok (some dev, pa)) =>
    let (d1, t) := d.newTag o (fabAddr dev pa) 64
    let (d2, ok) := d1.sendFlit (d1.mkFlit classB 0x05 (d.ctx c).job dev
      (le 8 (fabAddr dev pa).toNat ++ le 4 64 ++ le 4 t.toNat))
    if ok then (d2, .ok t) else (d2.dropReq t, .error { cause := 0x08, va := va, fab := some (fabAddr dev pa).toNat })

/-- Write the bytes at a virtual address to another device (R354). -/
def Dev.writeRemote (d : Dev) (c : BitVec 12) (o : Origin) (va : Nat) (dev : BitVec 15) (pa : Nat) (bs : List Byte)
    (psn : Bool) : Dev × Except XErr (BitVec 32) :=
  let (d1, t) := d.newTag o (fabAddr dev pa) bs.length true
  let (d2, ok) := d1.sendFlit (d1.mkFlit classB 0x07 (d.ctx c).job dev
    (le 8 (fabAddr dev pa).toNat ++ le 4 t.toNat ++ zeros 4 ++ bs) psn)
  if ok then (d2, .ok t) else (d2.dropReq t, .error { cause := 0x08, va := va, fab := some (fabAddr dev pa).toNat })

/-- Record an imprecise translation error of a frame's access (R135, R164, R205). The frame's fault address is the virtual one;
a bell has none (R144). -/
def Dev.accessFault (d : Dev) (f : FrameId) (x : XErr) (a : Acc6) (unit : Nat) (word : Word) : Dev :=
  let d := d.memFault (d.frame f).ctx x a unit f.val
  d.updFrame f fun fr => fr.stopWith {
    code := 0x06, unit := BitVec.ofNat 4 unit, precise := false, addrV := !x.bell
    addr := if x.bell then 0 else BitVec.ofNat 52 x.va, space := !x.bell, insn := word }

/-- A move that met an error writes nothing more (R135, R182). -/
def Dev.failMove (d : Dev) (f : FrameId) (i : Nat) (x : XErr) (a : Acc6) : Dev :=
  match (d.frame f).moves[i]? with
  | none => d
  | some m =>
    (d.updMove f i fun m => { m with acked := true, rtags := [], wtags := [] }).accessFault f x a 4 m.word

/-- Runs of neighbouring addresses of the bytes of a line. -/
def runsOf : List MByte → List (List MByte)
  | [] => []
  | b :: bs => match runsOf bs with
    | (c :: cs) :: rest => if c.addr = b.addr + 1 then (b :: c :: cs) :: rest else [b] :: (c :: cs) :: rest
    | rest => [b] :: rest

/-- Feed bytes to a channel of the frame's tally unit. -/
def Frame.feedCh (fr : Frame) (tch : Option (Fin 64)) (bs : List Byte) (psn : Bool) : Frame :=
  match tch with
  | none => fr
  | some ch =>
    let c := (fr.chans[ch.val]).feed bs psn
    { fr with chans := fr.chans.set ch.val c, poison := fr.poison || c.poison }

/-- Write a line into this device's memory. -/
def Dev.putLine (d : Dev) (f : FrameId) (i line : Nat) (m : Move) (v : View) (bs : List MByte) : Dev :=
  let buf := bs.foldl (fun (w : WBuf) b => w.putByte (v.pa b.addr) b.v b.mask) []
  let mem := d.mem.applyBuf buf false
  let bad := (bs.filter (·.psn)).map fun b => v.pa b.addr
  let mem := bad.foldl (fun m a => m.markGran a true) mem
  let psn := !bad.isEmpty
  let fr := d.frame f
  let fr := { fr with poison := fr.poison || psn, fmtFlags := bs.foldl (fun fl (b : MByte) => fl ||| b.fl) fr.fmtFlags }
  let fr := fr.feedCh m.tch (bs.map fun (b : MByte) => mem.byte (v.pa b.addr)) psn
  let d := ({ d with mem := mem } : Dev).setFrame f (fr.lineLanded i line)
  if m.copy && psn then d.updCtx fr.ctx fun c => { c with taint := true } else d

/-- Send a line to another device; it lands with the acknowledgements. -/
def Dev.sendLine (d : Dev) (f : FrameId) (i line : Nat) (m : Move) (v : View) (bs : List MByte) : Dev :=
  let c := (d.frame f).ctx
  let psn := bs.any (·.psn)
  let d := d.updFrame f fun fr =>
    ({ fr with poison := fr.poison || psn, fmtFlags := bs.foldl (fun fl (b : MByte) => fl ||| b.fl) fr.fmtFlags } : Frame).feedCh
      m.tch (bs.map fun (b : MByte) => b.v) psn
  (runsOf bs).foldl (fun d r =>
    match r with
    | [] => d
    | b :: _ => match v.remote b.addr with
      | none => d
      | some dev =>
        match d.writeRemote c (.moveWrite f) b.addr dev (v.pa b.addr) (r.map fun b => b.v) (r.any fun b => b.psn) with
        | (d, .ok t) => d.updMove f i fun m => { m with wtags := m.wtags ++ [(t, line, b.addr)] }
        | (d, .error x) => d.failMove f i x .write) d

/-- Bits of a byte outside the destination's elements keep their contents (R49): for another device the byte is
read first. -/
def Move.fillMask (m : Move) (bs : List MByte) : List MByte :=
  bs.map fun b => if b.mask == 0xFF then b else
    { b with v := (((m.rdata.get? b.addr).getD (0, false)).1 &&& ~~~b.mask) ||| (b.v &&& b.mask), mask := 0xFF }

/-- Ask for the lines a move still needs from other devices. -/
def Dev.requestLines (d : Dev) (f : FrameId) (i : Nat) (as_ : List Nat) : Dev :=
  as_.foldl (fun d a =>
    match (d.frame f).moves[i]? with
    | none => d
    | some m =>
      if m.acked || m.rtags.any fun t => t.2 == a then d
      else match d.readRemote f (.moveRead f) a with
        | (d, .ok t) => d.updMove f i fun m => { m with rtags := m.rtags ++ [(t, a)] }
        | (d, .error x) => d.failMove f i x .read) d

/-- The commit point of host writes of a COPY, before each 4 KiB (R429, R431): true when the line may go. What the next 4 KiB take
from another device is fetched before it, poison and all. -/
def Dev.hostCommit (d : Dev) (f : FrameId) (i : Nat) (m : Move) (off : Nat) : Dev × Bool :=
  let c := (d.frame f).ctx
  let src := m.srcT
  let lo := src.base + off / 4096 * 4096
  let addrs := (List.range (min 4096 (src.base + m.len - lo))).map (lo + ·)
  if m.block == some (off / 4096) then (d, true)
  else match d.viewOf f true addrs .read with
  | (d, .error x) => (d.failMove f i x .read, false)
  | (d, .ok v) =>
    let miss := addrs.filter fun a => (v.remote a).isSome && (m.rdata.get? a).isNone
    if !miss.isEmpty then (d.requestLines f i (miss.map fun a => a / 64 * 64).dedup, false)
    else match d.commitReady c (.copy f) with
      | (d, false) => (d, false)
      | (d, true) =>
        let bad (a : Nat) : Bool :=
          if (v.remote a).isSome then ((m.rdata.get? a).map (·.2)).getD false else d.mem.poisonedAt (v.pa a)
        if d.tainted c (d.frame f) || addrs.any bad then (d.kill c 5 lo { frame := some f }, false)
        else (d.updMove f i fun m => { m with block := some (off / 4096) }, true)

/-- The lines of this device's memory that a line of a move reads: its source, and its destination where only part of a line is
written (R212, R220). -/
def Dev.linesRead (d : Dev) (f : FrameId) (m : Move) (ps : List (Nat × Nat)) : List Nat :=
  let look (space : Bool) (as_ : List Nat) (a : Acc6) : List Nat :=
    match d.viewOf f space as_ a with
    | (_, .ok v) => (as_.filter fun b => (v.remote b).isNone).map fun b => v.pa b / 64
    | (_, .error _) => []
  let src := if m.src.isHost then [] else
    look m.srcT.space (ps.flatMap fun p => byteNeeds m.srcT m.dstT p.1 p.2) .read
      ++ look m.srcT.scaleSpace (ps.flatMap fun p => byteScales m.srcT m.dstT p.1 p.2) .read
  let part := decide (ps.length < 64) || ps.any fun p => m.dstT.byteMask p.2 != 0xFF
  let dst := if m.dst.isHost || !part then [] else look m.dstT.space (ps.map fun p => m.dstT.rowAddr p.1 + p.2) .write
  src ++ dst

/-- A line of a move lands; `errs` is what the memories return for lines it reads. -/
def Dev.landLine (d : Dev) (f : FrameId) (i line : Nat) (host : List Byte) (hostPsn : Bool) (errs : LineErrs := []) : Dev :=
  let fr := d.frame f
  match fr.moves[i]? with
  | none => d
  | some m =>
    match m.dstT.lines[line]? with
    | none => d
    | some pieces =>
      let ps := lineBytes pieces
      let addrs := ps.map fun p => m.dstT.rowAddr p.1 + p.2
      if !fr.mayLand i line addrs || (m.src.isHost && host.length != ps.length) then d
      else
      let d := d.updFrame f fun fr => fr.beginChunk i line
      let d := if errs.isEmpty then d else d.demandRead (d.linesRead f m ps) errs
      match m.dst with
        | .host a =>
          match d.hostCommit f i m (64 * line) with
          | (d, false) => d
          | (d, true) => match d.lineData f m ps host hostPsn with
            | (d, .missing as_) => d.requestLines f i as_
            | (d, .bad _) => d
            | (d, .bytes bs) =>
              let d := d.emit (.hostWrite (a + 64 * line) (bs.map fun b => b.v) false)
              d.updFrame f fun fr => (fr.feedCh m.tch (bs.map fun b => b.v) false).lineLanded i line
        | _ =>
          match d.viewOf f m.dstT.space addrs .write with
          | (d, .error _) => d
          | (d, .ok v) => match d.lineData f m ps host hostPsn with
            | (d, .missing as_) => d.requestLines f i as_
            | (d, .bad _) => d
            | (d, .bytes bs) =>
              if addrs.any fun a => (v.remote a).isSome then
                let part := (bs.filter fun b => b.mask != 0xFF && (m.rdata.get? b.addr).isNone).map fun b => b.addr / 64 * 64
                if part.isEmpty then d.sendLine f i line m v (m.fillMask bs) else d.requestLines f i part.dedup
              else d.putLine f i line m v bs

/-! ### The tally unit (R105, R183–R185) -/

def Dev.setChan (d : Dev) (f : FrameId) (ch : Fin 64) (c : Chan) : Dev :=
  d.updFrame f fun fr => { fr with chans := fr.chans.set ch.val c }

/-- An earlier move that names the channel has bytes left to feed (R184). -/
def Frame.chanFed (fr : Frame) (ch : Fin 64) (before : Nat) : Bool :=
  fr.moves.any fun m => m.tch == some ch && !m.acked && m.front != m.lines && decide (m.stamp < before)

/-- A TYDATA waits for the moves issued before it that feed its channel (R182, R184). -/
def Frame.tyBlocked (fr : Frame) (e : TyEnt) : Bool :=
  match e.job with
  | .data ch _ => fr.chanFed ch e.stamp
  | _ => false

/-- What an instruction does when the tally unit comes to it (R183, R184). A poisoned channel read kills the context (R413). -/
def Dev.runTally (d : Dev) (f : FrameId) (j : TyJob) : Dev :=
  let fr := d.frame f
  match j with
  | .init ch crc32 pfx =>
    let c : Chan := { crc32 := crc32, v := if crc32 then 0xFFFFFFFF else BitVec.allOnes 64 }
    d.setChan f ch (c.feed pfx)
  | .data ch t =>
    let as_ := (List.range t.rows).flatMap fun k => (List.range t.rowBytes).map fun o => lsAddr f (t.rowAddr k + o)
    d.updFrame f fun fr => fr.feedCh (some ch) (as_.map d.mem.byte) (as_.any d.mem.poisonedAt)
  | .read ch dst =>
    let c := fr.chans[ch.val]
    if c.poison then d.kill fr.ctx 6 0 { frame := some f }
    else d.updFrame f fun fr => { fr with regs := fr.regs.setS dst c.v }
  | .write ch v => d.setChan f ch { fr.chans[ch.val] with v := v, poison := false }

/-- The tally unit takes its instructions in order, each as soon as it can (R105; DEDUCED, assumption 13). -/
def Dev.pumpTally (d : Dev) (f : FrameId) : Nat → Dev
  | 0 => d
  | n + 1 =>
    let fr := d.frame f
    match fr.tyQ with
    | [] => d
    | e :: es =>
      if fr.tyBlocked e then d else ((d.setFrame f { fr with tyQ := es }).runTally f e.job).pumpTally f n

/-- Bytes of another device have arrived for a move (R354). -/
def Dev.moveRead (d : Dev) (f : FrameId) (t : BitVec 32) (data : List Byte) (psn : Bool) : Dev :=
  let one (m : Move) : Move :=
    match m.rtags.find? (fun r => r.1 == t) with
    | none => m
    | some r =>
      let got := (List.zip (List.range data.length) data).foldl (fun s b => SMap.put s (r.2 + b.1) (b.2, psn)) m.rdata
      { m with rtags := m.rtags.filter (·.1 != t), rdata := got }
  d.updFrame f fun fr => { fr with moves := fr.moves.map one }

/-- A write of a move has been acknowledged by another device (R130, R354). -/
def Dev.moveWritten (d : Dev) (f : FrameId) (t : BitVec 32) : Dev :=
  d.updFrame f fun fr =>
    match fr.moves.findIdx? (fun m => m.wtags.any fun w => w.1 == t) with
    | none => fr
    | some i => match fr.moves[i]? with
      | none => fr
      | some m => match m.wtags.find? (fun w => w.1 == t) with
        | none => fr
        | some w =>
          let m' := { m with wtags := m.wtags.filter (·.1 != t) }
          let fr := { fr with moves := fr.moves.set i m' }
          if m'.wtags.any fun v => v.2.1 == w.2.1 then fr else fr.lineLanded i w.2.1

/-- The last write of a move is acknowledged (R130): its move counter rises. A COPY has then done its work. -/
def Dev.ackMove (d : Dev) (f : FrameId) (i : Nat) : Dev :=
  d.updFrame f fun fr =>
    match fr.moves[i]? with
    | none => fr
    | some m =>
      if m.acked || m.front != m.lines then fr
      else
        let fr := { fr with moves := (fr.moves.modify i fun m => { m with acked := true }).filter (!·.over) }
        if m.copy then { fr with state := if fr.state == .running then .ending else fr.state }
        else { fr with regs := { fr.regs with mc := fr.regs.mc.set m.mc.val (fr.regs.mc[m.mc.val] + 1) } }

/-! ### Sequencer loads and stores (R178–R180) -/

/-- The address of a form with an s register, below its size ignored. -/
def seqAddr (r : Regs) (x : Insn) (size : Nat) : Nat := (r.getS x.a + imm64 x).toNat / size * size

/-- An access to another device is under way, so the next waits for it (R180). -/
def Frame.remoteBusy (fr : Frame) : Bool := fr.loads.any (·.tag.isSome) || fr.stores.any (·.tag.isSome)

/-- Bytes of an access as a span. -/
def accSpan (space : Bool) (a size : Nat) (write : Bool) : Span :=
  { space := space, lo := a, hi := a + size, write := write }

/-- Check an access of a sequencer instruction; none is a hold (R107, R121, R124). -/
def seqCheck (fr : Frame) (space : Bool) (a size : Nat) (write : Bool) : Check :=
  if space then
    match (if 2 ^ 52 ≤ a then some a else fr.ungranted (if write then .w else .r) a (a + size)) with
    | some b => .bad 0x04 (some (b, true))
    | none => .ok
  else if 0x800000 < a + size then .bad 0x05 (some (a, false))
  else .ok

/-- The load itself: data from this device now, or a request to another (R149, R222). -/
def Dev.startLoad (d : Dev) (f : FrameId) (word : Word) (dst : Dest) (space : Bool) (a size : Nat) : Dev :=
  let add (d : Dev) (l : Load) : Dev := d.updFrame f fun fr => { fr with loads := fr.loads ++ [l] }
  let l : Load := { dst := dst, word := word, addr := BitVec.ofNat 52 a }
  let here (d : Dev) (pa : Nat) : Dev :=
    add d { l with data := d.read pa size, poison := d.mem.readPoison pa size, pa := some pa, virt := space }
  if !space then here d (lsAddr f a)
  else match d.xlate f.val (d.frame f).ctx a .read with
    | (d, .error x) => add d { l with ready := false, err := some { x with va := a } }
    | (d, .ok (none, pa)) => here d pa
    | (d, .ok (some _, _)) => match d.readRemote f (.load f) (a / 64 * 64) with
      | (d, .error x) => add d { l with ready := false, err := some { x with va := a } }
      | (d, .ok t) => add d { l with ready := false, tag := some t, data := zeros size, virt := true }

def loadAct (op : Op) (dst : Insn → Dest) (space : Bool) (size : Nat) (addr : Regs → Insn → Nat)
    (after : Regs → Insn → Regs) : Dev → FrameId → Insn → Word → Issue :=
  fun d f x _ =>
    let fr := d.frame f
    let a := addr fr.regs x
    match seqCheck fr space a size false with
    | .bad code ad => .fault code 0 ad
    | .ok =>
      if fr.remoteBusy || fr.overlaps [accSpan space a size false] then .hold d
      else
        let d := d.startLoad f (insnWord op x) (dst x) space a size
        .next (d.updFrame f fun fr => { fr with regs := after fr.regs x })

/-- The store itself (R180). -/
def Dev.startStore (d : Dev) (f : FrameId) (word : Word) (space : Bool) (a : Nat) (bs : List Byte) : Dev :=
  let add (d : Dev) (s : Store) : Dev := d.updFrame f fun fr => { fr with stores := fr.stores ++ [s] }
  let s : Store := { word := word, addr := BitVec.ofNat 52 a }
  if !space then add (d.write (lsAddr f a) bs) s
  else match d.xlate f.val (d.frame f).ctx a .write with
    | (d, .error x) => add d { s with err := some { x with va := a } }
    | (d, .ok (none, pa)) => add (d.write pa bs) { s with virt := true }
    | (d, .ok (some dev, pa)) => match d.writeRemote (d.frame f).ctx (.store f) a dev pa bs false with
      | (d, .error x) => add d { s with err := some x }
      | (d, .ok t) => add d { s with tag := some t, virt := true }

def storeAct (op : Op) (space : Bool) (size : Nat) (addr : Regs → Insn → Nat) (data : Regs → Insn → List Byte)
    (after : Regs → Insn → Regs) : Dev → FrameId → Insn → Word → Issue :=
  fun d f x _ =>
    let fr := d.frame f
    let a := addr fr.regs x
    match seqCheck fr space a size true with
    | .bad code ad => .fault code 0 ad
    | .ok =>
      if fr.remoteBusy || fr.overlaps [accSpan space a size true] then .hold d
      else
        let d := d.startStore f (insnWord op x) space a (data fr.regs x)
        .next (d.updFrame f fun fr => { fr with regs := after fr.regs x })

/-- No register changes but a load's own. -/
def keepRegs (r : Regs) (_ : Insn) : Regs := r

def sAddr (size : Nat) (r : Regs) (x : Insn) : Nat := seqAddr r x size
def aAddr (r : Regs) (x : Insn) : Nat := (r.getA x.a).toNat / 8 * 8
def aAfter (r : Regs) (x : Insn) : Regs := r.setA x.a (r.getA x.a + imm64 x)
def sData (r : Regs) (x : Insn) : List Byte := le 8 (r.getS x.b).toNat

def tldBody : Body :=
  { legal := fun x => fieldsOk x rT rS none none
    uses := fun x => [.t x.dst, .s x.a]
    act := loadAct .tld (fun x => .t x.dst) true 64 (sAddr 64) keepRegs }
def tldlBody : Body :=
  { legal := fun x => fieldsOk x rT rS none none
    uses := fun x => [.t x.dst, .s x.a]
    act := loadAct .tldl (fun x => .t x.dst) false 64 (sAddr 64) keepRegs }
def ldsBody : Body :=
  { legal := fun x => fieldsOk x rS rS none none
    uses := fun x => [.s x.dst, .s x.a]
    act := loadAct .lds (fun x => .s x.dst) true 8 (sAddr 8) keepRegs }
def ldslBody : Body :=
  { legal := fun x => fieldsOk x rS rS none none
    uses := fun x => [.s x.dst, .s x.a]
    act := loadAct .ldsl (fun x => .s x.dst) false 8 (sAddr 8) keepRegs }
def ldaBody : Body :=
  { legal := fun x => fieldsOk x rS rA none none
    uses := fun x => [.s x.dst]
    act := loadAct .lda (fun x => .s x.dst) true 8 aAddr aAfter }
def stsBody : Body :=
  { legal := fun x => fieldsOk x none rS rS none
    uses := fun x => [.s x.a, .s x.b]
    act := storeAct .sts true 8 (sAddr 8) sData keepRegs }
def stslBody : Body :=
  { legal := fun x => fieldsOk x none rS rS none
    uses := fun x => [.s x.a, .s x.b]
    act := storeAct .stsl false 8 (sAddr 8) sData keepRegs }
def staBody : Body :=
  { legal := fun x => fieldsOk x none rA rS none
    uses := fun x => [.s x.b]
    act := storeAct .sta true 8 aAddr sData aAfter }

/-- TST stores the descriptor; an invalid t register is an invalid descriptor (R110). -/
def tstBody : Body :=
  { legal := fun x => fieldsOk x none rS rT none
    uses := fun x => [.s x.a, .t x.b]
    act := fun d f x imm =>
      if !((d.frame f).regs.getT x.b).valid then .fault 0x03 0 none
      else storeAct .tst true 64 (sAddr 64) (fun r x => le 64 (r.getT x.b).desc.toNat) keepRegs d f x imm }

/-- The eight s registers from a number on. -/
def eightS (i : BitVec 6) : List (BitVec 6) := (List.range 8).map fun k => i + BitVec.ofNat 6 k

def twrBody : Body :=
  { legal := fun x => fieldsOk x rT rS none none && x.mod == 0 && decide (x.a.toNat ≤ 56)
    uses := fun x => .t x.dst :: (eightS x.a).map .s
    act := fun d f x _ => .next (d.updFrame f fun fr =>
      let v := unle ((eightS x.a).flatMap fun i => le 8 (fr.regs.getS i).toNat)
      { fr with regs := fr.regs.setT x.dst { desc := BitVec.ofNat 512 v, valid := true } }) }

def trdBody : Body :=
  { legal := fun x => fieldsOk x rS rT none none && x.mod == 0 && decide (x.dst.toNat ≤ 56)
    uses := fun x => .t x.a :: (eightS x.dst).map .s
    act := fun d f x _ =>
      let t := (d.frame f).regs.getT x.a
      if !t.valid then .fault 0x03 0 none
      else d.withRegs f fun r =>
        (List.range 8).foldl (fun r k => r.setS (x.dst + BitVec.ofNat 6 k) (t.desc.extractLsb' (64 * k) 64)) r }

/-- Replace a field of a descriptor. -/
def putField (v : BitVec 512) (off n val : Nat) : BitVec 512 :=
  let m : BitVec 512 := BitVec.ofNat 512 ((2 ^ n - 1) <<< off)
  (v &&& ~~~m) ||| (BitVec.ofNat 512 ((val % 2 ^ n) <<< off))

def taddbBody : Body :=
  { legal := fun x => fieldsOk x rT none none none
    uses := fun x => [.t x.dst]
    act := fun d f x _ =>
      let t := (d.frame f).regs.getT x.dst
      if !t.valid then .fault 0x03 0 none
      else
        let w := if bit (descField t.desc 0x31 1) 3 then 52 else 23
        let b := (descField t.desc 0 8 % 2 ^ w + (imm64 x).toNat) % 2 ^ w
        d.withRegs f fun r => r.setT x.dst { t with desc := putField t.desc 0 w b } }

def textBody : Body :=
  { legal := fun x => fieldsOk x rT rS none none && decide (x.mod.toNat < 4)
    uses := fun x => [.t x.dst, .s x.a]
    act := fun d f x _ =>
      let fr := d.frame f
      let t := fr.regs.getT x.dst
      let a := (fr.regs.getS x.a).toNat
      if 2 ^ 32 ≤ a then .fault 0x01 0 none
      else if !t.valid then .fault 0x03 0 none
      else d.withRegs f fun r => r.setT x.dst { t with desc := putField t.desc (64 + 32 * x.mod.toNat) 32 a } }

/-! ### The effect list (R120, R506) -/

/-- An entry of an effect list is malformed (R120, R506). -/
def effBad (v : Nat) : Bool :=
  bits v 95 64 != 0 &&
    (let rights := bits v 103 96
     let kind := bits v 111 104
     bits v 127 112 != 0 || rights / 16 != 0 || kind > 1
       || (if kind == 0 then v % 2 ^ 64 ≥ 2 ^ 52 || v % 64 != 0 else v % 2 ^ 64 ≥ 2 ^ 63 || rights != 8))

/-- A fault at take (R506): precise, of the sequencer, with no instruction. -/
def Dev.takeFault (d : Dev) (f : FrameId) (code addr : Nat) : Dev :=
  d.updFrame f fun fr => fr.stopWith {
    code := BitVec.ofNat 8 code, unit := 0, precise := true, addrV := true, addr := BitVec.ofNat 52 addr, space := true }

/-- An entry as FRM_EFF holds and reads it: reserved bits, and a reserved KIND, are 0 (R4, R120). -/
def effKept (v : Nat) : Nat :=
  let kind := if bits v 111 104 ≤ 1 then bits v 111 104 else 0
  v % (if kind = 0 then 2 ^ 52 else 2 ^ 63) + bits v 95 64 * 2 ^ 64 + bits v 99 96 * 2 ^ 96 + kind * 2 ^ 104

/-- The effect list read from an address fills the table, and the first malformed entry faults the task (R506; that it is the
first which FRM_FAULT_ADDR names is a DESIGN CHOICE, assumption 143). -/
def Dev.setEffects (d : Dev) (f : FrameId) (addr : Nat) (bs : List Byte) : Dev :=
  let n := bs.length / 16
  let es := (List.range n).map fun i => BitVec.ofNat 128 (field bs (16 * i) 16)
  let tbl := (List.zip (List.range n) es).foldl (fun (v : Vector (BitVec 128) 16) p =>
    v.setIfInBounds p.1 (BitVec.ofNat 128 (effKept p.2.toNat))) (Vector.replicate 16 0)
  let d := d.updFrame f fun fr => { fr with eff := tbl }
  match es.findIdx? fun e => effBad e.toNat with
  | some i => d.takeFault f 0x04 (addr + 16 * i)
  | none => d

/-- The address of the effect list of the task on a frame. -/
def Dev.effAddr (d : Dev) (f : FrameId) : Nat := ((((d.frame f).task.bind d.task?)).map (·.eff.toNat)).getD 0

/-- Once every line of the effect list has come, the table is filled; a poisoned line kills the context (R222, R506). -/
def Dev.landEffects (d : Dev) (f : FrameId) : Dev :=
  let fr := d.frame f
  let (es, ls) := fr.loads.partition (·.dst == .eff)
  if es.any fun l => !l.ready || l.err.isSome then d
  else
    let d := d.setFrame f { fr with loads := ls }
    if es.any (·.poison) then d.kill fr.ctx 6 (d.effAddr f) { frame := some f }
    else d.setEffects f (d.effAddr f) (es.flatMap (·.data))

/-- An access of a sequencer load failed (R135, R205). The effect list's is found at the take (R506). -/
def Dev.failLoad (d : Dev) (f : FrameId) (i : Nat) (x : XErr) : Dev :=
  let fr := d.frame f
  match fr.loads[i]? with
  | none => d
  | some l =>
    if l.dst == .eff then
      ((d.setFrame f { fr with loads := fr.loads.filter (·.dst != .eff) }).memFault fr.ctx x .read 0 f.val).takeFault f 0x06
        (d.effAddr f)
    else (d.setFrame f { fr with loads := fr.loads.eraseIdx i }).accessFault f x .read 0 l.word

/-! ### Loads land, stores are acknowledged (R150, R180) -/

/-- A load meets errors in the lines it read: the bytes they change, and their poison (R212, R225). -/
def Dev.loadErrors (d : Dev) (l : Load) (errs : LineErrs) : Dev × Load :=
  match l.pa with
  | none => (d, l)
  | some pa =>
    let n := l.data.length
    if errs.any fun e => (linesOf pa n).contains e.1 then
      let d' := d.demandRead (linesOf pa n) errs
      (d', { l with
        data := (List.zip l.data (List.zip (d.read pa n) (d'.read pa n))).map fun p =>
          if p.2.1 == p.2.2 then p.1 else p.2.2
        poison := l.poison || d'.mem.readPoison pa n })
    else (d, l)

/-- A load's data lands in its register (R150); poison kills the context and no register is loaded (R222, R431). `errs` is what
the memory returns for lines it reads. -/
def Dev.landLoad (d : Dev) (f : FrameId) (i : Nat) (errs : LineErrs := []) : Dev :=
  match (d.frame f).loads[i]? with
  | none => d
  | some l =>
    if !l.ready || l.err.isSome then d
    else
      let (d, l) := d.loadErrors l errs
      let fr := d.frame f
      let off := { fr with loads := fr.loads.eraseIdx i }
      if l.dst == .eff then (d.setFrame f { fr with loads := fr.loads.set i l }).landEffects f
      else if l.poison then (d.setFrame f off).kill fr.ctx 6 l.addr.toNat { frame := some f }
      else d.setFrame f { off with regs := match l.dst with
        | .s k => fr.regs.setS k (BitVec.ofNat 64 (unle l.data))
        | .t k => fr.regs.setT k { desc := BitVec.ofNat 512 (unle l.data), valid := true }
        | .k _ | .eff => fr.regs }

/-- Data of another device arrives for a load: the bytes it asked for out of their line. -/
def Dev.loadArrived (d : Dev) (f : FrameId) (t : BitVec 32) (data : List Byte) (psn : Bool) : Dev :=
  let one (l : Load) : Load :=
    if l.tag == some t then
      { l with tag := none, ready := true, poison := psn, data := slice data (l.addr.toNat % 64) l.data.length }
    else l
  d.updFrame f fun fr => { fr with loads := fr.loads.map one }

def Dev.storeAcked (d : Dev) (f : FrameId) (t : BitVec 32) : Dev :=
  let one (s : Store) : Store := if s.tag == some t then { s with tag := none } else s
  d.updFrame f fun fr => { fr with stores := fr.stores.map one }

/-- A store's acknowledgement returns. -/
def Dev.retireStore (d : Dev) (f : FrameId) (i : Nat) : Dev :=
  match (d.frame f).stores[i]? with
  | none => d
  | some s => if s.tag.isSome || s.err.isSome then d
    else d.updFrame f fun fr => { fr with stores := fr.stores.eraseIdx i }

/-- MOV (R128). -/
def execMov (f : FrameId) (x : Insn) (s : State) : Host.Outcome State Fault Refusal :=
  s.stepDev (s.toDev.issue f .mov x 0 movBody)

/-- MOVE_LINE_LANDED (R130). -/
def execMoveLineLanded (f : FrameId) (i : Nat) (l : LandedLine) (host : List Byte) (hostPoison : Bool) (s : State) :
    Host.Outcome State Fault Refusal :=
  s.stepDev ((s.toDev.landLine f i l.line host hostPoison l.errs).pumpTally f 16)

/-- MOVE_ACKNOWLEDGED (R130). -/
def execMoveAcknowledged (f : FrameId) (i : Nat) (s : State) : Host.Outcome State Fault Refusal :=
  s.stepDev (((s.toDev.ackMove f i).pumpTally f 16).settle f)

/-- TLD (R178). -/
def execTld (f : FrameId) (x : Insn) (s : State) : Host.Outcome State Fault Refusal :=
  s.stepDev (s.toDev.issue f .tld x 0 tldBody)

/-- TLDL (R178). -/
def execTldl (f : FrameId) (x : Insn) (s : State) : Host.Outcome State Fault Refusal :=
  s.stepDev (s.toDev.issue f .tldl x 0 tldlBody)

/-- TST (R178). -/
def execTst (f : FrameId) (x : Insn) (s : State) : Host.Outcome State Fault Refusal :=
  s.stepDev (s.toDev.issue f .tst x 0 tstBody)

/-- TWR (R178). -/
def execTwr (f : FrameId) (x : Insn) (s : State) : Host.Outcome State Fault Refusal :=
  s.stepDev (s.toDev.issue f .twr x 0 twrBody)

/-- TRD (R178). -/
def execTrd (f : FrameId) (x : Insn) (s : State) : Host.Outcome State Fault Refusal :=
  s.stepDev (s.toDev.issue f .trd x 0 trdBody)

/-- TADDB (R179). -/
def execTaddb (f : FrameId) (x : Insn) (s : State) : Host.Outcome State Fault Refusal :=
  s.stepDev (s.toDev.issue f .taddb x 0 taddbBody)

/-- TEXT (R178). -/
def execText (f : FrameId) (x : Insn) (s : State) : Host.Outcome State Fault Refusal :=
  s.stepDev (s.toDev.issue f .text x 0 textBody)

/-- LDS (R178). -/
def execLds (f : FrameId) (x : Insn) (s : State) : Host.Outcome State Fault Refusal :=
  s.stepDev (s.toDev.issue f .lds x 0 ldsBody)

/-- STS (R178). -/
def execSts (f : FrameId) (x : Insn) (s : State) : Host.Outcome State Fault Refusal :=
  s.stepDev (s.toDev.issue f .sts x 0 stsBody)

/-- LDSL (R178). -/
def execLdsl (f : FrameId) (x : Insn) (s : State) : Host.Outcome State Fault Refusal :=
  s.stepDev (s.toDev.issue f .ldsl x 0 ldslBody)

/-- STSL (R178). -/
def execStsl (f : FrameId) (x : Insn) (s : State) : Host.Outcome State Fault Refusal :=
  s.stepDev (s.toDev.issue f .stsl x 0 stslBody)

/-- LDA (R178). -/
def execLda (f : FrameId) (x : Insn) (s : State) : Host.Outcome State Fault Refusal :=
  s.stepDev (s.toDev.issue f .lda x 0 ldaBody)

/-- STA (R178). -/
def execSta (f : FrameId) (x : Insn) (s : State) : Host.Outcome State Fault Refusal :=
  s.stepDev (s.toDev.issue f .sta x 0 staBody)

/-- LOCKED_REGISTER_UNLOCK (R150). -/
def execLockedRegisterUnlock (f : FrameId) (l : LandedLoad) (s : State) : Host.Outcome State Fault Refusal :=
  s.stepDev ((s.toDev.landLoad f l.load l.errs).settle f)

/-- STORE_ACKNOWLEDGED (R180). -/
def execStoreAcknowledged (f : FrameId) (i : Nat) (s : State) : Host.Outcome State Fault Refusal :=
  s.stepDev ((s.toDev.retireStore f i).settle f)

end Sys2Proof.Machine
end

