-- ==== Sys2Proof/Machine/Market.lean ====
section
/-! DEFINITION. The Task Market's commands: takes, decrements, semaphore updates, hangs, binding, saving and
restoring contexts, stalls (R237–R272, R292, R472–R474). -/

namespace Sys2Proof.Machine

/-! ### Takes (R240–R242, R252, R296) -/

/-- A task fits a frame: it does not need 128 columns, or the frame has 16 column groups (R240). -/
def Task.fits (t : Task) (fr : Frame) : Bool := !t.w128 || fr.geom.colgrp == 16

/-- The better of two offered tasks: higher priority, then lower offer number (R240). -/
def betterTask (a b : TaskRef × Task) : TaskRef × Task :=
  if a.2.prio.toNat < b.2.prio.toNat || (a.2.prio == b.2.prio && decide (b.2.offer < a.2.offer)) then b else a

/-- The task of a context that a frame would take (R240). -/
def Dev.pickTask (d : Dev) (c : BitVec 12) (fr : Frame) : Option (TaskRef × Task) :=
  let all := (d.mkt.graphs.filter (·.ctx == c)).flatMap fun g =>
    (List.zip (List.range g.tasks.length) g.tasks).map fun p => (({ graph := g.id, idx := p.1 } : TaskRef), p.2)
  let ok := all.filter fun p => p.2.state == .offered && p.2.fits fr
  match ok with
  | [] => none
  | p :: ps => some (ps.foldl betterTask p)

/-- The Market grants takes of the context on its stall (R249, R254, R289). -/
def Dev.mayGrant (d : Dev) (c : BitVec 12) : Bool :=
  let x := d.ctx c
  x.state == .active && x.bound && !x.unbinding && !d.ringStalled (c.setWidth 16)

/-- Contexts bound to a stall, in ascending ID. -/
def Dev.boundTo (d : Dev) (stall : BitVec 9) : List (BitVec 12) :=
  (d.mkt.ctxs.filter fun c => c.2.bound && c.2.stall.toNat == stall.toNat).map fun c => BitVec.ofNat 12 c.1

/-- The context of a stall that a frame's next task comes from, with a task for it. -/
def Dev.candidate (d : Dev) (fr : Frame) (c : BitVec 12) : Option (TaskRef × Task) :=
  if d.mayGrant c then d.pickTask c fr else none

/-- The loop of R252 over the bound contexts of one class, from the round pointer. -/
def Dev.drr (d : Dev) (fr : Frame) (cs : List (BitVec 12)) : Nat → Nat → Dev × Option (BitVec 12 × TaskRef)
  | 0, _ => (d, none)
  | fuel + 1, i =>
    match cs[i % cs.length]? with
    | none => (d, none)
    | some c =>
      let x := d.ctx c
      match d.candidate fr c with
      | some p =>
        if 0 < x.deficit then (d, some (c, p.1))
        else (d.setCtx c { x with deficit := x.deficit + x.weight.toNat * 65536 }).drr fr cs fuel (i + 1)
      | none => (d.setCtx c { x with deficit := min x.deficit 0 }).drr fr cs fuel (i + 1)

/-- Passes the loop may need: until the deepest deficit of the class is paid. -/
def Dev.drrFuel (d : Dev) (cs : List (BitVec 12)) : Nat :=
  (cs.map fun c => ((-(d.ctx c).deficit).toNat / ((d.ctx c).weight.toNat * 65536) + 2)).sum * (cs.length + 1)

/-- The Market's choice for a frame (R240, R252). -/
def Dev.chooseTake (d : Dev) (f : FrameId) : Dev × Option TaskRef :=
  let fr := d.frame f
  let bound := d.boundTo fr.stall
  let live := bound.filter fun c => (d.candidate fr c).isSome
  if live.isEmpty then (d, none)
  else
    let cls := (live.map fun c => (d.ctx c).cls.toNat).foldl max 0
    let cs := bound.filter fun c => (d.ctx c).cls.toNat == cls
    let key := fr.stall.toNat * 4 + cls
    let ptr := (d.mkt.rr.get? key).getD 0
    let i := (cs.findIdx? fun c => decide (ptr ≤ c.toNat)).getD 0
    match d.drr fr cs (d.drrFuel cs) i with
    | (d, none) => (d, none)
    | (d, some (c, t)) => ({ d with mkt := { d.mkt with rr := d.mkt.rr.putD 0 key c.toNat } }, some t)

/-- An idle or ending frame of a stall asks for its next task (R240, R241). A flagged frame takes none (R25). -/
def Dev.requestTake (d : Dev) (f : FrameId) : Dev :=
  let fr := d.frame f
  if d.up && fr.svc.insvc && fr.stallV && !fr.svc.flagged && fr.granted.isNone && fr.guardRun.isNone && d.clusterUp f
      && (fr.state == .idle || fr.state == .ending) then
    d.setFrame f { fr with wantTake := true }
  else d

def Dev.giveTake (d : Dev) (f : FrameId) (t : TaskRef) : Dev :=
  let d := d.updTask t fun x => { x with state := .taken, frame := some f }
  let d := d.updFrame f fun fr => { fr with granted := some t, wantTake := false }
  let x := (d.task? t).getD {}
  ({ d with mkt := { d.mkt with takes := d.mkt.takes + 1 } } : Dev).trace 0 f.val
    (((d.graph? t.graph).map (·.ctx.toNat)).getD 0) x.va.toNat x.offer

/-- A dispatch the scheduler core asked for is refused (R242). -/
def Dev.refuseDispatch (d : Dev) (f : FrameId) (t : TaskRef) : Dev :=
  let d := { d with mkt := { d.mkt with dispatchRefused := true, refusals := satAdd d.mkt.refusals } }
  d.ledger 0x07 0x03 {
    ctx := ((d.graph? t.graph).map (·.ctx.toNat)).getD 0xFFFF, unit := 1, index := f.val
    addr := ((d.task? t).map (·.va.toNat)).getD 0, aux0 := d.lnk.devId.toNat }

/-- Grant a take: the Market's own choice, or the task the scheduler core asks for (R242). Guard work comes before
every context (R424). -/
def Dev.grantTake (d : Dev) (f : FrameId) (req : Option TaskRef) : Dev :=
  let fr := d.frame f
  let asks := fr.wantTake && d.clusterUp f && fr.granted.isNone && !fr.svc.flagged && fr.guardWork.isEmpty && fr.stallV
  match req with
  | none =>
    if !asks then d
    else match d.chooseTake f with
      | (d, some t) => d.giveTake f t
      | (d, none) => d
  | some t =>
    let c := ((d.graph? t.graph).map (·.ctx)).getD 0
    match d.task? t with
    | some x =>
      if x.state == .offered && x.fits fr && d.mayGrant c && (d.ctx c).stall.toNat == fr.stall.toNat then
        if asks then d.giveTake f t else d
      else d.refuseDispatch f t
    | none => d.refuseDispatch f t

/-- The frame as a take leaves it (R55, R109, R144, R160, R161, R185). FRM_CTRL stays as it was (R145). -/
def Frame.taken (fr : Frame) (f : FrameId) (c : BitVec 12) (ref : TaskRef) (t : Task) (ns : Nat) : Frame :=
  let s : Vector Word 64 := ((((Vector.replicate 64 (0 : Word)).set 0 (t.va.setWidth 64)).set 1 t.arg).set 2
    (BitVec.ofNat 64 f.val)).set 3 (c.setWidth 64)
  { fr with
    regs := { s := s }, fmtFlags := 0, state := .running, ctx := c, ctxV := true, pc := t.prog, taskVa := t.va
    taskV := true, fault := {}, pend := none, held := none, loads := [], stores := []
    mmaQ := [], vecQ := [], tyQ := [], stamp := 0, turn := 0, moves := []
    arr := { active := fr.arr.active, shadow := fr.arr.shadow }
    chans := Vector.replicate 64 {}, poison := false, task := some ref, granted := none, wantTake := false
    cycles := ns, killing := false, ringing := none, eff := Vector.replicate 16 0 }

/-- The move that a COPY entry is (R281, R416). -/
def copyMove (src dst len : Nat) (srcHost dstHost : Bool) : Move :=
  { word := 0, src := if srcHost then .host src else .virt src, dst := if dstHost then .host dst else .virt dst
    len := len, tch := some 63, copy := true, lines := len / 64 }

/-- The lines of a run of bytes: address and length of each part. -/
def lineParts (a n : Nat) : List (Nat × Nat) :=
  (List.range ((a + n - 1) / 64 - a / 64 + 1)).map fun i =>
    let lo := max a ((a / 64 + i) * 64)
    (lo, min (a + n) ((a / 64 + i + 1) * 64) - lo)

/-- Load and check the effect list before the first instruction (R120, R506). A list on another device comes line by line, each
a load whose data lands later. -/
def Dev.loadEffects (d : Dev) (f : FrameId) (c : BitVec 12) (t : Task) : Dev :=
  let n := 16 * t.effN
  if n = 0 then d
  else match d.range f.val c .read t.eff.toNat n with
    | (d, .error x) => (d.memFault c x .read 0 f.val).takeFault f 0x06 t.eff.toNat
    | (d, .ok ss) =>
      if ss.any (·.remote.isSome) then
        (lineParts t.eff.toNat n).foldl (fun d p => d.startLoad f 0 .eff true p.1 p.2) d
      else if ss.any fun s => d.mem.readPoison s.pa s.len then d.kill c 6 t.eff.toNat { frame := some f }
      else d.setEffects f t.eff.toNat (ss.flatMap fun s => d.read s.pa s.len)

/-- The take completes on an idle frame (R109, R241, R506). A COPY's task is its move. A stop already requested is met before the
first instruction (R145). -/
def Dev.completeTake (d : Dev) (f : FrameId) : Dev :=
  let fr := d.frame f
  match fr.granted with
  | none => d
  | some ref =>
    if fr.state != .idle || fr.task.isSome || fr.guardRun.isSome then d
    else match d.graph? ref.graph, d.task? ref with
      | some g, some t =>
        let d := d.setFrame f (fr.taken f g.ctx ref t d.ns)
        let d := match g.kind with
        | .copy src dst len sh dh =>
          let seed := seedPrefix (d.ctx g.ctx).job.toNat 0 d.lnk.devId.toNat (BitVec.ofNat 64 g.seq)
          d.updFrame f fun fr => { fr with
            moves := [copyMove src dst len sh dh]
            chans := fr.chans.set 63 (({ v := BitVec.allOnes 64 } : Chan).feed seed) }
        | _ => d.loadEffects f g.ctx t
        d.settle f
      | _, _ => d.setFrame f { fr with granted := none }

/-! ### Hangs (R292) -/

/-- The frame running the oldest TAKEN task of a graph, with the task. -/
def Graph.oldestTaken (g : Graph) : Option Task :=
  (g.tasks.filter (·.state == .taken)).foldl (fun (o : Option Task) t => match o with
    | none => some t
    | some a => if t.offer < a.offer then some t else some a) none

/-- A graph has been quiet for HANG_MS: captured once, the context keeps its state. -/
def Dev.graphHung (d : Dev) (id : Nat) : Dev :=
  match d.graph? id with
  | none => d
  | some g =>
    let cx := d.ctx g.ctx
    let qr := d.queue g.queue
    let isCopy := match g.kind with | .copy .. => true | _ => false
    if g.completed || g.aborted || g.destroyed || g.hung || isCopy || cx.state != .active || !cx.bound
        || qr.hangMs == 0 then d
    else
      let t := g.oldestTaken
      let e := d.entry? g.queue g.seq
      (d.updGraph id fun g => { g with hung := true }).commandFault g.queue (some g.ctx) {
        kind := 4, tag := (t.map (·.tag.toNat)).getD 0, frame := t.bind (·.frame), graph := some id
        entry := (e.map (·.bytes)).getD (zeros 64), ringAddr := (e.map fun e => qr.ringAddrOf e.seq).getD 0 }

/-! ### Binding and unbinding (R250, R253, R254) -/

def Dev.stallFrames (d : Dev) (stall : Nat) : List FrameId :=
  allFrames.filter fun f => (d.frame f).stallV && (d.frame f).stall.toNat == stall

/-- A stall a context may be bound to: between its smallest and largest, and wide enough (R250). -/
def Dev.stallFits (d : Dev) (x : Ctx) (stall : Nat) : Bool :=
  let fs := (d.stallFrames stall).filter fun f => (d.frame f).svc.insvc
  decide (stall < 384) && decide (x.minFrames.toNat ≤ fs.length) && decide (fs.length ≤ x.maxFrames.toNat)
    && (!x.needW128 || fs.any fun f => (d.frame f).geom.colgrp == 16)

/-- The saved image of a context whose header checks (R264). -/
def Dev.goodImage (d : Dev) (c : BitVec 12) : Option SaveImg :=
  let x := d.ctx c
  let h := d.read x.saveArea.toNat 64
  let serial := (d.sec.serial ++ zeros 8).take 8
  if field h 0x38 8 == field h 0 8 && field h 0 8 == x.saveGen.toNat && slice h 0x18 8 == serial then
    d.mkt.saves.find? fun s => s.ctx == c && s.gen == x.saveGen
  else none

/-- Give each image an idle frame of the stall with its column groups (R264); a flagged frame runs no task (R25). -/
def Dev.placeImages (d : Dev) (stall : Nat) : List Image → List FrameId → Option (List (Image × FrameId))
  | [], _ => some []
  | i :: is, used =>
    match (d.stallFrames stall).find? fun f =>
        (d.frame f).free && (d.frame f).svc.insvc && !(d.frame f).svc.flagged && !used.contains f && (d.frame f).geom.colgrp == i.colgrp with
    | none => none
    | some f => (d.placeImages stall is (f :: used)).map fun ps => (i, f) :: ps

/-- Restore a saved context to a stall, or find its image invalid (R264). Only tasks still SAVED are reloaded. -/
def Dev.restoreTo (d : Dev) (c : BitVec 12) (stall : Nat) : Dev :=
  let x := d.ctx c
  match d.goodImage c with
  | none =>
    let d := d.setCtx c { x with state := .stateLost }
    { d with mkt := { d.mkt with imageInvalid := true } }
  | some s =>
    match d.placeImages stall (s.images.filter fun i => ((d.task? i.task).map (·.state)) == some .saved) [] with
    | none => d
    | some ps =>
      let d := d.setCtx c { x with state := .restoring, bound := true, stall := BitVec.ofNat 16 stall }
      ps.foldl (fun d p => d.updFrame p.2 fun fr => { fr with
        state := .restoring, ctx := c, ctxV := true, task := some p.1.task, cycles := d.ns
        wantTake := false }) d

/-- The context has tasks that a save left SAVED (R251, R265). -/
def Dev.hasSaved (d : Dev) (c : BitVec 12) : Bool :=
  d.mkt.graphs.any fun g => g.ctx == c && !g.aborted && !g.destroyed && g.tasks.any (·.state == .saved)

/-- Bind a context to a stall (R250, R264). One that came back from FAULTED after its save is restored too (R251, R265). -/
def Dev.bindCtx (d : Dev) (c : BitVec 12) (stall : Nat) : Dev :=
  let x := d.ctx c
  if x.bound || !d.schedUp || !d.stallFits x stall then d
  else
    match x.state with
    | .active =>
      if d.hasSaved c then d.restoreTo c stall
      else d.setCtx c { x with bound := true, stall := BitVec.ofNat 16 stall }
    | .saved => if x.orphaned then d else d.restoreTo c stall
    | _ => d

/-- The accumulators of an image, as its containers hold them now (R103, R261). -/
def Dev.imageAccs (d : Dev) (i : Image) : SMap Acc :=
  (List.range 65536).foldl (fun m k =>
    SMap.putD {} m k { v := BitVec.ofNat 64 (unle (d.read (i.pa + 0x40000 + 8 * k) 8))
                       poison := (d.read (i.pa + 0x4000 + k / 8) 1).any (·.getLsbD (k % 8)) }) []

/-- Every image is reloaded: the frames run on and the saved tasks are TAKEN again (R103, R264). What the image does not hold
(R136) stays the frame's own, but the last fault, which becomes that of the saved frame (DESIGN CHOICE, assumption 138). A stop
already requested of a frame is met at once (R145), and what its orphan stop held goes on (R301). -/
def Dev.restored (d : Dev) (c : BitVec 12) : Dev :=
  let x := d.ctx c
  if x.state != .restoring then d
  else match d.mkt.saves.find? fun s => s.ctx == c && s.gen == x.saveGen with
    | none => d
    | some s =>
      let fs := allFrames.filter fun f => (d.frame f).state == .restoring && (d.frame f).ctx == c
      let d := fs.foldl (fun d f =>
        let fr := d.frame f
        match s.images.find? fun i => some i.task == fr.task with
        | none => d
        | some i =>
          let d := { d with mem := d.mem.copyRange (i.pa + 0xC0000) (lsAddr f 0) 0x800000 }
          let d := d.updTask i.task fun t => { t with state := .taken, frame := some f }
          d.setFrame f { i.st with
            arr := { i.st.arr with acc := d.imageAccs i }
            geom := fr.geom, svc := fr.svc, stall := fr.stall, stallV := fr.stallV, guardWork := fr.guardWork
            guardRun := fr.guardRun, ramp := { fr.ramp with level := 0, startHold := false }, cycles := fr.cycles
            chunks := fr.chunks, preempt := fr.preempt, step := fr.step, stepWait := fr.stepWait
            state := .running, task := some i.task, held := none, granted := none, wantTake := false }) d
      let d := d.updCtx c fun x => { x with state := .active, orphanStop := false }
      let d : Dev := { d with mkt := { d.mkt with saves := d.mkt.saves.filter (·.ctx != c) } }
      (fs.foldl (fun d f => d.settle f) d).resumeGraphs

/-- The scheduler core unbinds a context; with no task TAKEN it is over at once (R254). -/
def Dev.unbindCtx (d : Dev) (c : BitVec 12) : Dev :=
  let x := d.ctx c
  if !x.bound || x.unbinding || !d.schedUp || x.state == .saving || x.state == .restoring then d
  else (d.setCtx c { x with unbinding := true }).unbindIfOver c

/-- PREEMPT_WAIT has passed and tasks are still TAKEN (R254). Instruction-boundary preemption needs the context's
INSN_PREEMPT and the feature of that name in use (R300). -/
def Dev.preemptWait (d : Dev) (c : BitVec 12) : Dev :=
  let x := d.ctx c
  if d.schedUp && x.unbinding && x.insnPreempt && d.hif.agreed.getLsbD 2 && x.state == .active && d.ctxBusy c then
    let d := d.beginSave c
    (d.ctxFrames c).foldl (fun d f => d.settle f) d
  else d

/-- The scheduler core moves idle frames between stalls; flagged and excluded frames that are idle leave theirs and
leave service (R25, R253). -/
def Dev.reallocate (d : Dev) (ms : List (FrameId × Option Nat)) : Dev :=
  if !d.schedUp then d
  else
  let d := ms.foldl (fun d m =>
    let fr := d.frame m.1
    if !(fr.free && fr.svc.insvc) then d
    else match m.2 with
      | none => d.setFrame m.1 { fr with stallV := false, stall := 0, wantTake := false }
      | some s => if s < 384 then d.setFrame m.1 { fr with stallV := true, stall := BitVec.ofNat 9 s, wantTake := false }
        else d) d
  let out := (allFrames.filter fun f =>
    let fr := d.frame f
    fr.svc.insvc && fr.free && (fr.svc.flagged || fr.svc.excluded)).map fun f =>
      (f, if (d.frame f).svc.flagged then 0x2 else 0x4)
  d.leaveService out

/-! ### Saving (R255, R259–R263, R265, R301) -/

/-- DRAM regions pinned on a comb die (R198). -/
def Memory.pinnedOn (m : Memory) (cd : Nat) : List Nat :=
  (List.range 384).filter fun n => match m.region.toList[n]? with
    | some g => g.pinned && g.cd.toNat == cd
    | none => false

/-- Where a save puts the image of a frame (R263): in a region pinned on the frame's comb die, at a place that a free
value picks, or anywhere in DRAM when its die has no such region (DESIGN CHOICE, assumption 31). -/
def Dev.imagePlace (d : Dev) (r : Nat) (f : FrameId) : Nat :=
  let ns := d.mem.pinnedOn (dieOf f)
  if !ns.isEmpty then
    (ns[r % ns.length]?).getD 0 * 2 ^ 30 + r / 384 % (16384 - 24 * 140) * 0x10000 + f.val % 24 * 0x8C0000
  else r % (0x600000 - 384 * 140) * 0x10000 + f.val * 0x8C0000

/-- The sequencer state of an image (R136, R185, R261): the parts R261 lists, in its order, each at its natural width (DESIGN
CHOICE, assumption 32). -/
def Frame.seqBytes (fr : Frame) : List Byte :=
  let r := fr.regs
  le 8 fr.pc.toNat ++ r.s.toList.flatMap (fun v => le 8 v.toNat) ++ r.a.toList.flatMap (fun v => le 8 v.toNat)
    ++ r.t.toList.flatMap (fun v => le 64 v.desc.toNat) ++ packBools (r.t.toList.map (·.valid))
    ++ r.k.toList.flatMap (fun v => le 32 v.toNat) ++ r.ac.toList.flatMap (fun v => le 4 v.toNat)
    ++ r.mc.toList.flatMap (fun v => le 4 v.toNat) ++ fr.eff.toList.flatMap (fun v => le 16 v.toNat)
    ++ le 8 fr.fmtFlags.toNat ++ fr.chans.toList.flatMap (fun c => le 8 c.v.toNat)
    ++ packBools (fr.chans.toList.map (·.crc32)) ++ packBools (fr.arr.keep.toList.map (·.isSome))

/-- A row of the array holds two half-limb weights in each cell (R70). -/
def halfRow (v : Vector (Option Kept) 7) (row : Nat) : Bool :=
  (List.zip slotGroups v.toList).any fun p => match p.2 with
    | some k => k.half && decide (row / p.1.1.groupRows = p.1.2)
    | none => false

/-- A plane of a weight-limb set: 16,384 limbs in 16-bit containers, row by row; a container of a half-limb row holds the two half
limbs of its cell, a byte each (R66, R70, R261; DESIGN CHOICE, assumption 32). -/
def limbPlane (m : SMap Cell) (v : Vector (Option Kept) 7) (l : Cell → Int) : List Byte :=
  let at_ (r c : Nat) : Int := l ((m.get? (r * 256 + c)).getD {})
  (List.range 128).flatMap fun r => (List.range 128).flatMap fun c =>
    if halfRow v r then le 1 (BitVec.ofInt 8 (at_ r (2 * c))).toNat ++ le 1 (BitVec.ofInt 8 (at_ r (2 * c + 1))).toNat
    else le 2 (BitVec.ofInt 16 (at_ r c)).toNat

/-- Write one frame image (R261). Image traffic that the movers carry does not count in FRM_MOVER.CHUNKS (R147; DESIGN CHOICE,
assumption 117). -/
def Dev.writeImage (d : Dev) (f : FrameId) (t : TaskRef) (pa : Nat) : Dev × Image :=
  let fr := d.frame f
  let n := d.fresh
  let q := fr.seqBytes
  let rest := (List.range (0x4000 - q.length)).map fun i => Config.lostByte n (pa + q.length + i)
  let acc (k : Nat) : Acc := (fr.arr.acc.get? k).getD {}
  let psn := packBools ((List.range 65536).map fun k => (acc k).poison)
  let sets := [(fr.arr.active, fr.arr.keep), (fr.arr.shadow, fr.arr.next)].flatMap fun m =>
    [Cell.l0, Cell.l1, Cell.l2].flatMap fun l => limbPlane m.1 m.2 l
  let accs := (List.range 65536).flatMap fun k => le 8 (acc k).v.toNat
  let d := d.write pa (q ++ rest ++ psn ++ zeros 0xA000 ++ sets ++ accs)
  ({ d with mem := d.mem.copyRange (lsAddr f 0) (pa + 0xC0000) 0x800000, fresh := n + 1 },
    { pa := pa, frame := f, colgrp := fr.geom.colgrp, task := t, st := fr })

/-- Every write of the images is acknowledged: the tasks are SAVED, and COMPLETE is written last (R260, R262). -/
def Dev.finishSave (d : Dev) (c : BitVec 12) : Dev :=
  let fs := d.ctxFrames c
  let (d, r) := d.draw
  let (d, is) := fs.foldl (fun (a : Dev × List Image) f =>
    match (a.1.frame f).task with
    | none => a
    | some t =>
      let (d, i) := a.1.writeImage f t (a.1.imagePlace r.toNat f)
      ((d.updTask t fun x => { x with state := .saved, frame := none }).endOnFrame f, a.2 ++ [i])) (d, [])
  let x := d.ctx c
  let sa := x.saveArea.toNat
  -- the task slot of a Market-block entry is the image's number (DESIGN CHOICE, assumption 139)
  let table := is.flatMap fun i => le 8 i.pa ++ le 2 i.frame.val ++ le 2 i.colgrp ++ le 4 0
  let d := d.write (sa + 0x0A) (le 2 is.length)
  let d := d.write (sa + 0x40) (table ++ zeros (6144 - table.length))
  let d := d.write (sa + 0x2000) (le 8 (BitVec.ofInt 64 x.deficit).toNat ++ le 8 x.fmtFlags.toNat ++ le 8 x.offerSeq ++ zeros 40
    ++ (List.zip (List.range is.length) is).flatMap fun p =>
      le 8 p.1 ++ le 8 p.2.task.graph ++ le 8 p.2.task.idx ++ le 8 p.1 ++ zeros 32)
  let d := d.write (sa + 0x38) (le 8 x.saveGen.toNat)
  let img : SaveImg := { ctx := c, gen := x.saveGen, images := is }
  let d := { d with mkt := { d.mkt with saves := (d.mkt.saves.filter fun (s : SaveImg) => s.ctx != c) ++ [img] } }
  let d := d.setCtx c { x with
    state := if x.saveFault then .faulted else .saved, saveFault := false, bound := false, stall := 0xFFFF
    unbinding := false }
  let d := is.foldl (fun d i => d.trace 3 i.frame.val c.toNat) d
  if x.orphanStop then d.irq 3 else d

/-- Every frame of a context being saved has drained (R262 step 2). -/
def Dev.drained (d : Dev) (c : BitVec 12) : Bool :=
  (d.ctx c).state == .saving && (d.ctxFrames c).all (fun f => (d.frame f).state == .saving)
    && (d.grantedTo c).isEmpty

/-- PREEMPT is set on a frame; one that has issued DONE ends its task first (R145, R255). -/
def Dev.setPreempt (d : Dev) (f : FrameId) : Dev :=
  (d.updFrame f fun fr => { fr with preempt := true }).settle f

/-! ### Stall reset (R472–R474) -/

/-- A level 2 reset replaces a destroy that is under way: the context faults and the destroy never completes (R473, R474; DEDUCED,
assumption 135). -/
def Ctx.replaceDestroy (x : Ctx) : Ctx :=
  if x.state == .destroying then { x with state := .faulted, disc := { x.disc with entry := none } } else x

/-- A level 2 reset: tasks TAKEN on the stall and their contexts fault, and its frames are cleared. -/
def Dev.stallClear (d : Dev) (stall : Nat) : Dev :=
  (d.stallFrames stall).foldl (fun d f =>
    let fr := d.frame f
    let faultT (d : Dev) (t : TaskRef) : Dev :=
      let c := ((d.graph? t.graph).map (·.ctx)).getD 0
      (((d.updTask t fun x => { x with state := .faulted, frame := none }).faultCtx c).updCtx c
        Ctx.replaceDestroy).trace 2 f.val c.toNat
    let d := match fr.granted with
      | some t => (faultT d t).updFrame f fun fr => { fr with granted := none }
      | none => d
    let d := match fr.task with
      | some t => (faultT d t).endOnFrame f
      | none => d
    d.clearFrame f) d

/-- Contexts being saved that have tasks on the stall hold the reset (R474). -/
def Dev.savingOn (d : Dev) (stall : Nat) : List (BitVec 12) :=
  ((d.stallFrames stall).filterMap fun f =>
    let fr := d.frame f
    if fr.task.isSome && (d.ctx fr.ctx).state == .saving then some fr.ctx else none).dedup

/-- A frame has not reached idle after a quiesce or a PREEMPT request, which is what a level 2 reset is raised for (R472). -/
def Frame.stopDue (fr : Frame) : Bool :=
  fr.task.isSome && (fr.killing || (fr.preempt && fr.state != .faulted) || fr.state == .saving)

/-- The scheduler core resets a stall whose frames have not stopped as they were asked to (R472). -/
def Dev.stallReset (d : Dev) (stall : Nat) : Dev :=
  if !d.schedUp || !(d.stallFrames stall).any fun f => (d.frame f).stopDue then d
  else match d.savingOn stall with
  | [] => d.stallClear stall
  | cs => cs.foldl (fun d c => d.updCtx c fun x => { x with resetWait := true }) d

/-- TAKE_REQUEST (R240). -/
def execTakeRequest (f : FrameId) (s : State) : Host.Outcome State Fault Refusal :=
  s.stepDev (s.toDev.requestTake f)

/-- TAKE_GRANT (R252): `req` is a dispatch the scheduler core asks for. -/
def execTakeGrant (f : FrameId) (req : Option TaskRef) (s : State) : Host.Outcome State Fault Refusal :=
  s.stepDev (s.toDev.grantTake f req)

/-- TAKE_COMPLETE (R506). -/
def execTakeComplete (f : FrameId) (s : State) : Host.Outcome State Fault Refusal :=
  s.stepDev (s.toDev.completeTake f)

/-- SUCCESSOR_DECREMENT (R238): the oldest decrement on its way. -/
def execSuccessorDecrement (s : State) : Host.Outcome State Fault Refusal :=
  s.stepDev (match s.mkt.decs with
    | [] => s.toDev
    | x :: xs => ({ s.toDev with mkt := { s.mkt with decs := xs } } : Dev).decArrives x)

/-- SEMAPHORE_UPDATE (R245): the oldest update that has reached cn2. -/
def execSemaphoreUpdate (s : State) : Host.Outcome State Fault Refusal :=
  s.stepDev (match s.mkt.semQ with
    | [] => s.toDev
    | u :: us => ({ s.toDev with mkt := { s.mkt with semQ := us } } : Dev).applySem u)

/-- GRAPH_HANG (R292). -/
def execGraphHang (g : Nat) (s : State) : Host.Outcome State Fault Refusal :=
  s.stepDev (s.toDev.graphHung g)

/-- CONTEXT_BIND (R264). -/
def execContextBind (ctx : BitVec 12) (stall : Nat) (s : State) : Host.Outcome State Fault Refusal :=
  s.stepDev (s.toDev.bindCtx ctx stall)

/-- CONTEXT_UNBIND (R254). -/
def execContextUnbind (ctx : BitVec 12) (s : State) : Host.Outcome State Fault Refusal :=
  s.stepDev (s.toDev.unbindCtx ctx)

/-- PREEMPT_WAIT_EXPIRY (R254). -/
def execPreemptWaitExpiry (ctx : BitVec 12) (s : State) : Host.Outcome State Fault Refusal :=
  s.stepDev (s.toDev.preemptWait ctx)

/-- STALL_REALLOCATION (R253). -/
def execStallReallocation (moves : List (FrameId × Option Nat)) (s : State) : Host.Outcome State Fault Refusal :=
  s.stepDev (s.toDev.reallocate moves)

/-- RESTORE_COMPLETE (R264). -/
def execRestoreComplete (ctx : BitVec 12) (s : State) : Host.Outcome State Fault Refusal :=
  s.stepDev (s.toDev.restored ctx)

/-- STALL_RESET (R472). -/
def execStallReset (stall : Nat) (s : State) : Host.Outcome State Fault Refusal :=
  s.stepDev (s.toDev.stallReset stall)

/-- FRM_CTRL_PREEMPT (R145). -/
def execFrmCtrlPreempt (f : FrameId) (s : State) : Host.Outcome State Fault Refusal :=
  s.stepDev (s.toDev.setPreempt f)

/-- FRM_CTRL_STEP (R145): a write of STEP lets one instruction issue. -/
def execFrmCtrlStep (f : FrameId) (on : Bool) (s : State) : Host.Outcome State Fault Refusal :=
  s.stepDev (s.toDev.updFrame f fun fr => { fr with step := on, stepWait := false })

end Sys2Proof.Machine
end

