-- ==== Sys2Proof/Machine/BarrierOps.lean ====
section
/-! DEFINITION. Shared operations of barrier groups: arrivals, rounds, messages, completion and withdrawal
(R398–R405). -/

namespace Sys2Proof.Machine

/-- ⌈log2 n⌉. -/
def clog2 (n : Nat) : Nat := if n ≤ 1 then 0 else Nat.log2 (n - 1) + 1

/-- ⌈log8 n⌉. -/
def clog8 (n : Nat) : Nat := ceilDiv (clog2 n) 3

def Group.innerRounds (g : Group) : Nat := clog2 g.nIn

def Group.rounds (g : Group) : Nat := clog2 g.nIn + clog8 g.nOut

/-- Member index of an outer and an inner index (R398). -/
def Group.at (g : Group) (o i : Nat) : Nat := o * g.nIn + i

/-- Steps of an outer round: j × 8^a for j from 1 to 7, below N_OUT. -/
def Group.outerSteps (g : Group) (a : Nat) : List Nat :=
  ((List.range 7).map fun j => (j + 1) * 8 ^ a).filter (· < g.nOut)

/-- Members a round sends to (R402). -/
def Group.targets (g : Group) (r : Nat) : List Nat :=
  let o := g.member / max g.nIn 1
  let i := g.member % max g.nIn 1
  if r < g.innerRounds then [g.at o ((i + 2 ^ r) % g.nIn)]
  else (g.outerSteps (r - g.innerRounds)).map fun k => g.at ((o + k) % g.nOut) i

/-- Members a round waits for (R402). -/
def Group.sources (g : Group) (r : Nat) : List Nat :=
  let o := g.member / max g.nIn 1
  let i := g.member % max g.nIn 1
  if r < g.innerRounds then [g.at o ((i + g.nIn - 2 ^ r % g.nIn) % g.nIn)]
  else (g.outerSteps (r - g.innerRounds)).map fun k => g.at ((o + g.nOut - k) % g.nOut) i

def Group.heard (g : Group) (r : Nat) : Bool := (g.sources r).all fun m => g.flags.contains (r, m)

/-- A barrier message (R400). -/
def Group.message (g : Group) (ep : Word) (r : Nat) : List Byte :=
  le 4 g.key.toNat ++ le 8 ep.toNat ++ le 1 r ++ [0] ++ le 2 g.member

/-- Send one message of a round to a member; one to the member itself is delivered here. False is an error response. -/
def Dev.sendBar (d : Dev) (gi : Nat) (ep : Word) (r m : Nat) : Dev × Bool :=
  let g := d.group gi
  if m = g.member then (d.setGroup gi { g with flags := g.flags ++ [(r, m)] }, true)
  else d.sendFlit (d.mkFlit classW 0x04 g.job (((g.members[m]?).getD 0).setWidth 15) (g.message ep r))

/-- Messages got an error response: the group is BROKEN until they are delivered (R405). -/
def Dev.breakGroup (d : Dev) (gi : Nat) (xs : List (Word × Nat × Nat)) : Dev :=
  let g := d.group gi
  (d.setGroup gi { g with state := .broken, failed := (g.failed ++ xs).dedup }).ledger 0x08 0x02 {
    job := g.job.toNat, ctx := g.ctx.toNat, aux0 := gi }

/-- Send the messages of the group's round. -/
def Dev.sendRound (d : Dev) (gi : Nat) : Dev :=
  let g := d.group gi
  (g.targets g.round).foldl (fun d m => match d.sendBar gi g.episode g.round m with
    | (d, true) => d
    | (d, false) => d.breakGroup gi [(g.episode, g.round, m)]) d

/-- The arrival in progress is the Exchange's. -/
def Group.commits (g : Group) : Bool := g.entry.isNone && g.tagged

/-- An arrival is in progress, whether or not the group is BROKEN. -/
def Group.open_ (g : Group) : Bool :=
  g.state == .arrived || (g.state == .broken && if g.commits then !g.past else g.entry.isSome)

/-- The episode whose messages this member sent last. -/
def Group.lastEpisode (g : Group) : Word := if g.open_ || g.tagged then g.episode else g.episode - 1

/-- Every message to another member that the group has sent for that episode. -/
def Group.sentOut (g : Group) : List (Word × Nat × Nat) :=
  let ran := if g.tagged then g.past else g.completions != 0
  ((List.range (if g.open_ then min (g.round + 1) g.rounds else if ran then g.rounds else 0)).flatMap fun r =>
    (g.targets r).filterMap fun m => if m = g.member then none else some (g.lastEpisode, r, m))

/-- Completion of an episode (R403). What the Exchange waits for has been signalled before. -/
def Dev.finishGroup (d : Dev) (gi : Nat) : Dev :=
  let g := d.group gi
  let d := match g.entry with
    | some (q, seq) => match d.entry? q seq with
      | some e => (d.complete q e .ok).1
      | none => d
    | none => d
  let d := if g.relSem.toNat = 0xFFFFFFFF then d else d.addOne g.job g.relSem.toNat
  let d := d.trace 512 0xFFFF g.ctx.toNat gi g.episode.toNat
  let next := g.episode + 1
  let here := match g.later with
    | some (e, _) => !g.tagged && e == next
    | none => false
  d.setGroup gi { g with
    state := .idle, entry := none, round := 0, completions := g.completions + 1
    episode := if g.tagged then g.episode else next, past := g.tagged
    flags := if here then (g.later.map (·.2)).getD [] else []
    later := if here then none else g.later }

/-- The group starts its arrival (R399, R402). In TAGGED mode the episode is the Exchange's. -/
def Dev.beginArrival (d : Dev) (gi : Nat) (a : Arrival) : Dev :=
  let g := d.group gi
  match a with
  | .entry q seq => (d.setGroup gi { g with state := .arrived, round := 0, entry := some (q, seq) }).sendRound gi
  | .commit ep =>
    let same := g.episode == ep && !g.past
    let early := match g.later with | some (e, fl) => if e == ep then some fl else none | none => none
    let drop := match g.later with | some (e, _) => decide (e.toNat ≤ ep.toNat) | none => false
    let stale := (match g.later with | some (e, fl) => if e.toNat < ep.toNat then fl.length else 0 | none => 0)
      + (if same then 0 else g.flags.length)
    (d.setGroup gi { g with
      state := .arrived, round := 0, entry := none, episode := ep, past := false
      flags := if same then g.flags else early.getD []
      later := if drop then none else g.later
      stale := satAdd g.stale stale }).sendRound gi

/-- Run the rounds while what they wait for is here (R402); after a completion the next arrival that waits starts
(R399). True when a commit barrier completed, which the Exchange hears of before the group finishes (R403). -/
def Dev.runGroup (d : Dev) (gi : Nat) : Nat → Dev × Bool
  | 0 => (d, false)
  | fuel + 1 =>
    let g := d.group gi
    if g.state != .arrived then (d, false)
    else if g.rounds ≤ g.round then
      if g.commits then (d, true)
      else
        let d := d.finishGroup gi
        match (d.group gi).waiters with
        | [] => (d, false)
        | a :: as => ((d.setGroup gi { d.group gi with waiters := as }).beginArrival gi a).runGroup gi fuel
    else if g.heard g.round then
      let d := d.setGroup gi { g with round := g.round + 1 }
      ((if g.round + 1 < g.rounds then d.sendRound gi else d)).runGroup gi fuel
    else (d, false)

def Dev.groupFuel (d : Dev) (gi : Nat) : Nat :=
  let g := d.group gi
  (g.rounds + 2) * (g.waiters.length + 2)

/-- An arrival: it starts in an IDLE group and waits in one that is ARRIVED or BROKEN (R399, R405). -/
def Dev.arrive (d : Dev) (gi : Nat) (a : Arrival) : Dev × Bool :=
  let g := d.group gi
  match g.state with
  | .idle =>
    let d := d.beginArrival gi a
    d.runGroup gi (d.groupFuel gi)
  | .free => (d, false)
  | _ => (d.setGroup gi { g with waiters := g.waiters ++ [a] }, false)

/-- The next arrival that waits for an IDLE group starts (R399). -/
def Dev.nextArrival (d : Dev) (gi : Nat) : Dev × Bool :=
  let g := d.group gi
  match g.waiters with
  | [] => (d, false)
  | a :: as =>
    if g.state != .idle then (d, false)
    else ((d.setGroup gi { g with waiters := as }).beginArrival gi a).runGroup gi (d.groupFuel gi)

/-- The Exchange withdraws a commit arrival (R404). -/
def Dev.withdrawArrival (d : Dev) (gi : Nat) (ep : Word) : Dev :=
  let g := d.group gi
  let ws := g.waiters.filter (· != .commit ep)
  if (g.state == .arrived || g.state == .broken) && g.entry.isNone && g.episode == ep then
    d.setGroup gi { g with state := .idle, round := 0, flags := [], failed := [], past := true, waiters := ws }
  else d.setGroup gi { g with waiters := ws }

/-- Place a message of an episode (R401). -/
def Group.place (g : Group) (ep : Word) (r m : Nat) : Group :=
  let add (fl : List (Nat × Nat)) := if fl.contains (r, m) then fl else fl ++ [(r, m)]
  if ep.toNat < g.episode.toNat || (ep == g.episode && g.past) then { g with stale := satAdd g.stale }
  else if ep == g.episode then { g with flags := add g.flags }
  else match g.later with
    | none => { g with later := some (ep, [(r, m)]) }
    | some (e, fl) =>
      if ep == e then { g with later := some (e, add fl) }
      else if e.toNat < ep.toNat then { g with later := some (ep, [(r, m)]), stale := satAdd g.stale fl.length }
      else { g with stale := satAdd g.stale }

end Sys2Proof.Machine
end

