-- ==== Sys2Proof/Machine/ExchangeOps.lean ====
section
/-! DEFINITION. Shared operations of the Exchange: buckets and their adder entries, sending and checking segments,
scale probes and redos, spoiled buckets, step aborts, withdrawal, and the commit (R303–R346). -/

namespace Sys2Proof.Machine

/-! ### Buckets -/

/-- What names a bucket in the adders (R319). -/
structure BKey where
  job : Nat
  step : BitVec 32
  bucket : BitVec 16
  attempt : Nat
  redo : Nat
  deriving DecidableEq, Repr

def Bucket.key (b : Bucket) : BKey :=
  { job := b.job, step := b.step, bucket := b.bucket, attempt := b.attempt, redo := b.redo }

def Dev.bkt? (d : Dev) (k : BKey) : Option Bucket := d.xch.bkts.find? (·.key == k)

def Dev.updBkt (d : Dev) (k : BKey) (f : Bucket → Bucket) : Dev :=
  { d with xch := { d.xch with bkts := d.xch.bkts.map fun b => if b.key == k then f b else b } }

def Dev.dropBkt (d : Dev) (k : BKey) : Dev :=
  { d with xch := { d.xch with bkts := d.xch.bkts.filter (·.key != k) } }

def Dev.updRx (d : Dev) (k : BKey) (stage src : Nat) (probe : Bool) (f : Rx → Rx) : Dev :=
  d.updBkt k fun b => { b with rx := b.rx.map fun r =>
    if r.stage == stage && r.src == src && r.probe == probe then f r else r }

/-- A bucket of the job's current attempt. -/
def Job.current (x : Job) (b : Bucket) : Bool := b.step == x.step && b.attempt == x.attempt

def Job.running (x : Job) : Bool := x.state == .open || x.state == .overdue

def Dev.staleOne (d : Dev) (j : Nat) : Dev := d.updJob j fun x => { x with stale := x.stale + 1 }

/-- The job record of a job ID (R309). -/
def Dev.jobById (d : Dev) (id : BitVec 16) : Option Nat :=
  (List.range 256).find? fun j => (d.job j).state != .free && (d.job j).job == id

/-! ### Link dies and their space (R302, R319, R337, R349) -/

/-- The link die of the port that carries class C packets to or from a rank, a detour's port where there is one (R302, R367,
R377); without a route that of the plane or of the rank's board port. -/
def Dev.carryDie (d : Dev) (x : Job) (peer : Nat) (q : Option Nat) : Nat :=
  let dst := x.devOf peer
  let fl := { d.mkFlit classC 0x01 x.job dst [] with plane := q }
  ((d.route fl).map portDie).getD (match q with | some q => portDie (8 + q) | none => portDie (dst.toNat % 8))

/-- The link die of a packet this device exchanges with a rank (R302). -/
def Dev.pktDie (d : Dev) (x : Coll) (peer i : Nat) (q : Option Nat) : Nat := x.die (d.carryDie x.j peer q) i q

/-- Link dies on which a collective has an adder entry: each DATA packet is matched to one (R319), those of broadcasts and
all-to-alls too, which pass no adder (DEDUCED, assumption 118). -/
def Dev.collDies (d : Dev) (x : Coll) : List Nat :=
  (x.ins.flatMap fun s =>
    let segs := x.segs s.1 s.2 x.j.rank
    (List.zip (List.range segs.length) segs).flatMap fun p =>
      ((p.2.pkts.map (·.1)).dedup).map fun q => d.pktDie x s.2 p.1 q).dedup

/-- The lowest free adder entry of a link die. -/
def Dev.freeEntry (d : Dev) (ld : Nat) : Option Nat :=
  let used := (d.xch.bkts.flatMap (·.ents)).filter (·.1 == ld)
  (List.range 256).find? fun i => !used.contains (ld, i)

/-- Take an entry on each link die, or none at all. -/
def Dev.takeEntries (d : Dev) (held : List (Nat × Nat)) : List Nat → Option (List (Nat × Nat))
  | [] => some []
  | ld :: lds =>
    match held.find? (·.1 == ld) with
    | some e => (d.takeEntries held lds).map (e :: ·)
    | none => match d.freeEntry ld with
      | none => none
      | some i => (d.takeEntries held lds).map ((ld, i) :: ·)

def resendCap : Nat := 0x400000
def earlyCap : Nat := 0x200000

/-- Bytes of a segment that a link die keeps. -/
def SentSeg.bytesOn (s : SentSeg) (ld : Nat) : Nat := ((s.pkts.filter (·.ld == ld)).map (·.pkt.data.length)).sum

/-- Send every packet of a segment, its TALLY last. -/
def Dev.sendSeg (d : Dev) (s : SentSeg) : Dev :=
  s.pkts.foldl (fun d q => d.sendXch q.pkt ((d.job s.job).devOf s.dst) q.plane) d

/-- Bytes in a link die's resend buffer. -/
def Dev.resendUse (d : Dev) (ld : Nat) : Nat := (d.xch.sent.map (·.bytesOn ld)).sum

/-- The resend buffer of every link die that a segment goes to has room for its part (R337). -/
def Dev.roomFor (d : Dev) (s : SentSeg) : Bool :=
  (s.pkts.map (·.ld)).dedup.all fun ld => d.resendUse ld == 0 || decide (d.resendUse ld + s.bytesOn ld ≤ resendCap)

/-- Link-die tally channels in use: of segments sent without their SEG_ACK, and of segments received whose check is not over
(R414). -/
def Dev.usedChs (d : Dev) : List Nat :=
  d.xch.sent.map (·.ch) ++ d.xch.bkts.flatMap fun b => b.rx.flatMap fun r =>
    r.chs.filterMap fun c => if r.good.contains c.1 then none else some c.2

/-- The lowest free tally channel of a link die (R414). -/
def Dev.freeCh (d : Dev) (ld : Nat) : Option Nat :=
  ((List.range 64).map fun c => ld * 64 + c).find? fun c => !d.usedChs.contains c

def SentSeg.die (s : SentSeg) : Nat := (s.pkts.head?.map (·.ld)).getD 0

def XPkt.stage (p : XPkt) : Nat := bits p.ctrl.toNat 7 5
def XPkt.redo (p : XPkt) : Nat := bits p.ctrl.toNat 4 2
def XPkt.attempt (p : XPkt) : Nat := bits p.ctrl.toNat 1 0
def XPkt.probe (p : XPkt) : Bool := p.flags.getLsbD 5

/-- How the values of a packet travel, as far as its header says. -/
def XPkt.wire (p : XPkt) : Wire :=
  if XPkt.probe p then { bits := 8 }
  else match Fmt.ofCode p.fmt.toNat with
    | some f => if f == .g32 then { bits := 32 } else
        { bits := f.bits, blk := XPkt.stage p == 3 && (f == .f16 || f == .f8a) }
    | none => { bits := 64 }

/-- The link die that takes a packet before its collective is known: the one its segment goes to in a board stage, else that of
the port it came by (R302), since the header names no plane (R317, R368; DESIGN CHOICE, assumption 140). A broadcast's board stage
counts as a reduction's. A TALLY's INDEX is its segment. -/
def XPkt.die (p : XPkt) : Nat :=
  let w := XPkt.wire p
  if XPkt.stage p = 0 ∨ XPkt.stage p = 3 then
    if p.kind = 2 then p.index.toNat % 4
    else p.index.toNat / max 1 (ceilDiv (w.fit segData) (max 1 (w.fit pktData))) % 4
  else portDie p.port.toNat

/-- Early data that a link die holds (R319). -/
def Dev.earlyUse (d : Dev) (ld : Nat) : Nat :=
  let es := (d.xch.early.filter fun p => p.kind == 1#8 && XPkt.die p == ld).length
  let bs := (d.xch.bkts.filter fun b => b.state == .early).flatMap (·.rx)
  pktData * (es + (bs.map fun r => (r.pkts.filter fun p => p.2.ld == ld).length).sum)

/-! ### Reading and writing the job's tensors (R303, R312, R316, R332, R334) -/

/-- An access of the Exchange failed: the memory fault record with UNIT 0x9. -/
def Dev.xchError (d : Dev) (j : Nat) (x : XErr) (a : Acc6) : Dev :=
  d.memFault ((d.job j).ctx.setWidth 12) x a 0x9

/-- `n` elements of `b` bits from an address. -/
def Dev.readElems (d : Dev) (j : Nat) (va b n : Nat) : Dev × Except XErr (List Nat × Bool) :=
  match d.readVirt unitXch ((d.job j).ctx.setWidth 12) va (ceilDiv (b * n) 8) with
  | (d, .error x) => (d, .error x)
  | (d, .ok (bs, p)) => (d, .ok (unpackBits b n bs, p))

/-- The history bytes of the committed bank (R328). -/
def Dev.readHist (d : Dev) (j : Nat) (c : CDesc) : Dev × Except XErr (List Nat × Bool) :=
  d.readElems j (c.hist + b2n (d.job j).bank * (c.count / 32)) 8 (c.count / 32)

/-- Write elements from element number `off` of a tensor on; other bits of shared bytes stay (R49). -/
def Dev.writeElems (d : Dev) (j : Nat) (va b off : Nat) (vs : List Nat) (p : Bool) : Dev × Except XErr Unit :=
  if vs.isEmpty then (d, .ok ())
  else
    let lo := b * off / 8
    let hi := ceilDiv (b * (off + vs.length)) 8
    let c := (d.job j).ctx.setWidth 12
    match d.range unitXch c .write (va + lo) (hi - lo) with
    | (d, .error x) => (d, .error x)
    | (d, .ok ss) =>
      if ss.any (·.remote.isSome) then (d, .error (remoteErr va ss))
      else
        let old := unle (ss.flatMap fun s => d.read s.pa s.len)
        let sh := b * off - 8 * lo
        let len := b * vs.length
        let keep := old - (old >>> sh) % 2 ^ len * 2 ^ sh
        (d.writeSegs ss (le (hi - lo) (keep + packBits b vs * 2 ^ sh)) p, .ok ())

/-- ⌈log2⌉ of a magnitude as an X8 code, held to 0–254; none for zero, NaN and infinities. -/
def Num.log2Code (v : Num) : Option Nat :=
  match v with
  | .fin _ m e => if m = 0 then none else some (max 0 (min 254 (127 + ceilLog2Ratio m e 1 0))).toNat
  | _ => none

def Num.unbounded : Num → Bool
  | .fin _ _ _ => false
  | _ => true

/-- The largest magnitude of a block as an X8 code (R330, R331): 0 for a block of zeros. The manual gives no code for
a block with a NaN or an infinity: `w` stands for it. -/
def blockCode (w : Word) (vs : List Num) : Nat :=
  if vs.any Num.unbounded then w.toNat % 255
  else ((vs.foldl Num.maxAbs Num.zero).log2Code).getD 0

/-- Values of `n` block codes that the manual leaves open. -/
def Dev.drawMany (d : Dev) (n : Nat) : Dev × (Nat → Word) :=
  let b := d.fresh
  ({ d with fresh := b + n }, fun i => Config.free (b + i))

/-- Block exponents (R328). -/
def gExps (p : Nat) (hist sats : List Nat) : List Nat :=
  List.zipWith (fun h f => min 254 (h + clog2 p + 4 * f)) hist sats

/-- G32 contributions: mantissas with the overflow flag of the conversion (R327, R329). -/
def gContrib (exps : List Nat) (vs : List Num) : List Word :=
  (List.zip exps (chunked 32 vs)).flatMap fun p =>
    let g := (GBlock.ofNums p.1 p.2).1
    g.m.map fun i => BitVec.ofNat 64 ((i % 2 ^ 32).toNat + b2n g.ovf * 2 ^ 32)

/-- Narrow contributions: codes with their block's scale above them (R46, R332). -/
def narrowContrib (f : Fmt) (vs : List Num) : List Word :=
  (chunked 32 vs).flatMap fun b =>
    let x := blockScale f false b
    b.map fun v =>
      let w := if x = 0xFF then v else v.scale (127 - (x : Int))
      BitVec.ofNat 64 ((Fmt.encode f false w).1 + x * 2 ^ 32)

/-- Read this device's contribution (R321, R326–R328, R331, R332); poison of the source or of the history spoils the
bucket. In G32 mode R327 stands in place of R321, so an F40 source goes to G32 with the one rounding of R48 (DEDUCED,
assumption 119). A pair's NaN is canonical (R40), and of an F40 container only bits [39:0] are read (R41). -/
def Dev.readContrib (d : Dev) (k : BKey) (b : Bucket) (c : CDesc) : Dev × Except XErr Bucket :=
  let x := Coll.mk' (d.job k.job) c b.probe
  let mine := shardIx c.count x.j.nrank x.j.rank
  let n := if c.op == 3 then mine.length else if c.op == 4 && x.j.rank != c.root then 0 else c.count
  let w := if c.pairs && c.indexed then 64 else if c.pairs then 32 else c.srcFmt.bits
  match d.readElems k.job c.src w n with
  | (d, .error e) => (d, .error e)
  | (d, .ok (cs, psn)) =>
    let num (v : Nat) : Num := (Fmt.decode c.srcFmt false v).1
    let f32 (v : Nat) : Word := BitVec.ofNat 64 (Fmt.encode .f32 false (num v)).1
    if c.pairs then
      let ps := if c.indexed then cs.map (BitVec.ofNat 64)
        else (List.zip (List.range n) cs).map fun p => BitVec.ofNat 64 (p.2 + (c.idxBase + p.1) % 2 ^ 32 * 2 ^ 32)
      (d, .ok { b with contrib := ps.map canonPair, bad := b.bad || psn })
    else if c.op == 4 || c.op == 5 then
      let keep := if c.srcFmt == .f40 then 2 ^ 40 else 2 ^ 64
      (d, .ok { b with contrib := cs.map fun v => BitVec.ofNat 64 (v % keep), bad := b.bad || psn })
    else if c.op == 3 then
      let v := if (c.wireOf false).blk then narrowContrib c.wire (cs.map num) else cs.map f32
      (d, .ok { b with contrib := v, bad := b.bad || psn })
    else if !c.g32 then (d, .ok { b with contrib := cs.map f32, bad := b.bad || psn })
    else if b.probe then
      let (d, w) := d.drawMany (c.count / 32)
      let bs := chunked 32 (cs.map num)
      (d, .ok { b with
        contrib := (List.zip (List.range bs.length) bs).map fun p => BitVec.ofNat 64 (blockCode (w p.1) p.2)
        bad := b.bad || psn })
    else
      let exps := gExps x.j.nrank b.hist b.sats
      (d, .ok { b with exps := exps, contrib := gContrib exps (cs.map num), bad := b.bad || psn })

/-! ### Sending (R317, R335–R337, R340) -/

def Bucket.sentOf (b : Bucket) (stage dst : Nat) : Nat :=
  ((b.sent.find? fun s => s.1 == stage && s.2.1 == dst).map (·.2.2)).getD 0

def segSeq (step : BitVec 32) (attempt redo stage seg : Nat) : Word :=
  BitVec.ofNat 64 (step.toNat * 2 ^ 32 + attempt * 2 ^ 30 + redo * 2 ^ 27 + stage * 2 ^ 24 + seg)

/-- The CRC-64 tally of a segment of a sender (R335). -/
def segTally (x : Job) (k : BKey) (stage seg : Nat) (dev : BitVec 15) (bs : List Byte) : Word :=
  crc64 (seedPrefix x.job.toNat k.bucket.toNat dev.toNat (segSeq k.step k.attempt k.redo stage seg) ++ bs)

/-- A packet of a bucket. -/
def bktPkt (x : Job) (k : BKey) (fmt kind flags stage index : Nat) (data : List Byte) (psn : Bool) : XPkt :=
  { src := 0, job := x.job, poison := psn, kind := BitVec.ofNat 8 kind, flags := BitVec.ofNat 8 flags
    ctrl := BitVec.ofNat 8 (k.attempt + k.redo * 4 + stage * 32), fmt := BitVec.ofNat 8 fmt, step := k.step
    bucket := k.bucket, srcRank := BitVec.ofNat 16 x.rank, index := BitVec.ofNat 32 index, data := data }

/-- OVF bits of a packet: blocks it touches that saturated, whatever packet holds the element (R317, R329). -/
def ovfBits (tbl : List (Nat × Word)) (ix : List Nat) : Nat :=
  let bs := blocksOf ix
  let hot := ((tbl.filter fun p => p.2.getLsbD 32).map (·.1 / 32)).dedup
  (List.zip [4, 8, 16] bs).foldl (fun a p => if hot.contains p.2 then a + p.1 else a) 0

/-- The packets of a segment and its tally packet, each with its plane and its link die, `die`. -/
def segPkts (v : XView) (k : BKey) (own : BitVec 15) (die : Option Nat → Nat) (stage i : Nat) (s : Segm)
    (vals : List (List Word)) : List SentPkt :=
  let x := v.x
  let g := x.c.g32 && !x.probe
  let tbl := List.zip (s.pkts.flatMap (·.2)) vals.flatten
  let last := s.pkts.length - 1
  let ds := (List.zip (List.range s.pkts.length) (List.zip s.pkts vals)).map fun p =>
    let fl := (if p.1 = last then 2 else 0) + (if g then ovfBits tbl p.2.1.2 else 0) + b2n x.probe * 32
    ({ pkt := bktPkt x.j k x.c.fmtByte 0x01 fl stage (s.first + p.1) (x.wire.data p.2.2) v.b.bad, plane := p.2.1.1
       ld := die p.2.1.1 } : SentPkt)
  let t := segTally x.j k stage i own (ds.flatMap (·.pkt.data))
  ds ++ [{ pkt := bktPkt x.j k x.c.fmtByte 0x02 (b2n x.probe * 32) stage i (le 4 i ++ le 8 t.toNat) v.b.bad, plane := s.plane
           ld := die s.plane }]

/-- Send the segments of one stream whose values are known, while the resend buffers have room and a tally channel is free
(R337, R414). -/
def Dev.sendStream (d : Dev) (k : BKey) (v : XView) (stage dst : Nat) : Dev :=
  let segs := v.x.segs stage v.x.j.rank dst
  let from_ := v.b.sentOf stage dst
  let r := ((List.zip (List.range segs.length) segs).drop from_).foldl (fun (a : Dev × Bool) s =>
    if !a.2 then a
    else match s.2.pkts.mapM fun p => p.2.mapM fun e => v.out stage e with
      | none => (a.1, false)
      | some vals =>
        let seg : SentSeg := {
          job := k.job, dst := dst, step := k.step, bucket := k.bucket, attempt := k.attempt
          redo := k.redo, stage := stage, seg := s.1, probe := v.x.probe
          pkts := segPkts v k a.1.lnk.devId (a.1.pktDie v.x dst s.1) stage s.1 s.2 vals }
        match a.1.roomFor seg, a.1.freeCh seg.die with
        | true, some ch =>
          let d := a.1.sendSeg seg
          let d := { d with xch := { d.xch with sent := d.xch.sent ++ [{ seg with ch := ch }] } }
          (d.updBkt k fun b =>
            let rest := b.sent.filter fun (t : Nat × Nat × Nat) => !(t.1 == stage && t.2.1 == dst)
            { b with sent := rest ++ [(stage, dst, s.1 + 1)] }, true)
        | _, _ => (a.1, false)) (d, true)
  r.1

def XView.allSent (v : XView) : Bool :=
  v.x.outs.all fun s => decide ((v.x.segs s.1 v.x.j.rank s.2).length ≤ v.b.sentOf s.1 s.2)

/-- A WITHDRAWN packet on each stream of a collective that still has segments to send (R346). -/
def Dev.withdrawStreams (d : Dev) (k : BKey) (x : Coll) (b : Bucket) : Dev :=
  x.outs.foldl (fun d s =>
    match (x.segs s.1 x.j.rank s.2)[b.sentOf s.1 s.2]? with
    | none => d
    | some g => d.sendXch (bktPkt x.j k x.c.fmtByte 0x01 (1 + b2n x.probe * 32) s.1 g.first [] b.bad)
        (x.j.devOf s.2) (g.pkts.head?.bind (·.1))) d

/-- The WITHDRAWN packets of a collective (R346): one on each stream it still owes, those after a scale probe included. One that
has not started owes a probe when its history asks for one (R331). -/
def Dev.withdrawColl (d : Dev) (k : BKey) (c : CDesc) (b : Bucket) : Dev :=
  let started := b.state == .active || b.state == .redo || b.state == .spoiled
  let (d, probing) := if !c.g32 || started then (d, b.probe)
    else match d.readHist k.job c with
      | (d, .ok (h, _)) => (d, h.any (· == 0xFF))
      | (d, .error _) => (d, false)
  if probing then
    (d.withdrawStreams k (Coll.mk' (d.job k.job) c true) b).withdrawStreams k (Coll.mk' (d.job k.job) c false) { b with sent := [] }
  else d.withdrawStreams k (Coll.mk' (d.job k.job) c false) b

/-- Withdraw one collective that is in the adders, whose entries are free then (R346). -/
def Dev.withdrawBkt (d : Dev) (k : BKey) : Dev :=
  match d.bkt? k with
  | none => d
  | some b => (match b.desc with
    | none => d
    | some c => d.withdrawColl k c b).dropBkt k

/-- Withdraw a collective that was fetched and is held (R346). -/
def Dev.withdrawHeld (d : Dev) (j : Nat) (c : CDesc) : Dev :=
  let b : Bucket := { job := j, step := c.step, bucket := c.bucket, attempt := c.attempt, desc := some c }
  d.withdrawColl b.key c b

/-! ### Aborts and spoiled buckets (R340–R343) -/

def Bucket.live (b : Bucket) : Bool := b.state == .active || b.state == .redo || b.state == .spoiled

/-- The bytes of DST that a collective writes. -/
def CDesc.dstLen (c : CDesc) (x : Job) : Nat :=
  ceilDiv (c.dstBits * if c.op == 2 then (shardIx c.count x.nrank x.rank).length else c.count) 8

/-- The DST of a collective that an abort ends may be written in part: its bytes are free values, and the poison marks stay (R439;
DESIGN CHOICE, assumption 141). -/
def Dev.undefineDst (d : Dev) (j : Nat) (b : Bucket) : Dev :=
  match b.desc with
  | none => d
  | some c =>
    if !b.live then d
    else match d.range unitXch ((d.job j).ctx.setWidth 12) .write c.dst (c.dstLen (d.job j)) with
    | (d, .error _) => d
    | (d, .ok ss) =>
      let n := d.fresh
      let mem := (ss.filter (·.remote.isNone)).foldl (fun (m : Memory) s =>
        m.storeBytes s.pa ((List.range s.len).map fun i => Config.lostByte n (s.pa + i))) d.mem
      { d with mem := mem, fresh := n + 1 }

/-- Abort every attempt of the step up to the one named (R342). -/
def Dev.abortStep (d : Dev) (j attempt cause rank : Nat) : Dev :=
  let x := d.job j
  let ends := d.xch.bkts.filter fun b => b.job == j && b.step == x.step && decide (b.attempt ≤ attempt)
  let d := ends.foldl (fun d b => d.undefineDst j b) d
  let d := d.sendPeers x (x.ctl 0x11 (le 1 cause ++ le 2 rank) x.step attempt)
  let d := d.trace 258 0xFFFF x.ctx.toNat x.step.toNat (attempt * 256 + cause)
  let d := d.dropBuckets j fun st a => st == x.step && decide (a ≤ attempt)
  let old (c : CDesc) : Bool := c.step == x.step && decide (c.attempt ≤ attempt)
  let end_ (d : Dev) (m : SMap CDesc) : Dev := match m.get? j with
    | some c => if old c then d.addOne x.job c.doneSem.toNat else d
    | none => d
  let keep (m : SMap CDesc) : SMap CDesc := match m.get? j with
    | some c => if old c then m.del j else m
    | none => m
  let d := end_ (end_ d d.xch.heldDesc) d.xch.commits
  let d := { d with xch := { d.xch with heldDesc := keep d.xch.heldDesc, commits := keep d.xch.commits } }
  let d := d.dropJobWaits j [.job j]
  if x.killWaits then d.jobFault j 0x06
  else if 2 ≤ attempt then d.jobFault j 0x01
  else (d.updJob j fun x => { x with
    attempt := attempt + 1, state := .open, aborts := x.aborts + 1
    results := [], owned := [], tallied := [], finished := [] }).storeStepSem j

/-- This device raises a STEP_ABORT for its current attempt; none is raised after the barrier arrival (R341, R342). -/
def Dev.raiseAbort (d : Dev) (j cause : Nat) : Dev :=
  let x := d.job j
  if x.running then d.abortStep j x.attempt cause x.rank else d

/-- A STEP_ABORT, or what acts as one, from a peer (R320, R341, R342); while the job commits, one for the next step waits. -/
def Dev.peerAbort (d : Dev) (j : Nat) (step : BitVec 32) (attempt cause rank : Nat) : Dev :=
  let x := d.job j
  if step.toNat < x.step.toNat || (step == x.step && decide (attempt < x.attempt)) then d.staleOne j
  else if step == x.step then
    if x.running then d.abortStep j attempt cause rank
    else if x.state == .committing then
      (d.withdrawArrival x.barrier.toNat (BitVec.ofNat 64 (x.step.toNat * 4 + x.attempt))).abortStep j attempt cause rank
    else d
  else if x.state == .committing && step == x.step + 1 then
    d.setJob j { x with nextAbort := x.nextAbort ++ [(attempt, cause, rank)] }
  else d

/-- A segment of a bucket, whatever its redo. -/
def SentSeg.isOf (s : SentSeg) (k : BKey) : Bool :=
  s.job == k.job && s.step == k.step && s.bucket == k.bucket && s.attempt == k.attempt

/-- An entry of a bucket, whatever its redo. -/
def Bucket.isOf (b : Bucket) (k : BKey) : Bool :=
  b.job == k.job && b.step == k.step && b.bucket == k.bucket && b.attempt == k.attempt

/-- A bucket is spoiled: every flit for it carries poison from now on, of whatever redo, and under REPEAT the attempt is aborted,
whether or not its collective has been fetched; under WAIT it goes on (R340, R341). -/
def Dev.spoil (d : Dev) (k : BKey) : Dev :=
  match d.bkt? k with
  | none => d
  | some b =>
    let mark (b : Bucket) : Bucket :=
      if b.isOf k then { b with bad := true, state := if b.live then .spoiled else b.state } else b
    let stain (s : SentSeg) : SentSeg :=
      if s.isOf k then { s with pkts := s.pkts.map fun q => { q with pkt := { q.pkt with poison := true } } } else s
    let d := { d with xch := { d.xch with bkts := d.xch.bkts.map mark, sent := d.xch.sent.map stain } }
    let x := d.job k.job
    if b.state != .done && x.current b && x.running && !x.policy then d.raiseAbort k.job 2 else d

/-- An Exchange access failed: the collective is withdrawn and the job faults (R303). -/
def Dev.xchFault (d : Dev) (k : BKey) (e : XErr) (a : Acc6) : Dev :=
  ((d.xchError k.job e a).withdrawBkt k).jobFault k.job 0x05

/-! ### Progress: sending, probes and redos (R319, R329, R331) -/

/-- Read the contribution of a bucket and let it send. -/
def Dev.loadBkt (d : Dev) (k : BKey) (st : BState) : Dev :=
  match d.bkt? k with
  | none => d
  | some b => match b.desc with
    | none => d
    | some c => match d.readContrib k b c with
      | (d, .error e) => d.xchFault k e .read
      | (d, .ok b') =>
        let d := d.updBkt k fun _ => { b' with state := st }
        if b'.bad then d.spoil k else d

/-- The scale probe has ended: the agreed codes are the histories of this bucket (R331). -/
def Dev.endProbe (d : Dev) (k : BKey) (ws : List Word) : Dev :=
  (d.updBkt k fun b => { b with
    probe := false, sent := []
    hist := ws.map fun w => if w.toNat = 0 then 127 else w.toNat }).loadBkt k .active

/-- Reissue a bucket with REDO one higher (R329); data that already came for that redo is taken over. -/
def Dev.redoBkt (d : Dev) (k : BKey) (sats : List Nat) : Dev × BKey :=
  let k' := { k with redo := k.redo + 1 }
  let early := d.bkt? k'
  let d := d.dropBkt k'
  let d := d.updBkt k fun b => { b with
    redo := k.redo + 1, sent := [], phase := d.ns, onWag := false
    rx := (early.map (·.rx)).getD [], bad := b.bad || (early.map (·.bad)).getD false
    sats := (List.zip (List.range b.sats.length) b.sats).map fun p => if sats.contains p.1 then p.2 + 1 else p.2 }
  let d := (d.updJob k.job fun x => { x with redos := x.redos + 1 }).trace 259 0xFFFF (d.job k.job).ctx.toNat
  (d.loadBkt k' .redo, k')

/-- Check one segment of a stream (R335, R336): acknowledged, or asked for again; a second mismatch makes it missing, and
under WAIT it is asked for again at each report interval only. -/
def Dev.checkSeg (d : Dev) (k : BKey) (x : Coll) (stage src i : Nat) (s : Segm) : Dev :=
  match (d.bkt? k).bind fun b => (b.rx.find? fun r => r.stage == stage && r.src == src && r.probe == x.probe).map fun r => (b, r) with
  | none => d
  | some (b, r) =>
    let got := (List.zip (List.range s.pkts.length) s.pkts).mapM fun p =>
      (r.pkts.get? (s.first + p.1)).map fun q => q.data.take (x.wire.len p.2.2.length)
    match r.tallies.get? i, got with
    | some t, some bs =>
      if r.good.contains i then d
      else
        let own := segTally x.j k stage i (x.j.devOf src) bs.flatten
        let reply (d : Dev) (kind : Nat) : Dev :=
          d.sendXch (bktPkt x.j k x.c.fmtByte kind (b2n x.probe * 32) stage i (le 4 i) b.bad) (x.j.devOf src) s.plane
        if own = t then
          reply (d.updRx k stage src x.probe fun r => { r with good := r.good ++ [i] }) 0x03
        else
          let n := ((r.bad.get? i).map (·.1)).getD 0 + 1
          let d := d.updRx k stage src x.probe fun r => { r with
            pkts := r.pkts.filter fun q => !(decide (s.first ≤ q.1) && decide (q.1 < s.first + s.pkts.length))
            tallies := r.tallies.del i, bad := r.bad.put i (n, own, t) }
          let d := d.ledger 0x05 0x01 {
            job := x.j.job.toNat, step := k.step.toNat, ctx := x.j.ctx.toNat, attempt := k.attempt
            ta := own.toNat, tb := t.toNat, aux0 := src, aux1 := i }
          let d := if n = 1 then d else { d with xch := { d.xch with resendFail := true } }
          if n = 1 then reply d 0x04 else if x.j.policy then d else d.raiseAbort k.job 4
    | _, _ => d

/-- Check every segment that has arrived of a bucket (R319, R335). -/
def Dev.checkBkt (d : Dev) (k : BKey) : Dev :=
  match d.bkt? k with
  | none => d
  | some b => match b.desc with
    | none => d
    | some c => b.rx.foldl (fun d r =>
        let x := Coll.mk' (d.job k.job) c r.probe
        let segs := x.segs r.stage r.src x.j.rank
        (List.zip (List.range segs.length) segs).foldl (fun d s => d.checkSeg k x r.stage r.src s.1 s.2) d) d

/-- Blocks of a G32 result that saturated. -/
def satBlocks (x : Coll) (ws : List Word) : List Nat :=
  (((List.zip x.wants ws).filter fun p => p.2.getLsbD 32).map (·.1 / 32)).dedup

/-- A bucket whose collective has begun and goes on, or is complete and still has segments to send, with its view. -/
def Dev.viewBkt (d : Dev) (k : BKey) : Option XView :=
  (d.bkt? k).bind fun b => if b.live || b.owes then b.desc.map fun c => { x := Coll.mk' (d.job k.job) c b.probe, b := b } else none

/-- A complete bucket that has sent all it owes keeps no data, and leaves its entries once no result tally is awaited. -/
def Dev.settleSent (d : Dev) (k : BKey) : Dev :=
  match d.viewBkt k with
  | none => d
  | some v =>
    if !v.b.owes || !v.allSent then d
    else if v.b.leaves then d.dropBkt k
    else d.updBkt k fun b => { b with owes := false, rx := [], contrib := [] }

/-- Let a bucket that has begun go on as far as it can: check what arrived, send, and once it has sent all it owes end its probe or
reissue it, a spoiled one too (R329). -/
def Dev.progress (d : Dev) (k : BKey) : Nat → Dev
  | 0 => d
  | fuel + 1 =>
    let d := if (d.viewBkt k).isSome then d.checkBkt k else d
    match d.viewBkt k with
    | none => d
    | some v =>
      let d := v.x.outs.foldl (fun d s => d.sendStream k v s.1 s.2) d
      match v.whole, (d.viewBkt k).any (·.allSent) with
      | some ws, true =>
        if v.b.owes then d.settleSent k
        else if v.b.probe then (d.endProbe k ws).progress k fuel
        else
          let sats := if v.x.c.g32 then satBlocks v.x ws else []
          if sats.isEmpty then d
          else if v.b.redo < 7 then
            let (d, k') := d.redoBkt k sats
            d.progress k' fuel
          else if v.b.bad then d
          else d.spoil k
      | _, _ => d

def progressFuel : Nat := 12

/-- Every bucket goes on as far as it can; space freed in a resend buffer serves all jobs (R337). -/
def Dev.progressAll (d : Dev) : Dev :=
  (d.xch.bkts.map (·.key)).foldl (fun d k => d.progress k progressFuel) d

/-! ### Starting a collective (R310–R314) -/

/-- A descriptor taken apart, or none when R312 makes it bad. -/
def CDesc.ofBytes (bs : List Byte) (p : Nat) : Option CDesc :=
  let op := field bs 0 1
  let fl := field bs 1 1
  let root := field bs 0x0C 2
  let n := field bs 0x20 8
  let wc := field bs 0x0A 1
  let dc := field bs 0x0B 1
  let g32 := bit fl 1
  let pairs := op == 6 || op == 7
  match Fmt.ofCode (field bs 3 1), (if pairs then (if wc == 0x80 then some Fmt.f32 else none) else Fmt.ofCode wc),
      (if pairs then (if dc == 0x80 then some Fmt.f32 else none) else Fmt.ofCode dc) with
  | some sf, some wf, some df =>
    let c : CDesc := {
      op := op, timed := bit fl 0, g32 := g32, indexed := bit fl 2, attempt := field bs 2 1, srcFmt := sf
      step := BitVec.ofNat 32 (field bs 4 4), bucket := BitVec.ofNat 16 (field bs 8 2), wire := wf, dstFmt := df
      root := root, src := field bs 0x10 8, dst := field bs 0x18 8, count := n, start := BitVec.ofNat 64 (field bs 0x28 8)
      doneSem := BitVec.ofNat 32 (field bs 0x30 4), idxBase := field bs 0x34 4, hist := field bs 0x38 8 }
    let fmts := match op with
      | 1 | 2 => [Fmt.f16, .f24, .f32, .f40].contains sf && wf == (if g32 then .g32 else .f32) && [Fmt.f32, .f40].contains df
      | 3 => [Fmt.f16, .f24, .f32].contains sf && [Fmt.f32, .f16, .f8a].contains wf && [Fmt.f24, .f32].contains df
      | 4 | 5 => sf != .g32 && sf != .x8 && wf == sf && df == sf
      | 6 | 7 => sf == .f32
      | 8 => field bs 3 1 == 0 && wc == 0 && dc == 0
      | _ => false
    let narrow := g32 || (op == 3 && (wf == .f16 || wf == .f8a))
    if fl / 8 != 0 || field bs 0x0E 2 != 0 || c.attempt > 2 || !fmts || (g32 && op != 1 && op != 2)
        || (c.indexed && !pairs) || (op != 4 && root != 0) || (op == 4 && decide (p ≤ root))
        || (op != 8 && (n == 0 || decide (2 ^ 30 < n))) || (narrow && n % (32 * p) != 0) then none
    else some c
  | _, _, _ => none

/-- The collective of a bucket starts to send (R314, R331). -/
def Dev.beginBkt (d : Dev) (k : BKey) : Dev :=
  match d.bkt? k with
  | none => d
  | some b => match b.desc with
    | none => d
    | some c =>
      let d := d.trace 256 0xFFFF (d.job k.job).ctx.toNat (c.step.toNat * 2 ^ 32 + c.bucket.toNat) c.attempt
      if c.g32 then
        match d.readHist k.job c with
        | (d, .error e) => d.xchFault k e .read
        | (d, .ok (h, psn)) =>
          let d := d.updBkt k fun b => { b with
            probe := h.any (· == 0xFF), hist := h, sats := List.replicate h.length 0, bad := b.bad || psn }
          (d.loadBkt k .active).progress k progressFuel
      else (d.loadBkt k .active).progress k progressFuel

/-- A timed start that has come: the Waggle counter reached it, or is not valid (R314, R395). -/
def Dev.timeReached (d : Dev) (c : CDesc) : Bool := !c.timed || !d.wag.valid || decide (c.start.toNat ≤ d.waggle)

/-- A timed event released while the counter is not valid is counted (R395). -/
def Dev.countEarly (d : Dev) (timed : Bool) : Dev :=
  if timed && !d.wag.valid then { d with wag := { d.wag with earlyRel := satAdd d.wag.earlyRel } } else d

/-- Put a collective of the current attempt into the adders; without the entries it needs it holds the ring (R310). -/
def Dev.enterBkt (d : Dev) (j : Nat) (c : CDesc) : Dev :=
  let k : BKey := { job := j, step := c.step, bucket := c.bucket, attempt := c.attempt, redo := 0 }
  let old := d.bkt? k
  let hold : Dev := { d with xch := { d.xch with heldDesc := d.xch.heldDesc.put j c } }
  if (d.xch.bkts.any fun b => b.job == j && b.step == c.step && b.bucket == c.bucket && b.attempt == c.attempt
      && b.desc.isSome) then hold
  else match d.takeEntries ((old.map (·.ents)).getD []) (d.collDies (Coll.mk' (d.job j) c false)) with
    | none => hold
    | some es =>
      let new : Bucket := { job := j, step := c.step, bucket := c.bucket, attempt := c.attempt }
      let d := match old with
        | some _ => d
        | none => { d with xch := { d.xch with bkts := d.xch.bkts ++ [new] } }
      let d := d.updBkt k fun b => { b with
        desc := some c, ents := es, phase := c.phase, onWag := c.onWag, overdue := c.overdue, state := .waitStart }
      if d.timeReached c then (d.countEarly c.timed).beginBkt k else d

/-- Compare a descriptor with the job's step and attempt (R313). -/
def Dev.placeDesc (d : Dev) (j : Nat) (c : CDesc) : Dev :=
  let x := d.job j
  if c.step == x.step && c.attempt == x.attempt then
    if c.op == 8 then
      let d : Dev := { d with xch := { d.xch with commits := d.xch.commits.put j c } }
      if d.grd.waits.any (·.what == .nextJob j) then d.promoteCommit j
      else d.coverCommit (x.ctx.setWidth 12) (.job j)
    else d.enterBkt j c
  else if c.step.toNat < x.step.toNat || (c.step == x.step && decide (c.attempt < x.attempt)) then
    (d.staleOne j).addOne x.job c.doneSem.toNat
  else if c.step == x.step + 1 && c.attempt == 0 then
    let d : Dev := { d with xch := { d.xch with heldDesc := d.xch.heldDesc.put j c } }
    if c.op == 8 then d.coverCommit (x.ctx.setWidth 12) (.nextJob j) else d
  else d.jobFault j 0x04

/-! ### Commit (R341, R344) -/

/-- Every collective of the attempt is complete and every result tally matched. -/
def Dev.attemptDone (d : Dev) (j : Nat) : Bool :=
  !d.xch.bkts.any fun b => b.job == j && (d.job j).current b && b.desc.isSome && !b.leaves

/-- Arrive at the commit barrier once the guard wait is over; true when the barrier completed at once (R430, R344). -/
def Dev.tryArrive (d : Dev) (j : Nat) : Dev × Bool :=
  let x := d.job j
  match d.xch.commits.get? j with
  | none => (d, false)
  | some c =>
    if x.state != .open || x.withdrawn || !d.attemptDone j || !(c.step == x.step && c.attempt == x.attempt) || !d.timeReached c then (d, false)
    else
      let cx := x.ctx.setWidth 12
      match d.commitReady cx (.job j) with
      | (d, false) => (d.updCtx cx fun y => { y with waiting := waitsHold d.grd.waits cx }, false)
      | (d, true) =>
        if (d.ctx cx).taint then (d.kill cx 1 0 { queue := some x.queue.toNat }, false)
        else
          let d := (d.countEarly c.timed).setJob j { x with state := .committing }
          d.arrive x.barrier.toNat (.commit (BitVec.ofNat 64 (x.step.toNat * 4 + x.attempt)))

/-- The commit barrier completed (R344): the bank flips, the next step begins, and held descriptors start. -/
def Dev.commitStep (d : Dev) (j : Nat) : Dev :=
  let x := d.job j
  if x.state != .committing then d
  else
    let d := d.setJob j { x with
      bank := !x.bank, step := x.step + 1, attempt := 0, state := .open, results := [], owned := []
      tallied := [], finished := [], nextAbort := [], killWaits := false }
    let left := d.xch.bkts.filter fun b => !(b.job == j && b.step == x.step)
    let d := { d with xch := { d.xch with bkts := left } }
    let d := d.storeStepSem j
    let d := match d.xch.commits.get? j with
      | some c => ({ d with xch := { d.xch with commits := d.xch.commits.del j } } : Dev).addOne x.job c.doneSem.toNat
      | none => d
    if x.killWaits then d.jobFault j 0x06
    else
      let d := x.nextAbort.foldl (fun d a => d.peerAbort j (x.step + 1) a.1 a.2.1 a.2.2) d
      match d.xch.heldDesc.get? j with
      | some c =>
        if (d.job j).state == .faulted then d
        else ({ d with xch := { d.xch with heldDesc := d.xch.heldDesc.del j } } : Dev).placeDesc j c
      | none => d

/-- The job whose arrival at a group is in progress: it commits, and does not wait. -/
def Dev.committer (d : Dev) (g : Nat) : Option Nat :=
  (List.range 256).find? fun j => (d.job j).state == .committing && (d.job j).barrier.toNat == g
    && !(d.group g).waiters.contains (.commit (BitVec.ofNat 64 ((d.job j).step.toNat * 4 + (d.job j).attempt)))

/-- A commit barrier completed (R399, R403): the Exchange is signalled, the group finishes, the next arrival that waits starts,
and the job goes on as far as it can, since a barrier of one member completes at once. -/
def Dev.commitGroup (d : Dev) (g : Nat) : Nat → Dev
  | 0 => d
  | fuel + 1 =>
    match d.committer g with
    | none => d
    | some j =>
      let d := (d.commitStep j).finishGroup g
      let d := match d.nextArrival g with
        | (d, true) => d.commitGroup g fuel
        | (d, false) => d
      match d.tryArrive j with
      | (d, true) => d.commitGroup g fuel
      | (d, false) => d

def Dev.commitsFuel (d : Dev) (g : Nat) : Nat := (d.group g).waiters.length + 4

/-- Arrive at the commit barrier, and commit as far as it goes. -/
def Dev.commitLoop (d : Dev) (j : Nat) : Dev :=
  match d.tryArrive j with
  | (d, false) => d
  | (d, true) => let g := (d.job j).barrier.toNat; d.commitGroup g (d.commitsFuel g)

/-- A group arrival whose completion may be the Exchange's. -/
def Dev.arriveAll (d : Dev) (g : Nat) (a : Arrival) : Dev :=
  match d.arrive g a with
  | (d, true) => d.commitGroup g (d.commitsFuel g)
  | (d, false) => d

/-- Run a group that got a message or was mended. -/
def Dev.stirGroup (d : Dev) (g : Nat) : Dev :=
  match d.runGroup g (d.groupFuel g) with
  | (d, true) => d.commitGroup g (d.commitsFuel g)
  | (d, false) => d

/-! ### Withdrawing a job (R304, R345, R346) -/

/-- Withdraw every collective fetched and not complete: how many contributions were sent withdrawn. The device never rejoins the
job's attempts (R346). -/
def Dev.withdrawJob (d : Dev) (j : Nat) : Dev × Nat :=
  if (d.job j).state == .free || (d.job j).state == .faulted then (d, 0)
  else
    let held := (d.xch.heldDesc.get? j).toList.filter (·.op != 8)
    let d := { d with xch := { d.xch with heldDesc := d.xch.heldDesc.del j, commits := d.xch.commits.del j } }
    let d := d.updJob j fun x => { x with withdrawn := true }
    let bs := d.xch.bkts.filter fun b => b.job == j && b.desc.isSome && b.state != .done
    let d := bs.foldl (fun d b => d.withdrawBkt b.key) (d.dropJobWaits j [.job j, .nextJob j])
    (held.foldl (fun d c => d.withdrawHeld j c) d, bs.length + held.length)

/-- The context of a job is gone: its record is FREE (R345). -/
def Dev.freeJob (d : Dev) (j : Nat) : Dev × Nat :=
  let x := d.job j
  let (d, n) := d.withdrawJob j
  let d := if x.state == .committing then
      d.withdrawArrival x.barrier.toNat (BitVec.ofNat 64 (x.step.toNat * 4 + x.attempt)) else d
  let d := { d with xch := { d.xch with
    bkts := d.xch.bkts.filter (·.job != j), sent := d.xch.sent.filter (·.job != j)
    heldDesc := d.xch.heldDesc.del j, commits := d.xch.commits.del j
    early := d.xch.early.filter (·.job != x.job) } }
  (d.setJob j {}, n)

end Sys2Proof.Machine
end

