-- ==== Sys2Proof/Machine/Queues.lean ====
section
/-! DEFINITION. Queues: doorbells, the fetcher, the entries of R280, holds, and the writer of completion rings
(R276–R293). -/

namespace Sys2Proof.Machine

/-! ### The fetcher (R277–R285) -/

def QRec.ctx? (r : QRec) : Option (BitVec 12) := if r.ctx.toNat < 4096 then some (r.ctx.setWidth 12) else none

/-- A queue that may fetch and start entries: its context is ACTIVE and not stalled on a ring (R284, R289). Queue 0
has no context. -/
def Dev.mayFetch (d : Dev) (q : Nat) : Bool :=
  let r := d.queue q
  (r.state == .idle || r.state == .fetching || r.state == .held)
    && (match r.ctx? with
      | none => true
      | some c => (d.ctx c).state == .active && !d.ringStalled r.ctx)

/-- A fault of the queue itself, with no entry to complete (R277). -/
def Dev.ringFault (d : Dev) (q : Nat) (st : Status) : Dev :=
  let r := d.queue q
  let d := match r.ctx? with | some c => d.faultCtx c | none => d
  d.commandFault q r.ctx? { kind := 1, code := st.code, ringAddr := r.ringAddrOf r.head }

/-- The memory fault record of an access by the queue fetcher (R205, R277). -/
def Dev.fetchError (d : Dev) (q : Nat) (x : XErr) (a : Acc6) : Dev :=
  match (d.queue q).ctx? with | some c => d.memFault c x a 0x8 | none => d

/-- Read the tail; none when the queue faulted (R277). -/
def Dev.readTail (d : Dev) (q : Nat) : Dev × Option Nat :=
  let r := d.queue q
  let size := 2 ^ r.log2
  let far (d : Dev) (t : Nat) : Dev × Option Nat :=
    if t - r.head > size then (d.ringFault q .badRing, none) else (d, some t)
  if r.headA.toNat % 8 ≠ 0 ∨ r.ring.toNat % (64 * size) ≠ 0 ∨ (r.tailSem = false ∧ r.tailA.toNat % 8 ≠ 0) then
    (d.ringFault q .badRing, none)
  else if r.tailSem then far d (d.sem r.sem.toNat).toNat
  else match d.ringRead r.ctx r.tailA.toNat 8 with
    | (d, .error x) => ((d.fetchError q x .read).ringFault q .translation, none)
    | (d, .ok (bs, psn)) => if psn then (d.ringFault q .badRing, none) else far d (unle bs)

/-- Body bytes an entry type uses (R281); the others are reserved. -/
def bodyFields : Nat → List (Nat × Nat)
  | 1 => [(0x10, 8)]
  | 2 => [(0x10, 12)]
  | 3 => [(0x10, 25)]
  | 4 => [(0x10, 4), (0x18, 12)]
  | 5 => [(0x10, 17)]
  | 6 => [(0x10, 2)]
  | 7 => [(0x10, 1), (0x12, 4), (0x18, 40)]
  | _ => []

/-- An entry with a reserved type, flag or byte (R279, R280). -/
def Entry.malformed (e : Entry) : Bool :=
  let used := (0, 2) :: (8, 8) :: bodyFields e.type
  e.type == 0 || e.type > 8 || e.flags / 8 != 0
    || (List.range 64).any fun i =>
      !(used.any fun u => decide (u.1 ≤ i) && decide (i < u.1 + u.2)) && (e.bytes[i]?).getD 0 != 0

/-- What is wrong with an entry as fetched (R280–R282, R286, R508). -/
def Dev.badEntry (d : Dev) (q : Nat) (e : Entry) : Option Status :=
  let r := d.queue q
  let src := field e.bytes 0x10 8
  let dst := field e.bytes 0x18 8
  let cf := field e.bytes 0x28 1
  if e.type == 7 && q != 0 then some .notPermitted
  else if e.malformed then some .badEntry
  else if e.type == 7 then
    if field e.bytes 0x10 1 == 0 || field e.bytes 0x10 1 > 9 then some .badEntry else none
  else if q = 0 then if e.type == 8 then none else some .notPermitted
  else match e.type with
    | 3 =>
      if cf > 2 || src % 64 != 0 || dst % 64 != 0 || field e.bytes 0x20 8 % 64 != 0 then some .badEntry
      else if cf != 0 && !r.hostDma then some .notPermitted else none
    | 4 => if d.semOwner (field e.bytes 0x10 4) == r.ctx? then none else some .notPermitted
    | 5 => if field e.bytes 0x20 1 > 1 || bit src 63 then some .badEntry else none
    | 6 => if field e.bytes 0x10 2 > 1023 then some .badEntry else none
    | _ => none

def Dev.updEntry (d : Dev) (q seq : Nat) (g : Entry → Entry) : Dev :=
  d.updQueue q fun r => { r with entries := r.entries.map fun e => if e.seq == seq then g e else e }

/-- The entry that starts next: the one fetched and not started. -/
def Dev.frontEntry (d : Dev) (q : Nat) : Option Entry := (d.queue q).entries.find? (·.state == .fetched)

/-- An entry that starts only when every earlier one has completed (R279, R280). -/
def Entry.ordered (e : Entry) : Bool := bit e.flags 2 || e.type == 5 || e.type == 6

/-- Earlier entries of the queue are open. -/
def Dev.behind (d : Dev) (q : Nat) (e : Entry) : Bool := (d.queue q).entries.any fun x => decide (x.seq < e.seq)

/-- An entry holds its queue until it starts or completes; the loop then begins with a new snapshot (R280, R284, R285). -/
def Dev.holdQueue (d : Dev) (q seq : Nat) : Dev :=
  d.updQueue q fun r => { r with holder := some seq, state := .held, snap := false }

/-- The head word of a queue is written (R285); a write that fails is recorded (R277). -/
def Dev.putHead (d : Dev) (q n : Nat) : Dev × Bool :=
  let r := d.queue q
  match d.ringWrite r.ctx r.headA.toNat (le 8 n) with
  | (d, .error x) => (d.fetchError q x .write, false)
  | (d, .ok ()) => (d, true)

/-- Fetch the entry at the head (R278, R285): it is checked, and completes at once when it is bad. -/
def Dev.fetchOne (d : Dev) (q : Nat) : Dev :=
  let r := d.queue q
  let n := r.head
  match d.ringRead r.ctx (r.ringAddrOf n) 64 with
  | (d, .error x) =>
    let e : Entry := { seq := n, bytes := zeros 64 }
    let d := (d.fetchError q x .read).updQueue q fun r => { r with head := n + 1, entries := r.entries ++ [e] }
    let (d, ok) := d.putHead q (n + 1)
    (d.updQueue q fun r => { r with headOwed := !ok }).failEntry q e .translation
  | (d, .ok (bs, psn)) =>
    match d.putHead q (n + 1) with
    | (d, false) => d.ringFault q .translation
    | (d, true) =>
      let e : Entry := { seq := n, bytes := bs }
      let d := d.updQueue q fun r => { r with
        head := n + 1, state := .fetching, entries := r.entries ++ [e] }
      match (if psn then some .badEntry else d.badEntry q e) with
      | some st => d.failEntry q e st
      | none => if e.type == 4 || e.type == 6 || (e.ordered && d.behind q e) then d.holdQueue q n else d

/-- The loop of R285 as far as one fetched entry: snapshot, fetch, and at the tail the test of RUNG. -/
def Dev.fetchSteps (d : Dev) (q : Nat) : Nat → Dev
  | 0 => d
  | fuel + 1 =>
    let r := d.queue q
    if r.snap && decide (r.head < r.tail) then d.fetchOne q
    else if r.snap then
      if r.rung then (d.setQueue q { r with rung := false, snap := false }).fetchSteps q fuel
      else d.setQueue q { r with state := .idle, snap := false }
    else match d.readTail q with
      | (d, none) => d
      | (d, some t) => (d.updQueue q fun r => { r with tail := t, snap := true }).fetchSteps q fuel

/-- The fetcher goes on: the head word that a failed entry still owes is written first (R277). -/
def Dev.fetchLoop (d : Dev) (q : Nat) (fuel : Nat) : Dev :=
  let r := d.queue q
  if r.headOwed then
    match d.putHead q r.head with
    | (d, false) => d.ringFault q .translation
    | (d, true) => (d.updQueue q fun r => { r with headOwed := false }).fetchSteps q fuel
  else d.fetchSteps q fuel

/-- The fetcher takes its next entry, or goes idle at the tail (R284, R285). -/
def Dev.fetchEntry (d : Dev) (q : Nat) : Dev :=
  let r := d.queue q
  if !d.up || !d.mayFetch q || r.holder.isSome || (d.frontEntry q).isSome || (r.state == .idle && !r.rung) then d
  else (d.updQueue q fun r => { r with state := .fetching }).fetchLoop q 5

/-! ### Starting entries (R280, R281) -/

/-- The entry of a queue that starts now, when it is of the type named. -/
def Dev.starting (d : Dev) (q type : Nat) : Option Entry :=
  match d.frontEntry q with
  | some e => if d.up && d.mayFetch q && e.type == type && !(e.ordered && d.behind q e) then some e else none
  | none => none

/-- An entry has started: it holds its queue no longer. -/
def Dev.started (d : Dev) (q seq : Nat) (st : EState) : Dev :=
  (d.updEntry q seq fun e => { e with state := st }).updQueue q fun r =>
    { r with holder := if r.holder == some seq then none else r.holder }

/-- The TAG of the record of a launch that fails: the graph's where it can be read (R288). -/
def Dev.launchTag (d : Dev) (c : BitVec 12) (e : Entry) (batch : Bool) : Nat :=
  if batch then e.tag
  else match d.readVirt unitMkt c (field e.bytes 0x10 8) 64 with
    | (_, .ok (bs, false)) => field bs 0x30 8
    | _ => e.tag

/-- A launch that fails (R266, R507): the Market fault of the context, and the entry's completion. -/
def Dev.launchFailed (d : Dev) (c : BitVec 12) (q : Nat) (e : Entry) (batch : Bool) (cause : Nat) : Dev :=
  let r := d.queue q
  let tag := d.launchTag c e batch
  let d := (d.updCtx c fun x => { x with mktFault := BitVec.ofNat 7 cause }).faultCtx c
  let d := (d.complete q e (if cause = 0x05 then .translation else .badEntry) 0 0 0 (some tag)).1
  d.commandFault q (some c) {
    kind := 3, code := cause, ringAddr := r.ringAddrOf e.seq, entry := e.bytes }

/-- GRAPH_LAUNCH or TASK_BATCH starts, or holds its queue (R234). -/
def Dev.tryLaunch (d : Dev) (q : Nat) (e : Entry) (batch : Bool) : Dev :=
  match (d.queue q).ctx? with
  | none => d
  | some c =>
    match d.launchEntry c q e batch with
    | (d, .started) => d.updQueue q fun r => { r with holder := if r.holder == some e.seq then none else r.holder }
    | (d, .held) => d.holdQueue q e.seq
    | (d, .noQuota) => (d.complete q e .noQuota 0 0 0 (some (d.launchTag c e batch))).1
    | (d, .failed cause) => d.launchFailed c q e batch cause

def Dev.startLaunch (d : Dev) (q : Nat) (batch : Bool) : Dev :=
  match d.starting q (if batch then 2 else 1) with
  | some e => d.tryLaunch q e batch
  | none => d

/-- A launch that holds its queue tries again (R234). -/
def Dev.retryLaunch (d : Dev) (q : Nat) : Dev :=
  match d.frontEntry q with
  | some e =>
    if (d.queue q).holder == some e.seq then
      match d.starting q 1, d.starting q 2 with
      | some e, _ => d.tryLaunch q e false
      | none, some e => d.tryLaunch q e true
      | none, none => d
    else d
  | none => d

/-- COPY: the Market offers it as a task of priority 7 with no effect list (R281). -/
def Dev.startCopy (d : Dev) (q : Nat) : Dev :=
  match d.starting q 3, (d.queue q).ctx? with
  | some e, some c =>
    let cf := field e.bytes 0x28 1
    let k : GKind := .copy (field e.bytes 0x10 8) (field e.bytes 0x18 8) (field e.bytes 0x20 8) (bit cf 0) (bit cf 1)
    let tag := BitVec.ofNat 64 e.tag
    let t : Task := { prio := 7, tag := tag }
    let (d, id) := d.addGraph c q e.seq k { ntask := 1, tasks := 0, tag := tag } [t]
    ((d.started q e.seq .running).updEntry q e.seq fun e => { e with graph := some id }).offer { graph := id, idx := 0 }
  | _, _ => d

/-- WAIT_SEM: the watcher fires at once or the queue holds (R246, R281). -/
def Dev.startWait (d : Dev) (q : Nat) : Dev :=
  match d.starting q 4 with
  | none => d
  | some e =>
    let sem := field e.bytes 0x10 4
    let target := field e.bytes 0x18 8
    if target ≤ (d.sem sem).toNat then (d.complete q e .ok).1
    else if watcherCap ≤ d.mkt.watchers.length then d.holdQueue q e.seq
    else
      let w : Watcher := { sem := sem, target := target, what := .entry q e.seq }
      let d := { d with mkt := { d.mkt with watchers := d.mkt.watchers ++ [w] } }
      (d.updEntry q e.seq fun e => { e with state := .watching }).holdQueue q e.seq

/-- TIMEOUT_US has passed: the entry completes and the queue continues (R281). -/
def Dev.waitTimeout (d : Dev) (q : Nat) : Dev :=
  match (d.queue q).entries.find? (·.state == .watching) with
  | none => d
  | some e =>
    if field e.bytes 0x20 4 = 0 then d
    else
      let ws := d.mkt.watchers.filter fun w => w.what != .entry q e.seq
      (({ d with mkt := { d.mkt with watchers := ws } } : Dev).complete q e .waitTimeout).1

/-- The update of a SIGNAL_SEM entry received an error response (R291). -/
def Dev.signalError (d : Dev) (q seq : Nat) (addr : Word) (cause : Nat) : Dev :=
  match d.entry? q seq with
  | none => d
  | some e =>
    let a : Acc6 := if field e.bytes 0x20 1 = 1 then .bellAdd else .bellStore
    (d.fetchError q { cause := cause, va := addr.toNat, fab := some addr.toNat } a).failEntry q e .translation

/-- SIGNAL_SEM: to another device it is a commit point (R281, R429 row 4). -/
def Dev.startSignal (d : Dev) (q : Nat) : Dev :=
  match d.starting q 5, (d.queue q).ctx? with
  | some e, some c =>
    let addr : Word := BitVec.ofNat 64 (field e.bytes 0x10 8)
    let far := fabDev addr != d.lnk.devId
    let (d, ready) := if far then d.commitReady c (.signal q e.seq) else (d, true)
    if !ready then d.holdQueue q e.seq
    else if far && (d.ctx c).taint then d.kill c 4 (addr.toNat % 2 ^ 63) { entry := some (q, e.seq) }
    else
      let d := d.started q e.seq .running
      match d.bell addr (BitVec.ofNat 64 (field e.bytes 0x18 8)) (field e.bytes 0x20 1 == 1) (d.ctx c).job
          (.entryBell q e.seq) (some (q, e.seq)) with
      | (d, none) => d
      | (d, some cause) => d.signalError q e.seq addr cause
  | _, _ => d

/-- BARRIER: an arrival at a group of the queue's context (R399). -/
def Dev.startBarrier (d : Dev) (q : Nat) : Dev :=
  match d.starting q 6 with
  | none => d
  | some e =>
    let g := field e.bytes 0x10 2
    let gr := d.group g
    if gr.state == .free || gr.ctx != (d.queue q).ctx then d.failEntry q e .notPermitted
    else ((d.updEntry q e.seq fun e => { e with state := .arrived }).holdQueue q e.seq).arriveAll g (.entry q e.seq)

/-- NOP completes at once (R280). -/
def Dev.startNop (d : Dev) (q : Nat) : Dev :=
  match d.starting q 8 with
  | some e => (d.complete q e .ok).1
  | none => d

/-! ### Completion rings (R289, R290) -/

def Dev.drainWaiting (d : Dev) (c : BitVec 16) : Nat → Dev
  | 0 => d
  | fuel + 1 =>
    match d.hif.waiting.find? (·.ctx == c) with
    | none => d
    | some w => match d.tryRecord w with
      | (d, false) => d
      | (d, true) =>
        let d := { d with hif := { d.hif with waiting := d.hif.waiting.erase w } }
        let d := match w.graph with
          | some g => (d.updGraph g fun g => { g with recWaits := false }).graphBell g
          | none => d
        d.drainWaiting c fuel

/-- Re-read the head word of a ring and write the records that wait, in the order of their context (R289). -/
def Dev.pollRing (d : Dev) (r : Nat) : Dev :=
  let c := (d.cring r).ctx
  match d.hif.waiting.find? (·.ctx == c) with
  | some w => if w.ring == r then d.drainWaiting c d.hif.waiting.length else d
  | none => d

/-- A moderation interval ends: the vector is raised if a record has come meanwhile (R290). -/
def Dev.moderationEnd (d : Dev) (r : Nat) : Dev :=
  let cr := d.cring r
  if !cr.modRunning then d
  else
    let d := d.setCring r { cr with modRunning := false, modPending := false }
    if cr.modPending then d.ringVector r else d

/-- A host read of a COPY failed (R297): the COPY ends with HOST_ABORT and its frame idles. -/
def Dev.hostReadFail (d : Dev) (f : FrameId) : Dev :=
  let fr := d.frame f
  let reads := fr.moves.any fun m => m.copy && !m.acked && (match m.src with | .host _ => true | _ => false)
  match fr.task with
  | none => d
  | some t =>
    if !reads then d
    else
      let d := { d with hif := { d.hif with aer := d.hif.aer + 1 } }
      if fr.killing then (d.updFrame f fun fr => { fr with moves := [] }).settle f
      else
        let gr := d.graph? t.graph
        let d := (d.updTask t fun x => { x with state := .discarded, frame := none }).endOnFrame f
        match gr with
        | none => d
        | some g => match d.entry? g.queue g.seq with
          | some e => ((d.complete g.queue e .hostAbort).1).dropGraph g.id
          | none => d.dropGraph g.id

/-- DOORBELL (R283). -/
def execDoorbell (q : BitVec 14) (s : State) : Host.Outcome State Fault Refusal :=
  s.stepDev (if s.toDev.up then s.toDev.ringQueue q.toNat else s.toDev)

/-- ENTRY_FETCH (R285). -/
def execEntryFetch (q : BitVec 14) (s : State) : Host.Outcome State Fault Refusal :=
  s.stepDev (s.toDev.fetchEntry q.toNat)

/-- QUEUE_HOLD_END (R284). -/
def execQueueHoldEnd (q : BitVec 14) (s : State) : Host.Outcome State Fault Refusal :=
  s.stepDev (s.toDev.updQueue q.toNat fun r =>
    if r.state == .held && r.holder.isNone then { r with state := .fetching } else r)

/-- GRAPH_LAUNCH (R234). -/
def execGraphLaunch (q : BitVec 14) (s : State) : Host.Outcome State Fault Refusal :=
  s.stepDev (s.toDev.startLaunch q.toNat false)

/-- TASK_BATCH (R281). -/
def execTaskBatch (q : BitVec 14) (s : State) : Host.Outcome State Fault Refusal :=
  s.stepDev (s.toDev.startLaunch q.toNat true)

/-- LAUNCH_HOLD_RELEASE (R234). -/
def execLaunchHoldRelease (q : BitVec 14) (s : State) : Host.Outcome State Fault Refusal :=
  s.stepDev (s.toDev.retryLaunch q.toNat)

/-- COPY (R281). -/
def execCopy (q : BitVec 14) (s : State) : Host.Outcome State Fault Refusal :=
  s.stepDev (s.toDev.startCopy q.toNat)

/-- WAIT_SEM (R282). -/
def execWaitSem (q : BitVec 14) (s : State) : Host.Outcome State Fault Refusal :=
  s.stepDev (s.toDev.startWait q.toNat)

/-- WAIT_SEM_TIMEOUT (R281). -/
def execWaitSemTimeout (q : BitVec 14) (s : State) : Host.Outcome State Fault Refusal :=
  s.stepDev (s.toDev.waitTimeout q.toNat)

/-- SIGNAL_SEM (R281). -/
def execSignalSem (q : BitVec 14) (s : State) : Host.Outcome State Fault Refusal :=
  s.stepDev (s.toDev.startSignal q.toNat)

/-- BARRIER (R399). -/
def execBarrier (q : BitVec 14) (s : State) : Host.Outcome State Fault Refusal :=
  s.stepDev (s.toDev.startBarrier q.toNat)

/-- NOP_ENTRY (R280). -/
def execNopEntry (q : BitVec 14) (s : State) : Host.Outcome State Fault Refusal :=
  s.stepDev (s.toDev.startNop q.toNat)

/-- CRING_HEAD_POLL (R289). -/
def execCringHeadPoll (r : BitVec 14) (s : State) : Host.Outcome State Fault Refusal :=
  s.stepDev (s.toDev.pollRing r.toNat)

/-- IRQ_MODERATION_EXPIRY (R290). -/
def execIrqModerationExpiry (r : BitVec 14) (s : State) : Host.Outcome State Fault Refusal :=
  s.stepDev (s.toDev.moderationEnd r.toNat)

/-- HOST_READ_FAILURE (R297). -/
def execHostReadFailure (f : FrameId) (s : State) : Host.Outcome State Fault Refusal :=
  s.stepDev (s.toDev.hostReadFail f)

end Sys2Proof.Machine
end

