-- ==== Sys2Proof/Machine/Destroy.lean ====
section
/-! DEFINITION. Destroying queues and contexts with work in flight, and the end of a save that a destroy or a
stall reset waits for (R249, R262, R265, R294–R296, R346, R473, R474). -/

namespace Sys2Proof.Machine

/-- The counts of R295 as INFO0, INFO1 and INFO2. -/
def Discards.infos (x : Discards) (ns : Nat) : Nat × Nat × Nat :=
  let w (a : Nat) := min a (2 ^ 32 - 1)
  (w x.tasks + w x.insns * 2 ^ 32, w x.chunks + w x.withdrawn * 2 ^ 32,
    w x.entries + w ((ns - x.start) / 1000000) * 2 ^ 32)

/-- Finish a destroy's CTX_CTRL entry with its counts. -/
def Dev.finishDestroy (d : Dev) (x : Discards) (st : Status) : Dev :=
  match x.entry.bind fun s => d.entry? 0 s with
  | none => d
  | some e =>
    let i := x.infos d.ns
    (d.complete 0 e st i.1 i.2.1 i.2.2).1

/-- Complete every open entry of a queue with DISCARDED (R295). -/
def Dev.discardEntries (d : Dev) (q : Nat) : Dev :=
  (d.queue q).entries.foldl (fun d e =>
    let tag := (e.graph.bind d.graph?).map (·.tag.toNat)
    (d.complete q e .discarded 0 0 0 tag).1) d

/-- Arrivals at barrier groups that entries of a queue made and that have not begun are dropped. -/
def Dev.dropArrivals (d : Dev) (q : Nat) : Dev :=
  { d with wag := { d.wag with groups := d.wag.groups.map fun g => (g.1, { g.2 with
      waiters := g.2.waiters.filter fun a => match a with | .entry r _ => r != q | _ => true }) } }

/-- DESTROY_QUEUE, steps 1 to 5 of R294. `entry` is the CTX_CTRL entry that completes when the queue is FREE. -/
def Dev.destroyQueue (d : Dev) (q : Nat) (entry : Option Nat) : Dev :=
  let r := d.queue q
  let d := d.setQueue q { r with state := .destroying, rung := false, snap := false, holder := none }
  let ws := d.mkt.watchers.filter fun w => match w.what with | .entry p _ => p != q | _ => true
  let d := ({ d with mkt := { d.mkt with watchers := ws } } : Dev).dropArrivals q
  let d := d.discardEntries q
  let ids := (d.mkt.graphs.filter fun g => g.queue == q).map (·.id)
  let (d, tasks, insns, chunks) := d.stopGraphs fun g => g.queue == q
  let saves := d.mkt.saves.map fun s => { s with images := s.images.filter fun i => !ids.contains i.task.graph }
  let d := { d with mkt := { d.mkt with saves := saves } }
  let js := (List.range 256).filter fun j => (d.job j).state != .free && (d.job j).queue.toNat == q
  let (d, w) := js.foldl (fun (a : Dev × Nat) j =>
    let (d, n) := a.1.withdrawJob j
    (d, a.2 + n)) (d, 0)
  d.updQueue q fun x => { x with disc := {
    tasks := tasks, insns := insns, chunks := chunks, withdrawn := w, entries := r.entries.length
    start := d.ns, entry := entry } }

/-- Frames still run tasks of the queue's graphs. -/
def Dev.queueBusy (d : Dev) (q : Nat) : Bool :=
  let ids := (d.mkt.graphs.filter fun g => g.queue == q).map (·.id)
  !(d.framesOf fun t => ids.contains t.graph).isEmpty

/-- Frames, movers and the Exchange are quiet: the queue is FREE and its entry completes (R294 step 6, R295). -/
def Dev.queueQuiet (d : Dev) (q : Nat) : Dev :=
  let r := d.queue q
  if r.state != .destroying || d.queueBusy q then d
  else (({ d with mkt := { d.mkt with graphs := d.mkt.graphs.filter fun g => g.queue != q || g.completed } } : Dev).setQueue q {}).finishDestroy
    r.disc .ok

/-- 100 ms have passed and the reports have not all arrived (R295). -/
def Dev.quiesceLate (d : Dev) (q : Nat) : Dev :=
  let r := d.queue q
  if r.state != .destroying || !d.queueBusy q || r.disc.late then d
  else
    let d := d.updQueue q fun x => { x with disc := { x.disc with late := true, entry := none } }
    let cap : CapF := { kind := 5, code := Status.quiesceTimeout.code }
    match r.ctx? with
    | none => d
    | some c =>
      let cx := d.ctx c
      let d := (d.faultCtx c).commandFault q (some c) cap
      if r.disc.entry.isSome then d.finishDestroy r.disc .quiesceTimeout
      else (d.finishDestroy cx.disc .quiesceTimeout).updCtx c fun x => { x with disc := { x.disc with entry := none } }

/-- Queues of a context that are not FREE. -/
def Dev.queuesOf (d : Dev) (c : BitVec 12) : List Nat :=
  (d.hif.queues.filter fun q => q.2.state != .free && q.2.ctx == c.setWidth 16).map (·.1)

def Discards.add (a b : Discards) : Discards :=
  { a with tasks := a.tasks + b.tasks, insns := a.insns + b.insns, chunks := a.chunks + b.chunks
           withdrawn := a.withdrawn + b.withdrawn, entries := a.entries + b.entries }

/-- Destroy a context: its queues first, then the collectives of its job and its state (R249, R286, R345). A save in progress is let
finish first (R265, R474). -/
def Dev.destroyCtx (d : Dev) (c : BitVec 12) (entry : Option Nat) : Dev :=
  let x := d.ctx c
  if x.state == .saving then
    d.setCtx c { x with destroyWait := true, disc := { entry := entry, start := d.ns } }
  else
    let d := d.setCtx c { x with state := .destroying, destroyWait := false }
    let qs := (d.queuesOf c).filter fun q => (d.queue q).state != .destroying
    let (d, n) := qs.foldl (fun (a : Dev × Discards) q =>
      let d := a.1.destroyQueue q none
      (d, a.2.add (d.queue q).disc)) (d, { start := d.ns, entry := entry })
    let js := (List.range 256).filter fun j => (d.job j).state != .free && (d.job j).ctx == c.setWidth 16
    let (d, n) := js.foldl (fun (a : Dev × Discards) j =>
      let (d, w) := a.1.withdrawJob j
      (d, { a.2 with withdrawn := a.2.withdrawn + w })) (d, n)
    let d := { d with
      mkt := { d.mkt with saves := d.mkt.saves.filter fun s => s.ctx != c }
      grd := { d.grd with waits := d.grd.waits.filter fun w => w.ctx != c } }
    d.updCtx c fun y => { y with disc := n, waiting := false, unbinding := false }

/-- Every task is discarded and every frame of the context is idle: the context is FREE with what it held, its job record too (R249,
R345, R473). -/
def Dev.ctxGone (d : Dev) (c : BitVec 12) : Dev :=
  let x := d.ctx c
  if x.state != .destroying || d.ctxBusy c then d
  else
    let d := (d.queuesOf c).foldl (fun d q => d.queueQuiet q) d
    let first := x.semFirst.toNat
    let owns (n : Nat) : Bool := decide (first ≤ n) && decide (n < first + x.semCount.toNat)
    let mine := (d.mkt.graphs.filter (·.ctx == c)).map (·.id)
    let d := d.forgetTasks fun t => mine.contains t.graph
    let js := (List.range 256).filter fun j => (d.job j).state != .free && (d.job j).ctx == c.setWidth 16
    let d := (js.foldl (fun (d : Dev) j => (d.freeJob j).1) d).progressAll
    let d := { d with
      mkt := { d.mkt with
        graphs := d.mkt.graphs.filter fun g => g.ctx != c
        sems := d.mkt.sems.filter fun s => !owns s.1
        semQ := d.mkt.semQ.filter fun u => !owns u.sem
        watchers := d.mkt.watchers.filter fun w => match w.what with | .task x => x.ctx != c | _ => true
        saves := d.mkt.saves.filter fun s => s.ctx != c }
      hif := { d.hif with
        queues := d.hif.queues.filter fun q => q.2.ctx != c.setWidth 16 || q.2.state == QState.free
        crings := d.hif.crings.filter fun r => r.2.ctx != c.setWidth 16
        waiting := d.hif.waiting.filter fun w => w.ctx != c.setWidth 16 }
      wag := { d.wag with groups := d.wag.groups.filter fun g => g.2.ctx != c.setWidth 16 || g.2.state == GState.free } }
    (d.setCtx c {}).finishDestroy x.disc .ok

/-- The save of a context is complete; a destroy or a stall reset that waited for it goes on (R262, R265, R474). -/
def Dev.saveWritten (d : Dev) (c : BitVec 12) : Dev :=
  let x := d.ctx c
  if !d.drained c then d
  else
    let d := (d.finishSave c).updCtx c fun y => { y with resetWait := false }
    let d := if x.destroyWait then d.destroyCtx c x.disc.entry else d
    if x.resetWait && (d.savingOn x.stall.toNat).isEmpty then d.stallClear x.stall.toNat else d

/-- The wait of a reset for a save has expired: the context's state is lost, and the reset goes on (R474). -/
def Dev.saveLost (d : Dev) (c : BitVec 12) : Dev :=
  let x := d.ctx c
  if x.state != .saving || !(x.resetWait || x.destroyWait) then d
  else
    let d := d.setCtx c { x with
      state := .stateLost, resetWait := false, saveFault := false, orphanStop := false, unbinding := false }
    let d := if x.destroyWait then d.destroyCtx c x.disc.entry else d
    if x.resetWait && (d.savingOn x.stall.toNat).isEmpty then d.stallClear x.stall.toNat else d

/-- QUEUE_QUIESCED (R295). -/
def execQueueQuiesced (q : BitVec 14) (s : State) : Host.Outcome State Fault Refusal :=
  s.stepDev (s.toDev.queueQuiet q.toNat)

/-- QUIESCE_TIMEOUT (R295). -/
def execQuiesceTimeout (q : BitVec 14) (s : State) : Host.Outcome State Fault Refusal :=
  s.stepDev (s.toDev.quiesceLate q.toNat)

/-- CONTEXT_DESTROY_COMPLETE (R249). -/
def execContextDestroyComplete (ctx : BitVec 12) (s : State) : Host.Outcome State Fault Refusal :=
  s.stepDev (s.toDev.ctxGone ctx)

/-- SAVE_IMAGE_WRITTEN (R262). -/
def execSaveImageWritten (ctx : BitVec 12) (s : State) : Host.Outcome State Fault Refusal :=
  s.stepDev (s.toDev.saveWritten ctx)

/-- SAVE_RESET_WAIT_EXPIRY (R474). -/
def execSaveResetWaitExpiry (ctx : BitVec 12) (s : State) : Host.Outcome State Fault Refusal :=
  s.stepDev (s.toDev.saveLost ctx)

end Sys2Proof.Machine
end

