-- ==== Sys2Proof/Machine/Control.lean ====
section
/-! DEFINITION. The CTX_CTRL operations of queue 0 (R250, R251, R286, R508). -/

namespace Sys2Proof.Machine

/-- Read device memory by physical address; none is an error response or poison. A local store answers BAR2 alone (R191, R195,
R508). -/
def Dev.physRead (d : Dev) (pa len : Nat) : Option (List Byte) :=
  if inDramOrComb pa len && !d.mem.readPoison pa len then some (d.read pa len) else none

/-- The fields of a CTX_CTRL entry (R281). -/
structure Ctl where
  e : Entry
  ctx : Nat
  queue : Nat
  arg0 : Nat
  deriving DecidableEq, Repr

/-- The CTX_CTRL entry of queue 0 that an operation runs on. -/
def Dev.ctl (d : Dev) (op : Nat) : Option Ctl :=
  match d.starting 0 7 with
  | some e =>
    if field e.bytes 0x10 1 = op ∧ d.schedUp = true then
      some { e := e, ctx := field e.bytes 0x12 2, queue := field e.bytes 0x14 2, arg0 := field e.bytes 0x18 8 }
    else none
  | none => none

/-- Complete a CTX_CTRL entry; a status that fails an entry is captured and queue 0 goes on (R291). -/
def Dev.endCtl (d : Dev) (k : Ctl) (st : Status) (i0 : Nat := 0) : Dev :=
  if st.fails then d.failEntry 0 k.e st else (d.complete 0 k.e st i0).1

/-- IDs out of range (R508). -/
def Ctl.badId (k : Ctl) : Bool := k.ctx > 4095 || k.queue > 16383

def Ctl.c (k : Ctl) : BitVec 12 := BitVec.ofNat 12 k.ctx

/-- A context that is FREE or DESTROYING, or whose destroy waits for its save (R508). -/
def Dev.ctxDead (d : Dev) (c : BitVec 12) : Bool :=
  let x := d.ctx c
  x.state == .free || x.state == .destroying || x.destroyWait

/-! ### CREATE_CTX (R248, R250, R508) -/

/-- An image field or reserved bit of a context record that R508 refuses. -/
def badCtxImage (b : List Byte) : Bool :=
  let mn := field b 0x24 2
  let mx := field b 0x26 2
  let tasks := field b 0x20 4
  field b 0 1 > 8 || (field b 6 2 > 383 && field b 6 2 != 0xFFFF) || field b 1 1 / 8 != 0 || field b 2 1 > 3 || field b 3 1 == 0 || tasks == 0 || tasks > 65536
    || mn == 0 || mn > 384 || mx == 0 || mx > 384 || mx < mn || field b 0x58 8 > 1 || !allZero (slice b 0x60 160)
    || field b 0x08 8 % 0x10000 != 0 || field b 0x10 8 % 0x1000 != 0 || field b 0x18 8 % 0x1000 != 0
    || !inDramOrComb (field b 0x08 8) 0x10000 || !inDramOrComb (field b 0x10 8) 0x10000
    || !inDramOrComb (field b 0x18 8) 0x1000

/-- Semaphores of no context in a range. -/
def Dev.semsFree (d : Dev) (first n : Nat) : Bool :=
  decide (first + n ≤ semCount) && d.mkt.ctxs.all fun c =>
    c.2.state == .free || decide (c.2.semFirst.toNat + c.2.semCount.toNat ≤ first) || decide (first + n ≤ c.2.semFirst.toNat)
      || c.2.semCount == 0

/-- The range a context receives: the one the firmware chose where it is free, else the lowest free one (R250). -/
def Dev.pickSems (d : Dev) (want n : Nat) : Option Nat :=
  if d.semsFree want n then some want
  else
    let starts := 0 :: (d.mkt.ctxs.filter (·.2.state != .free)).map fun c => c.2.semFirst.toNat + c.2.semCount.toNat
    (starts.mergeSort (· ≤ ·)).find? fun s => d.semsFree s n

def moduleTasks : Nat := 1048576

/-- The refusals of R250 in their order, or the range of semaphores. -/
def Dev.ctxGate (d : Dev) (b : List Byte) (want : Nat) : Except Status Nat :=
  let quota := ((d.mkt.ctxs.filter (·.2.state != .free)).map (·.2.maxTasks.toNat)).sum
  let fs := allFrames.filter fun f => (d.frame f).svc.insvc
  if moduleTasks < quota + field b 0x20 4 then .error .noQuota
  else match d.pickSems want (field b 0x54 4) with
    | none => .error .noSems
    | some first =>
      if fs.length < field b 0x24 2 then .error .noFrames
      else if field b 0x58 8 = 1 && !fs.any fun f => (d.frame f).geom.colgrp == 16 then .error .noW128
      else .ok first

/-- Remove the translations that match from every TLB (R207 step 1). -/
def Dev.tlbDrop (d : Dev) (p : TlbE → Bool) : Dev :=
  { d with mem := { d.mem with tlbs := d.mem.tlbs.map fun t => (t.1, t.2.filter fun e => !p e) } }

/-- The entries an invalidation matches: of scope 0 every page of any size that covers the address (R209). -/
def Tlbi.hits (t : Tlbi) (e : TlbE) : Bool :=
  match t with
  | .va c v => TlbE.hits e c v
  | .ctx c => e.ctx == c
  | .all => true

/-- The first invalidation that waits for an access, once its translation leaves the TLBs. -/
def markInv (n : BitVec 32) (hit : Bool) (old : Option (BitVec 32)) : Option (BitVec 32) :=
  if hit && old.isNone then some n else old

/-- The frame's open loads and stores that were translated through one of some entries. -/
def Frame.markInv (fr : Frame) (n : BitVec 32) (gone : List TlbE) : Frame :=
  let hit (va : BitVec 52) : Bool := gone.any (·.hits fr.ctx va.toNat)
  { fr with
    loads := fr.loads.map fun l => { l with inv := Machine.markInv n (l.virt && hit l.addr) l.inv }
    stores := fr.stores.map fun s => { s with inv := Machine.markInv n (s.virt && hit s.addr) s.inv } }

/-- The virtual address that a move's open request to another device came from, with its context. -/
def Dev.reqVa (d : Dev) (r : Req) : Option (BitVec 12 × Nat) :=
  match r.origin with
  | .moveRead f => ((d.frame f).moves.findSome? fun m => (m.rtags.find? fun t => t.1 == r.tag).map (·.2)).map fun va =>
      ((d.frame f).ctx, va)
  | .moveWrite f => ((d.frame f).moves.findSome? fun m => (m.wtags.find? fun t => t.1 == r.tag).map (·.2.2)).map fun va =>
      ((d.frame f).ctx, va)
  | _ => none

/-- Mark the accesses translated through entries that invalidation `n` removed (R207 step 3). -/
def Dev.markInv (d : Dev) (n : BitVec 32) (gone : List TlbE) : Dev :=
  if gone.isEmpty then d
  else
    let mark (r : Req) : Req :=
      { r with inv := Machine.markInv n ((d.reqVa r).any fun x => gone.any (·.hits x.1 x.2)) r.inv }
    { d with fr := d.fr.map (·.markInv n gone), lnk := { d.lnk with reqs := d.lnk.reqs.map mark } }

/-- No access still waits for an invalidation to be done with it. -/
def Dev.invDone (d : Dev) (n : BitVec 32) : Bool :=
  !(d.lnk.reqs.any (·.inv == some n)) && d.fr.toList.all fun fr =>
    !(fr.loads.any (·.inv == some n)) && !(fr.stores.any (·.inv == some n))

/-- 16 invalidations are pending (R209). -/
def Dev.tlbiFull (d : Dev) : Bool := decide (16 ≤ (d.mem.tlbiIssued - d.mem.tlbiDone).toNat)

/-- Accept an invalidation: the next ISSUED number, its entries leave every TLB, and the accesses that came through
them are marked (R207, R209). -/
def Dev.acceptTlbi (d : Dev) (t : Tlbi) : Dev :=
  let n := d.mem.tlbiIssued + 1
  let gone := (d.mem.tlbs.map (·.2)).flatten.filter t.hits
  (({ d with mem := { d.mem with tlbiIssued := n } } : Dev).markInv n gone).tlbDrop t.hits

/-- A write of MEM_TLBI: while 16 are pending it waits, as the credit withheld from the link has it wait (R209,
assumption 51). -/
def Dev.tlbi (d : Dev) (t : Tlbi) : Dev :=
  if d.tlbiFull then { d with mem := { d.mem with tlbiWait := d.mem.tlbiWait ++ [t] } } else d.acceptTlbi t

/-- The oldest pending invalidation completes once no access through what it removed is open; a write that waited is
accepted in its place (R207, R209). -/
def Dev.invalidated (d : Dev) : Dev :=
  let n := d.mem.tlbiDone + 1
  if d.mem.tlbiDone == d.mem.tlbiIssued || !d.invDone n then d
  else
    let d : Dev := { d with mem := { d.mem with tlbiDone := n } }
    match d.mem.tlbiWait with
    | [] => d
    | t :: ts => ({ d with mem := { d.mem with tlbiWait := ts } } : Dev).acceptTlbi t

/-- The record a context starts with (R248, R286). -/
def Ctx.ofImage (b : List Byte) (first : Nat) : Ctx :=
  { state := .active, insnPreempt := bit (field b 1 1) 2, cls := BitVec.ofNat 2 (field b 2 1)
    weight := BitVec.ofNat 8 (field b 3 1), job := BitVec.ofNat 16 (field b 4 2), stall := 0xFFFF
    ptRoot := BitVec.ofNat 64 (field b 8 8), saveArea := BitVec.ofNat 64 (field b 0x10 8)
    faultArea := BitVec.ofNat 64 (field b 0x18 8), maxTasks := BitVec.ofNat 32 (field b 0x20 4)
    minFrames := BitVec.ofNat 16 (field b 0x24 2), maxFrames := BitVec.ofNat 16 (field b 0x26 2)
    preemptWait := if field b 0x28 4 = 0 then 1000 else BitVec.ofNat 32 (field b 0x28 4), semFirst := BitVec.ofNat 32 first
    semCount := BitVec.ofNat 32 (field b 0x54 4), needW128 := bit (field b 0x58 8) 0 }

/-- CREATE_CTX (R248, R250). It starts when an invalidation can be issued, which it needs before the context does (R208). -/
def Dev.createCtx (d : Dev) (want : Nat) : Dev :=
  match d.ctl 1 with
  | none => d
  | some k =>
    if d.tlbiFull then d
    else if k.badId then d.endCtl k .badEntry
    else match d.physRead k.arg0 256 with
      | none => d.endCtl k .badEntry
      | some b =>
        if badCtxImage b then d.endCtl k .badEntry
        else if (d.ctx k.c).state != .free then d.endCtl k .ctxInUse
        else match d.ctxGate b want with
          | .error st => d.endCtl k st
          | .ok first =>
            let n := field b 0x54 4
            let sems := d.mkt.sems.filter fun s => !(decide (first ≤ s.1) && decide (s.1 < first + n))
            let d := ({ d with mkt := { d.mkt with sems := sems } } : Dev).acceptTlbi (.ctx k.c)
            (d.setCtx k.c (Ctx.ofImage b first)).endCtl k .ok first

/-! ### DESTROY_CTX, RESUME_CTX, ADOPT_CTX, SET_SCHED -/

/-- A destroy has begun: its entry is open until the destroy is over. -/
def Dev.openCtl (d : Dev) (k : Ctl) : Dev := d.started 0 k.e.seq .running

def Dev.ctlDestroyCtx (d : Dev) : Dev :=
  match d.ctl 2 with
  | none => d
  | some k =>
    if k.badId then d.endCtl k .badEntry
    else if d.ctxDead k.c then d.endCtl k .notActive
    else (d.openCtl k).destroyCtx k.c (some k.e.seq)

/-- STOPPED queues of a context go on after their faulting entries. -/
def Dev.resumeQueues (d : Dev) (c : BitVec 12) : Dev :=
  (d.queuesOf c).foldl (fun d q => d.updQueue q fun r => match r.state with
    | .stopped => { r with state := if r.holder.isSome then .held else .fetching }
    | _ => r) d

def Dev.ctlResume (d : Dev) : Dev :=
  match d.ctl 3 with
  | none => d
  | some k =>
    if k.badId then d.endCtl k .badEntry
    else match (d.ctx k.c).state with
      | .faulted =>
        let d := (d.abortFaulted k.c).updCtx k.c fun x => { x with state := .active, memFault := false }
        (d.resumeQueues k.c).endCtl k .ok
      | .active => (d.resumeQueues k.c).endCtl k .ok
      | _ => d.endCtl k .notActive

def CtxState.code : CtxState → Nat
  | .free => 0 | .active => 1 | .saving => 2 | .saved => 3 | .restoring => 4 | .faulted => 5 | .killed => 6
  | .stateLost => 7 | .destroying => 8

/-- STATE as read: a destroy that waits for a save shows DESTROYING (R249). -/
def Ctx.code (x : Ctx) : Nat := if x.destroyWait then 8 else x.state.code

/-- An adopted context is orphaned no more; what its stop at the orphan limit held stays held until it is restored (R301). -/
def Ctx.adopted (x : Ctx) : Ctx := { x with orphaned := false, orphanStop := x.orphanStop && x.stopped }

def Dev.ctlAdopt (d : Dev) : Dev :=
  match d.ctl 6 with
  | none => d
  | some k =>
    if k.badId then d.endCtl k .badEntry
    else if d.ctxDead k.c then d.endCtl k .notActive
    else (d.updCtx k.c Ctx.adopted).endCtl k .ok (d.ctx k.c).code

def Dev.ctlSched (d : Dev) : Dev :=
  match d.ctl 9 with
  | none => d
  | some k =>
    let w := bits k.arg0 15 8
    let mx := bits k.arg0 40 32
    if k.badId || w == 0 || mx == 0 || mx > 384 || mx < (d.ctx k.c).minFrames.toNat then d.endCtl k .badEntry
    else if d.ctxDead k.c then d.endCtl k .notActive
    else (d.updCtx k.c fun x => { x with
      cls := BitVec.ofNat 2 k.arg0, weight := BitVec.ofNat 8 w, maxFrames := BitVec.ofNat 16 mx }).endCtl k .ok

/-! ### Queues and completion rings (R276, R287, R508) -/

def Dev.ctlCreateQueue (d : Dev) : Dev :=
  match d.ctl 4 with
  | none => d
  | some k =>
    if k.queue = 0 then d.endCtl k .notPermitted
    else match d.physRead k.arg0 64 with
      | none => d.endCtl k .badEntry
      | some b =>
        let cr := d.cring (field b 6 2)
        let fl := field b 1 1
        let c := field b 2 2
        let q : QRec := {
          state := .idle, hostDma := bit fl 1, tailSem := bit fl 2, ctx := BitVec.ofNat 16 c, log2 := field b 4 1
          cring := BitVec.ofNat 16 (field b 6 2), ring := BitVec.ofNat 64 (field b 8 8)
          headA := BitVec.ofNat 64 (field b 0x10 8), tailA := BitVec.ofNat 64 (field b 0x18 8)
          sem := BitVec.ofNat 32 (field b 0x20 4), hangMs := BitVec.ofNat 32 (field b 0x24 4) }
        if !cr.active || cr.ctx.toNat != c then d.endCtl k .notPermitted
        else if k.badId || field b 0 1 > 5 || c > 4095 || fl / 8 != 0 || bit fl 0 || field b 4 1 < 6 || field b 4 1 > 20
            || field b 5 1 != 0 || field b 0x38 8 != 0 || (bit fl 2 && field b 0x20 4 ≥ semCount) then
          d.endCtl k .badEntry
        else if d.ctxDead (BitVec.ofNat 12 c) then d.endCtl k .notActive
        else if (d.queue k.queue).state != .free then d.endCtl k .queueInUse
        else (d.setQueue k.queue q).endCtl k .ok

def Dev.ctlDestroyQueue (d : Dev) : Dev :=
  match d.ctl 5 with
  | none => d
  | some k =>
    let r := d.queue k.queue
    if k.queue = 0 then d.endCtl k .notPermitted
    else if k.badId then d.endCtl k .badEntry
    else if r.state == .free || r.state == .destroying then d.endCtl k .notActive
    else (d.openCtl k).destroyQueue k.queue (some k.e.seq)

def Dev.ctlCreateRing (d : Dev) : Dev :=
  match d.ctl 7 with
  | none => d
  | some k =>
    if k.queue = 0 then d.endCtl k .notPermitted
    else if k.badId then d.endCtl k .badEntry
    else match d.physRead k.arg0 32 with
      | none => d.endCtl k .badEntry
      | some b =>
        let c := field b 2 2
        let v := field b 6 2
        let r : CRing := {
          active := true, irqAll := bit (field b 1 1) 0, ctx := BitVec.ofNat 16 c, log2 := field b 4 1
          vector := BitVec.ofNat 16 v, ring := BitVec.ofNat 64 (field b 8 8), headA := BitVec.ofNat 64 (field b 0x10 8)
          modUs := BitVec.ofNat 32 (field b 0x18 4) }
        if field b 0 1 > 1 || field b 1 1 > 1 || c > 4095 || field b 4 1 < 6 || field b 4 1 > 20 || field b 5 1 != 0
            || v == 0 || (v > 2047 && v != 0xFFFF) || field b 0x1C 4 != 0 then d.endCtl k .badEntry
        else if d.ctxDead (BitVec.ofNat 12 c) then d.endCtl k .notActive
        else if (d.cring k.queue).active then d.endCtl k .queueInUse
        else (d.setCring k.queue r).endCtl k .ok

def Dev.ctlDestroyRing (d : Dev) : Dev :=
  match d.ctl 8 with
  | none => d
  | some k =>
    if k.queue = 0 then d.endCtl k .notPermitted
    else if k.badId then d.endCtl k .badEntry
    else if !(d.cring k.queue).active then d.endCtl k .notActive
    else if d.hif.queues.any fun q => q.2.state != .free && q.2.cring.toNat == k.queue then d.endCtl k .cringInUse
    else (d.setCring k.queue {}).endCtl k .ok

/-- CREATE_CTX (R250): `semFirst` is the range the firmware chooses. -/
def execCreateCtx (semFirst : Nat) (s : State) : Host.Outcome State Fault Refusal :=
  s.stepDev (s.toDev.createCtx semFirst)

/-- DESTROY_CTX (R286). -/
def execDestroyCtx (s : State) : Host.Outcome State Fault Refusal := s.stepDev s.toDev.ctlDestroyCtx

/-- RESUME_CTX (R251). -/
def execResumeCtx (s : State) : Host.Outcome State Fault Refusal := s.stepDev s.toDev.ctlResume

/-- CREATE_QUEUE (R286). -/
def execCreateQueue (s : State) : Host.Outcome State Fault Refusal := s.stepDev s.toDev.ctlCreateQueue

/-- DESTROY_QUEUE (R294). -/
def execDestroyQueue (s : State) : Host.Outcome State Fault Refusal := s.stepDev s.toDev.ctlDestroyQueue

/-- ADOPT_CTX (R301). -/
def execAdoptCtx (s : State) : Host.Outcome State Fault Refusal := s.stepDev s.toDev.ctlAdopt

/-- CREATE_CRING (R286). -/
def execCreateCring (s : State) : Host.Outcome State Fault Refusal := s.stepDev s.toDev.ctlCreateRing

/-- DESTROY_CRING (R286). -/
def execDestroyCring (s : State) : Host.Outcome State Fault Refusal := s.stepDev s.toDev.ctlDestroyRing

/-- SET_SCHED (R286). -/
def execSetSched (s : State) : Host.Outcome State Fault Refusal := s.stepDev s.toDev.ctlSched

end Sys2Proof.Machine
end

