-- ==== Sys2Proof/Machine/Exchange.lean ====
section
/-! DEFINITION. The Exchange's commands: collectives fetched from a job's ring, timed starts, completion, timeouts,
and the packets of R318 (R307, R310–R345). -/

namespace Sys2Proof.Machine

/-! ### The collective ring (R310–R314) -/

/-- States of the context in which the Exchange fetches (R310). -/
def CtxState.fetches : CtxState → Bool
  | .active | .saving | .saved | .restoring => true
  | _ => false

/-- Fetch the next descriptor of a job's ring: the descriptor, or none when nothing may be fetched or the job
faulted on the way. `op` is the operation the command names; one of a reserved code comes by any of them. -/
def Dev.fetchDesc (d : Dev) (j op : Nat) : Dev :=
  let x := d.job j
  let cx := x.ctx.setWidth 12
  let tail := (d.sem x.csem.toNat).toNat
  if x.state == .free || x.state == .faulted || !(d.ctx cx).state.fetches || decide (tail ≤ x.head) then d
  else
    match d.readVirt unitXch cx (x.cring.toNat + 64 * (x.head % 2 ^ x.clog2)) 64 with
    | (d, .error e) => (d.xchError j e .read).jobFault j 0x05
    | (d', .ok (bs, psn)) =>
      let code := field bs 0 1
      if code != op && decide (1 ≤ code) && decide (code ≤ 8) then d
      else
        let d := d'.setJob j { x with head := x.head + 1 }
        match d.writeVirt unitXch cx x.chead.toNat (le 8 (x.head + 1)) with
        | (d, .error e) => (d.xchError j e .write).jobFault j 0x05
        | (d, .ok ()) =>
          match (if psn then none else CDesc.ofBytes bs x.nrank) with
          | none => d.jobFault j 0x04
          | some c => d.placeDesc j { c with phase := if c.timed then c.start.toNat else d.ns, onWag := c.timed }

/-- A held descriptor tries again before any other is fetched (R310, R313); the COMMIT that waits tries to arrive. -/
def Dev.collective (d : Dev) (j op : Nat) : Dev :=
  if !d.up || (d.job j).withdrawn then d
  else
    let d := match d.xch.heldDesc.get? j with
      | some c => if c.op = op then
          ({ d with xch := { d.xch with heldDesc := d.xch.heldDesc.del j } } : Dev).placeDesc j c else d
      | none => if op = 8 && (d.xch.commits.get? j).isSome then d else d.fetchDesc j op
    if op = 8 then d.commitLoop j else d

/-- The bucket of the job's current attempt with a number, latest redo first. -/
def Dev.bktOf (d : Dev) (j : Nat) (n : BitVec 16) : Option Bucket :=
  (d.xch.bkts.filter fun b => b.job == j && (d.job j).current b && b.bucket == n && b.desc.isSome).getLast?

/-- The Waggle counter reached START (R314, R394). -/
def Dev.timedStart (d : Dev) (j : Nat) (n : BitVec 16) : Dev :=
  match d.bktOf j n with
  | some b => match b.desc with
    | some c => if b.state == .waitStart && d.timeReached c then (d.countEarly c.timed).beginBkt b.key else d
    | none => d
  | none => match d.xch.commits.get? j with
    | some c => if c.bucket == n && d.timeReached c then d.commitLoop j else d
    | none => d

/-! ### Completion (R315, R321, R325, R330, R333, R338) -/

/-- The element of DST_FMT of a finished value (R321, R327, R333); bits [63:40] of an F40 container are zero (R41), and the NaN of a
pair is canonical (R40). -/
def CDesc.dstCode (c : CDesc) (exps : List Nat) (e : Nat) (w : Word) : Nat :=
  let v := w.toNat
  if c.pairs then (canonPair w).toNat
  else if c.op == 4 || c.op == 5 then (if c.dstFmt == .f40 then v % 2 ^ 40 else v)
  else if c.g32 then
    let x := (exps[e / 32]?).getD 0
    (Fmt.encode c.dstFmt false ((Num.ofInt (intOf 32 true (v % 2 ^ 32))).scale ((x : Int) - 157))).1
  else if (c.wireOf false).blk then
    (Fmt.encode c.dstFmt false ((Fmt.decode c.wire false (v % 2 ^ 32)).1.withScale (v / 2 ^ 32))).1
  else (Fmt.encode c.dstFmt false (f32Val (v % 2 ^ 32))).1

/-- Write the result: for ALL_TO_ALL shard by shard, else from element 0. -/
def Dev.writeResult (d : Dev) (j : Nat) (x : Coll) (codes : List Nat) (psn : Bool) : Dev × Except XErr Unit :=
  let c := x.c
  if c.op = 5 then
    let mine := (shardIx x.n x.j.nrank x.j.rank).length
    (List.range x.j.nrank).foldl (fun a r =>
      match a with
      | (d, .error e) => (d, .error e)
      | (d, .ok ()) =>
        let part := (codes.drop (r * mine)).take (min mine (shardIx x.n x.j.nrank r).length)
        d.writeElems j c.dst c.dstBits (shardLo x.n x.j.nrank r) part psn) (d, .ok ())
  else d.writeElems j c.dst c.dstBits 0 codes psn

/-- The history bytes of the finished blocks this device holds, into the other bank (R330). -/
def Dev.writeHist (d : Dev) (j : Nat) (x : Coll) (b : Bucket) (ws : List Word) (psn : Bool) : Dev × Except XErr Unit :=
  let c := x.c
  let tbl := List.zip x.wants ws
  let blocks := (x.wants.map (· / 32)).dedup
  match d.readHist j c with
  | (d, .error e) => (d, .error e)
  | (d, .ok (old, _)) =>
    let byte (i : Nat) : Nat :=
      let ms := (tbl.filter fun p => p.1 / 32 == i).map fun p =>
        (Num.ofInt (intOf 32 true (p.2.toNat % 2 ^ 32))).scale ((((b.exps[i]?).getD 0 : Nat) : Int) - 157)
      (((ms.foldl Num.maxAbs Num.zero).log2Code)).getD ((old[i]?).getD 0)
    let base := c.hist + b2n (!(d.job j).bank) * (c.count / 32)
    d.writeElems j base 8 ((blocks.head?).getD 0) (blocks.map byte) psn

/-- Ranks whose result tallies this device awaits, and ranks it sends its own to (R338). -/
def Job.tallyFrom (x : Job) : List Nat :=
  ((if x.s ≤ 1 then [] else [x.board * x.s + (x.member + x.s - 1) % x.s])
    ++ (if x.nboard ≤ 1 then [] else [x.rankAt (x.pos + x.nboard - 1) x.member])).dedup

def Job.tallyTo (x : Job) : List Nat :=
  ((if x.s ≤ 1 then [] else [x.board * x.s + (x.member + 1) % x.s])
    ++ (if x.nboard ≤ 1 then [] else [x.rankAt (x.pos + 1) x.member])).dedup

/-- Two result tallies agree: both poisoned, or neither and equal. -/
def tallyMatch (t : Word) (p : Bool) (t' : Word) (p' : Bool) : Bool := if p || p' then p && p' else t == t'

/-- A result mismatch on this device: the ledger record, MISMATCHES and RESULT_MISMATCH (R338). -/
def Dev.resultMismatch (d : Dev) (j : Nat) (own got : Word) (rank bucket : Nat) : Dev :=
  let x := d.job j
  let d := d.ledger 0x05 0x02 {
    job := x.job.toNat, step := x.step.toNat, ctx := x.ctx.toNat, attempt := x.attempt, ta := own.toNat, tb := got.toNat
    aux0 := rank, aux1 := bucket }
  let d := d.updJob j fun x => { x with mismatches := satAdd x.mismatches }
  { d with xch := { d.xch with resultMismatch := true } }

/-- The device whose tally did not match hears of it by STEP_ABORT, which names neither the bucket nor the other tally: a free value
stands for the one, and chooses among the tallies this device sent in the attempt (R338; DESIGN CHOICE, assumption 120). -/
def Dev.toldMismatch (d : Dev) (j rank : Nat) : Dev :=
  let (d, w) := d.draw
  let (d, got) := d.draw
  let ts := (d.job j).tallied
  match ts[w.toNat % ts.length]? with
  | some t => d.resultMismatch j t.2 got rank t.1.toNat
  | none => d

/-- A complete collective whose result tallies all matched, or that has none, leaves its entries once it has sent what it owes
(R337, R349). -/
def Dev.bktOver (d : Dev) (k : BKey) : Dev :=
  match d.bkt? k with
  | some b => if b.owes then d.updBkt k fun b => { b with leaves := true } else d.dropBkt k
  | none => d

/-- Compare the result tallies that have arrived for a bucket: every one that does not match is recorded, and one abort raised; a
bucket whose tallies all matched leaves its entries (R338). -/
def Dev.compareTallies (d : Dev) (j : Nat) (n : BitVec 16) : Dev :=
  let x := d.job j
  match x.owned.find? (·.1 == n) with
  | none => d
  | some (_, t, p, wait) =>
    let here := x.results.filter fun r => r.1 == n && wait.contains r.2.1
    let wrong := here.filter fun r => !tallyMatch t p r.2.2.1 r.2.2.2
    if !wrong.isEmpty then
      (wrong.foldl (fun d r => d.resultMismatch j t r.2.2.1 r.2.1 n.toNat) d).raiseAbort j 3
    else
      let left := wait.filter fun r => !here.any (·.2.1 == r)
      let rest := x.owned.filter (·.1 != n)
      if left.isEmpty then
        let d := d.setJob j { x with owned := rest, results := x.results.filter (·.1 != n) }
        match d.bktOf j n with
        | some b => d.bktOver b.key
        | none => d
      else d.setJob j { x with owned := rest ++ [(n, t, p, left)] }

/-- Send the result tally and await the others' (R338). -/
def Dev.sendResult (d : Dev) (k : BKey) (x : Coll) (bs : List Byte) (psn : Bool) : Dev :=
  let j := x.j
  let t := crc64 (seedPrefix j.job.toNat k.bucket.toNat 0 (segSeq k.step k.attempt k.redo 7 0) ++ bs)
  let d := j.tallyTo.foldl (fun d r =>
    d.sendXch (bktPkt j k x.c.fmtByte 0x13 0 0 0 (le 8 t.toNat ++ le 1 (b2n psn)) psn) (j.devOf r)) d
  (d.updJob k.job fun y => { y with
    owned := y.owned ++ [(k.bucket, t, psn, j.tallyFrom)]
    tallied := if j.tallyTo.isEmpty then y.tallied else y.tallied ++ [(k.bucket, t)] }).compareTallies k.job k.bucket

/-- The DST writes of a collective are acknowledged: the history, DONE_SEM, the result tally, and the job's state
(R315, R330, R338, R341). What it still has to send goes on (R337). The elements of blocks that saturated at REDO 7 are free
values, poisoned, since a saturated result is never written (R329, R341; DESIGN CHOICE, assumption 142). -/
def Dev.completeColl (d : Dev) (j : Nat) (n : BitVec 16) : Dev :=
  match d.bktOf j n with
  | none => d
  | some b => match b.desc with
    | none => d
    | some c =>
      let k := b.key
      let v : XView := { x := Coll.mk' (d.job j) c b.probe, b := b }
      match v.whole with
      | none => d
      | some ws =>
        let sats := if c.g32 then satBlocks v.x ws else []
        if b.probe || !b.live || !(d.job j).running || (!sats.isEmpty && !(b.bad && b.redo == 7)) then d
        else
          let n0 := d.fresh
          let d := if sats.isEmpty then d else { d with fresh := n0 + ws.length }
          let codes := (List.zip (if c.op == 5 then List.range ws.length else v.x.wants) ws).map fun p =>
            if sats.contains (p.1 / 32) then (Config.free (n0 + p.1)).toNat % 2 ^ c.dstBits else c.dstCode b.exps p.1 p.2
          match d.writeResult j v.x codes b.bad with
          | (d, .error e) => d.xchFault k e .write
          | (d, .ok ()) =>
            match (if c.g32 then d.writeHist j v.x b ws b.bad else (d, .ok ())) with
            | (d, .error e) => d.xchFault k e .write
            | (d, .ok ()) =>
              let cx := (d.job j).ctx.setWidth 12
              let d := if b.bad then d.taintCtx cx else d
              let d := d.addOne (d.job j).job c.doneSem.toNat
              let d := d.trace 257 0xFFFF cx.toNat
              let d := d.updJob j fun x => { x with finished := x.finished ++ [{ bucket := n, redo := b.redo, bad := b.bad }] }
              let d := d.updBkt k fun b => { b with state := .done, overdue := false, owes := true }
              let d := d.settleSent k
              let late := (d.xch.bkts.any fun b => b.job == j && b.overdue) || (d.xch.heldDesc.get? j).any (·.overdue)
              let d := if (d.job j).state == .overdue && !late then d.updJob j fun x => { x with state := .open } else d
              let d := if c.op == 2 || c.op == 5 then d.bktOver k
                else d.sendResult k v.x (packBytes c.dstBits codes) b.bad
              d.commitLoop j

/-! ### Timeouts (R336, R341) -/

/-- Ranks whose data a bucket still awaits. -/
def XView.awaited (v : XView) : List Nat := (v.x.ins.filter fun s => v.missing s != 0).map (·.2)

/-- Ledger records of an overdue collective, one for each rank awaited. -/
def Dev.overdueRecords (d : Dev) (j : Nat) (n : BitVec 16) (rs : List Nat) : Dev :=
  let x := d.job j
  rs.dedup.foldl (fun d r => d.ledger 0x05 0x03 {
    job := x.job.toNat, step := x.step.toNat, ctx := x.ctx.toNat, attempt := x.attempt, aux0 := r, aux1 := n.toNat }) d

/-- TIMEOUT_MS have passed since a phase start or the last report (R314, R341), in Waggle time for a TIMED collective's START and
on the device's own clock for the rest (R384). -/
def Dev.timeUp (d : Dev) (j phase : Nat) (onWag : Bool) : Bool :=
  decide (phase + (d.job j).timeout * 1000000 ≤ if onWag then d.waggle else d.ns)

/-- A fetched collective of the job's attempt that is not complete, in the adders or held for want of entries: its phase start, on
which clock, and the ranks it awaits. COMMIT is none of the collectives of R341 (DEDUCED, assumption 121). -/
def Dev.incomplete (d : Dev) (j : Nat) (n : BitVec 16) : Option (Nat × Bool × List Nat) :=
  let x := d.job j
  match d.bktOf j n with
  | some b => if b.state == .done then none
      else b.desc.map fun c => (b.phase, b.onWag, ({ x := Coll.mk' x c b.probe, b := b } : XView).awaited)
  | none => match d.xch.heldDesc.get? j with
    | some c => if c.bucket == n && c.step == x.step && c.attempt == x.attempt then
        some (c.phase, c.onWag, (Coll.mk' x c false).ins.map (·.2)) else none
    | none => none

/-- A collective is overdue; its next report is due another TIMEOUT_MS on (R341). -/
def Dev.markOverdue (d : Dev) (j : Nat) (n : BitVec 16) : Dev :=
  let x := d.job j
  let more := x.timeout * 1000000
  let hit (b : Bucket) : Bool := b.job == j && x.current b && b.bucket == n && b.desc.isSome
  { d with xch := { d.xch with
    bkts := d.xch.bkts.map fun b => if hit b then { b with overdue := true, phase := b.phase + more } else b
    heldDesc := match d.xch.heldDesc.get? j with
      | some c => if c.bucket == n then d.xch.heldDesc.put j { c with overdue := true, phase := c.phase + more } else d.xch.heldDesc
      | none => d.xch.heldDesc } }

/-- TIMEOUT_MS after its phase start a collective is incomplete (R341). -/
def Dev.timeoutColl (d : Dev) (j : Nat) (n : BitVec 16) : Dev :=
  let x := d.job j
  match d.incomplete j n with
  | none => d
  | some (phase, onWag, ranks) =>
    if !x.running || !d.timeUp j phase onWag then d
    else if !x.policy then d.raiseAbort j 1
    else ((d.overdueRecords j n ranks).markOverdue j n).updJob j fun x => { x with state := .overdue }

/-- Under WAIT the receiver of a missing segment asks for it again at each report interval (R336). -/
def Dev.repeatResend (d : Dev) (j : Nat) (n : BitVec 16) : Dev :=
  let x := d.job j
  match d.bktOf j n with
  | none => d
  | some b => match b.desc with
    | none => d
    | some c =>
      if !x.policy then d
      else b.rx.foldl (fun d r =>
        let y := Coll.mk' x c r.probe
        (r.bad.filter fun s => decide (2 ≤ s.2.1) && !r.good.contains s.1).foldl (fun d s =>
          let pl := ((y.segs r.stage r.src x.rank)[s.1]?).bind (·.plane)
          let d := d.sendXch (bktPkt x b.key c.fmtByte 0x04 (b2n r.probe * 32) r.stage s.1 (le 4 s.1) b.bad) (x.devOf r.src) pl
          d.ledger 0x05 0x01 {
            job := x.job.toNat, step := x.step.toNat, ctx := x.ctx.toNat, attempt := x.attempt
            ta := s.2.2.1.toNat, tb := s.2.2.2.toNat, aux0 := r.src, aux1 := s.1 }) d) d

/-! ### Packets (R307, R309, R317–R320, R336–R338) -/

/-- A packet of an unknown job (R309). -/
def Dev.unknownJob (d : Dev) (p : XPkt) : Dev :=
  let d := { d with xch := { d.xch with unknownJob := true, unknownCount := satAdd d.xch.unknownCount } }
  d.ledger 0x05 0x04 { job := p.job.toNat, aux0 := p.srcRank.toNat % 2 ^ 15, aux1 := p.bucket.toNat }

/-- A configuration mismatch (R307): the record holds both CFGs where a JOB_HELLO brought one, else the packet's bucket (R434). -/
def Dev.badConfig (d : Dev) (j : Nat) (p : XPkt) : Dev :=
  let x := d.job j
  let d := { d with xch := { d.xch with cfgMismatch := true } }
  d.ledger 0x05 0x05 {
    job := x.job.toNat, step := x.step.toNat, ctx := x.ctx.toNat, attempt := x.attempt, ta := x.cfg.toNat
    tb := if p.kind == 0x10#8 then field p.data 0 4 else 0
    aux0 := p.srcRank.toNat % 2 ^ 15, aux1 := p.bucket.toNat }
  |>.jobFault j 0x03 |>.progressAll

def XPkt.rank (p : XPkt) : Nat := p.srcRank.toNat % 2 ^ 15

/-- What the sender of a DATA or TALLY packet is to the job (R307). -/
inductive Sender where
  | good | await | stranger
  deriving DecidableEq, Repr

def Job.sender (x : Job) (p : XPkt) : Sender :=
  if x.devOf (XPkt.rank p) != p.src || decide (x.nrank ≤ XPkt.rank p) then .stranger
  else if XPkt.stage p = 4 then .good
  else if !x.peers.contains (XPkt.rank p) then .stranger
  else if x.hellos.contains (XPkt.rank p) then .good
  else .await

/-- What matches a packet to its adder entry (R319). -/
def XPkt.key (p : XPkt) (j : Nat) : BKey :=
  { job := j, step := p.step, bucket := p.bucket, attempt := XPkt.attempt p, redo := XPkt.redo p }

/-- The segment of a packet of a fetched collective, and the plane it comes by. -/
def Dev.segOf (d : Dev) (j : Nat) (c : CDesc) (p : XPkt) : Option (Nat × Option Nat) :=
  let x := Coll.mk' (d.job j) c (XPkt.probe p)
  let segs := x.segs (XPkt.stage p) (XPkt.rank p) x.j.rank
  let at_ (s : Segm) : Option (Option Nat) :=
    if p.kind = 2 then some s.plane
    else if s.first ≤ p.index.toNat then (s.pkts[p.index.toNat - s.first]?).map (·.1) else none
  (List.zip (List.range segs.length) segs).findSome? fun s =>
    if p.kind = 2 && s.1 != p.index.toNat then none else (at_ s.2).map fun q => (s.1, q)

/-- The link die that a packet of a fetched collective goes to (R302): the plan's, whatever port it came by (R368), and for a
broadcast or an all-to-all that of its port. -/
def Dev.planDie (d : Dev) (j : Nat) (c : CDesc) (p : XPkt) : Nat :=
  match d.segOf j c p with
  | some (i, q) => (Coll.mk' (d.job j) c (XPkt.probe p)).die (portDie p.port.toNat) i q
  | none => XPkt.die p

/-- A DATA packet that begins a segment of a fetched collective: the segment and its link die (R414). -/
def Dev.beginsSeg (d : Dev) (j : Nat) (p : XPkt) : Option (Nat × Nat) :=
  match (d.bkt? (XPkt.key p j)) with
  | none => none
  | some b =>
    let r := b.rx.find? fun y => y.stage == XPkt.stage p && y.src == XPkt.rank p && y.probe == XPkt.probe p
    match b.desc with
    | none => none
    | some c => (d.segOf j c p).bind fun s =>
        if p.kind == 1#8 && r.all fun r => (r.chs.get? s.1).isNone && !r.good.contains s.1 then some (s.1, d.planDie j c p) else none

/-- No tally channel is free for the segment that a packet begins: the stream waits (R414). -/
def Dev.noChannel (d : Dev) (j : Nat) (p : XPkt) : Bool :=
  match d.beginsSeg j p with
  | some s => (d.freeCh s.2).isNone
  | none => false

/-- The adder entry of a packet: of a collective that is not fetched, the packet creates it in state EARLY on its link die (R319).
None when that die has none free. -/
def Dev.entryFor (d : Dev) (j : Nat) (p : XPkt) : Option Dev :=
  let k := XPkt.key p j
  match d.bkt? k with
  | some b =>
    let ld := match b.desc with | some c => d.planDie j c p | none => XPkt.die p
    if b.ents.any (·.1 == ld) then some d
    else (d.freeEntry ld).map fun i => d.updBkt k fun b => { b with ents := b.ents ++ [(ld, i)] }
  | none =>
    let ld := XPkt.die p
    (d.freeEntry ld).map fun i =>
    let b : Bucket := {
      job := j, step := p.step, bucket := p.bucket, attempt := XPkt.attempt p, redo := XPkt.redo p, ents := [(ld, i)] }
    { d with xch := { d.xch with bkts := d.xch.bkts ++ [b] } }

/-- The received stream a packet belongs to, in the bucket it is matched to. -/
def Dev.rxFor (d : Dev) (j : Nat) (p : XPkt) : Option (Dev × BKey) :=
  let k := XPkt.key p j
  let r : Rx := { stage := XPkt.stage p, src := XPkt.rank p, probe := XPkt.probe p }
  (d.entryFor j p).map fun d => (d.updBkt k fun b =>
    if b.rx.any fun y => y.stage == r.stage && y.src == r.src && y.probe == r.probe then b else { b with rx := b.rx ++ [r] }, k)

/-- Place a DATA or TALLY packet in its stream and let the bucket go on. -/
def Dev.placePkt (d : Dev) (j : Nat) (p : XPkt) : Dev :=
  match d.rxFor j p with
  | none => { d with xch := { d.xch with early := d.xch.early ++ [p] } }
  | some (d, k) =>
    let stage := XPkt.stage p
    let src := XPkt.rank p
    let probe := XPkt.probe p
    if p.kind = 2 then
      let i := field p.data 0 4
      let d := d.updRx k stage src probe fun r =>
        { r with tallies := r.tallies.put i (BitVec.ofNat 64 (field p.data 4 8)) }
      d.progress k progressFuel
    else if p.flags.getLsbD 0 then
      let base := d.fresh
      let d := { d with fresh := base + 2 ^ 30 }
      let d := d.updRx k stage src probe fun r => { r with withdrawn := some (r.withdrawn.getD base) }
      (d.spoil k).progress k progressFuel
    else
      let ch := (d.beginsSeg j p).bind fun s => (d.freeCh s.2).map fun c => (s.1, c)
      let d := match ch with
        | some (i, c) => d.updRx k stage src probe fun r => { r with chs := r.chs.put i c }
        | none => d
      let q : RxPkt := { data := p.data, ld := XPkt.die p, ovf := p.flags.extractLsb' 2 3, last := p.flags.getLsbD 1 }
      let d := d.updRx k stage src probe fun r =>
        if (r.pkts.get? p.index.toNat).isSome then r else { r with pkts := r.pkts.put p.index.toNat q }
      (if p.poison then d.spoil k else d).progress k progressFuel

/-- A packet of a collective this device has finished: one of an older redo is stale (R320), and a TALLY is acknowledged again
(R337, R370). -/
def Dev.ackAgain (d : Dev) (j : Nat) (p : XPkt) (fin : Finished) : Dev :=
  let x := d.job j
  if XPkt.redo p < fin.redo then d.staleOne j
  else if p.kind = 2 then
    d.sendXch (bktPkt x (XPkt.key p j) p.fmt.toNat 0x03 (b2n (XPkt.probe p) * 32) (XPkt.stage p) p.index.toNat (p.data.take 4)
      fin.bad) p.src
  else d

/-- A packet of an attempt or a step that is over (R320). -/
def Job.older (x : Job) (p : XPkt) : Bool :=
  decide (p.step.toNat < x.step.toNat) || (p.step == x.step && decide (XPkt.attempt p < x.attempt))

/-- The finished collective of the current attempt that a packet belongs to. -/
def Job.finishedOf (x : Job) (p : XPkt) : Option Finished :=
  if p.step == x.step && XPkt.attempt p == x.attempt then x.finished.find? (·.bucket == p.bucket) else none

/-- The redo a bucket of the current attempt has reached. -/
def Dev.redoOf (d : Dev) (j : Nat) (n : BitVec 16) : Nat := ((d.bktOf j n).map (·.redo)).getD 0

/-- A DATA or TALLY packet of a sender in order: stale ones are discarded, one of a newer attempt aborts the older ones
(R320). -/
def Dev.takePkt (d : Dev) (j : Nat) (p : XPkt) : Dev :=
  let x := d.job j
  let at_ := XPkt.attempt p
  if x.older p then d.staleOne j
  else if p.step == x.step && at_ == x.attempt then
    match x.finishedOf p with
    | some fin => d.ackAgain j p fin
    | none => if XPkt.redo p < d.redoOf j p.bucket then d.staleOne j else d.placePkt j p
  else if p.step == x.step && p.kind == 1#8 then
    let (d, w) := d.draw
    let d := d.peerAbort j p.step (at_ - 1) (w.toNat % 256) (XPkt.rank p)
    if (d.job j).state == .faulted then d else d.placePkt j p
  else d.placePkt j p

/-- A packet that this device holds for later (R307, R338). -/
def Dev.holdPkt (d : Dev) (p : XPkt) : Dev := { d with xch := { d.xch with early := d.xch.early ++ [p] } }

/-- A DATA packet that would be held as early data: its sender's JOB_HELLO is awaited, or its collective is not fetched (R307,
R319). -/
def Dev.isEarly (d : Dev) (j : Nat) (p : XPkt) : Bool :=
  let x := d.job j
  p.kind == 1#8 && !x.older p && (x.finishedOf p).isNone
    && (x.sender p == .await || (x.sender p == .good && (d.bkt? (XPkt.key p j)).all (·.desc.isNone)))

/-- A DATA or TALLY packet (R307, R319, R336). While a link die has no room for early data, or no tally channel for the segment
that it begins (R414), the packet stays in the port's receive buffer, which withholds its credit. One that awaits its sender's JOB_HELLO is held with an entry. -/
def Dev.dataPkt (d : Dev) (p : XPkt) : Dev :=
  match d.jobById p.job with
  | none => (d.consume 0x01 p.job).unknownJob p
  | some j =>
    let x := d.job j
    if d.isEarly j p && decide (earlyCap < d.earlyUse (XPkt.die p) + pktData) then d
    else if x.sender p == .good && !x.older p && d.noChannel j p then d
    else
      let d := d.consume 0x01 p.job
      if x.state == .faulted then (if x.older p then d.staleOne j else d)
      else if 4 < XPkt.stage p then d
      else match x.sender p with
        | .stranger => d.badConfig j p
        | .await => if x.older p then d.staleOne j
            else ((if p.kind == 1#8 && (x.finishedOf p).isNone then d.entryFor j p else none).getD d).holdPkt p
        | .good => d.takePkt j p

/-- A result tally of a neighbour (R338); one of an attempt this device has not reached is held. -/
def Dev.resultPkt (d : Dev) (j : Nat) (p : XPkt) : Dev :=
  let x := d.job j
  if p.step == x.step && XPkt.attempt p == x.attempt then
    (d.setJob j { x with results :=
        x.results ++ [(p.bucket, XPkt.rank p, BitVec.ofNat 64 (field p.data 0 8), field p.data 8 1 != 0)] }).compareTallies j p.bucket
  else if x.older p then d.staleOne j
  else d.holdPkt p

/-- Packets held for a job are looked at again after its attempt, its step or its peers changed. -/
def Dev.flushEarly (d : Dev) (id : BitVec 16) : Dev :=
  let (mine, rest) := d.xch.early.partition (·.job == id)
  mine.foldl (fun d p => match d.jobById id with
    | none => d
    | some j =>
      if (d.job j).state == .faulted then d
      else if p.kind == 0x13#8 then d.resultPkt j p
      else match (d.job j).sender p with
        | .good => d.takePkt j p
        | .await => d.holdPkt p
        | .stranger => d) { d with xch := { d.xch with early := rest } }

/-- A packet of a job this device holds. -/
def Dev.forAnyJob (d : Dev) (p : XPkt) (f : Dev → Nat → Dev) : Dev :=
  let d := d.consume 0x01 p.job
  match d.jobById p.job with
  | none => d.unknownJob p
  | some j => f d j

/-- A packet of a job this device holds and that has not faulted. -/
def Dev.forJob (d : Dev) (p : XPkt) (f : Dev → Nat → Dev) : Dev :=
  d.forAnyJob p fun d j => if (d.job j).state == .faulted then d else f d j

/-- The segment a SEG_ACK or RESEND names. -/
def SentSeg.named (s : SentSeg) (j : Nat) (p : XPkt) : Bool :=
  s.isOf (XPkt.key p j) && s.redo == XPkt.redo p && s.dst == XPkt.rank p && s.stage == XPkt.stage p
    && s.probe == XPkt.probe p && s.seg == field p.data 0 4

/-- A SEG_ACK or RESEND of a sender that is neither a board peer nor a ring neighbour, or in stage 4 not the rank's device, is a
configuration mismatch (R307). -/
def Dev.fromPeer (d : Dev) (j : Nat) (p : XPkt) (f : Dev → Dev) : Dev :=
  if (d.job j).sender p == .stranger then d.badConfig j p else f d

/-- A segment was acknowledged (R337). -/
def Dev.segAcked (d : Dev) (j : Nat) (p : XPkt) : Dev :=
  ({ d with xch := { d.xch with sent := d.xch.sent.filter fun s => !s.named j p } } : Dev).progressAll

/-- A receiver asks for a segment again (R336). -/
def Dev.segAgain (d : Dev) (j : Nat) (p : XPkt) : Dev :=
  match d.xch.sent.find? (·.named j p) with
  | none => d
  | some s => (d.sendSeg s).updJob j fun x => { x with resends := x.resends + 1 }

/-- A peer's configuration (R307). -/
def Dev.hello (d : Dev) (j : Nat) (p : XPkt) : Dev :=
  let x := d.job j
  if field p.data 0 4 ≠ x.cfg.toNat then d.badConfig j p
  else (d.setJob j { x with hellos := (x.hellos ++ [XPkt.rank p]).dedup }).flushEarly p.job

/-- The mismatch that a STEP_ABORT of cause 3 reports is this device's too: its originator is a rank that this device sent its
tally to. Where that rank compares two tallies, its board's and its ring's, the packet does not say whose differed, and a free
value decides (R338; DESIGN CHOICE, assumption 120). -/
def Dev.isTold (d : Dev) (j cause rank : Nat) (p : XPkt) : Dev × Bool :=
  let x := d.job j
  let told := cause = 3 && x.tallyTo.contains rank && p.step == x.step && XPkt.attempt p == x.attempt
    && (x.running || x.state == .committing)
  if told && decide (1 < x.s) && decide (1 < x.nboard) then
    let (d, w) := d.draw
    (d, w.getLsbD 0)
  else (d, told)

/-- A STEP_ABORT (R342); the first that reports a mismatch of the current attempt by a rank this device sent its tally to counts
and is recorded on this device too (R338). One that a FAULTED job meets does nothing but count where it is stale. Each is traced as
it is received (R460). The space it frees serves other jobs (R337). -/
def Dev.abortPkt (d : Dev) (j : Nat) (p : XPkt) : Dev :=
  let cause := field p.data 0 1
  let rank := field p.data 1 2
  let x := d.job j
  let d := d.trace 258 0xFFFF x.ctx.toNat p.step.toNat (XPkt.attempt p * 256 + cause)
  if x.state == .faulted then (if x.older p then d.staleOne j else d)
  else
    let (d, told) := d.isTold j cause rank p
    let d := if told then d.toldMismatch j rank else d
    (d.peerAbort j p.step (XPkt.attempt p) cause rank).flushEarly p.job

/-- After a command of the Exchange: packets held for the job are looked at again, and space freed in a resend buffer serves all
jobs (R337). -/
def Dev.stirXch (d : Dev) (id : BitVec 16) : Dev := (d.flushEarly id).progressAll

/-- The collective rows: the job's next descriptor has this operation. -/
def Dev.runColl (d : Dev) (j : JobIx) (op : Nat) : Dev := (d.collective j.val op).stirXch (d.job j.val).job

/-- ALL_REDUCE (R322). -/
def execAllReduce (j : JobIx) (s : State) : Host.Outcome State Fault Refusal := s.stepDev (s.toDev.runColl j 1)

/-- REDUCE_SCATTER (R322). -/
def execReduceScatter (j : JobIx) (s : State) : Host.Outcome State Fault Refusal := s.stepDev (s.toDev.runColl j 2)

/-- ALL_GATHER (R332). -/
def execAllGather (j : JobIx) (s : State) : Host.Outcome State Fault Refusal := s.stepDev (s.toDev.runColl j 3)

/-- BROADCAST (R325). -/
def execBroadcast (j : JobIx) (s : State) : Host.Outcome State Fault Refusal := s.stepDev (s.toDev.runColl j 4)

/-- ALL_TO_ALL (R312). -/
def execAllToAll (j : JobIx) (s : State) : Host.Outcome State Fault Refusal := s.stepDev (s.toDev.runColl j 5)

/-- MAX_IDX (R326). -/
def execMaxIdx (j : JobIx) (s : State) : Host.Outcome State Fault Refusal := s.stepDev (s.toDev.runColl j 6)

/-- MIN_IDX (R326). -/
def execMinIdx (j : JobIx) (s : State) : Host.Outcome State Fault Refusal := s.stepDev (s.toDev.runColl j 7)

/-- COMMIT (R344). -/
def execCommit (j : JobIx) (s : State) : Host.Outcome State Fault Refusal := s.stepDev (s.toDev.runColl j 8)

/-- TIMED_COLLECTIVE_START (R314). -/
def execTimedCollectiveStart (j : JobIx) (bucket : BitVec 16) (s : State) : Host.Outcome State Fault Refusal :=
  s.stepDev ((s.toDev.timedStart j.val bucket).stirXch (s.toDev.job j.val).job)

/-- COLLECTIVE_COMPLETE (R315). -/
def execCollectiveComplete (j : JobIx) (bucket : BitVec 16) (s : State) : Host.Outcome State Fault Refusal :=
  s.stepDev ((s.toDev.completeColl j.val bucket).stirXch (s.toDev.job j.val).job)

/-- COLLECTIVE_TIMEOUT (R341). -/
def execCollectiveTimeout (j : JobIx) (bucket : BitVec 16) (s : State) : Host.Outcome State Fault Refusal :=
  s.stepDev ((s.toDev.timeoutColl j.val bucket).stirXch (s.toDev.job j.val).job)

/-- RESEND_REPEAT (R336). -/
def execResendRepeat (j : JobIx) (bucket : BitVec 16) (s : State) : Host.Outcome State Fault Refusal :=
  s.stepDev (s.toDev.repeatResend j.val bucket)

/-- DATA (R319). -/
def execData (p : XPkt) (s : State) : Host.Outcome State Fault Refusal :=
  s.stepDev ((s.toDev.dataPkt { p with kind := 0x01 }).stirXch p.job)

/-- TALLY (R336). -/
def execTally (p : XPkt) (s : State) : Host.Outcome State Fault Refusal :=
  s.stepDev ((s.toDev.dataPkt { p with kind := 0x02 }).stirXch p.job)

/-- SEG_ACK (R337). -/
def execSegAck (p : XPkt) (s : State) : Host.Outcome State Fault Refusal :=
  s.stepDev (s.toDev.forJob p fun d j => d.fromPeer j p fun d => d.segAcked j p)

/-- RESEND (R336). -/
def execResend (p : XPkt) (s : State) : Host.Outcome State Fault Refusal :=
  s.stepDev (s.toDev.forJob p fun d j => d.fromPeer j p fun d => d.segAgain j p)

/-- JOB_HELLO (R307). -/
def execJobHello (p : XPkt) (s : State) : Host.Outcome State Fault Refusal :=
  s.stepDev (s.toDev.forJob p fun d j => d.hello j p)

/-- STEP_ABORT (R342). -/
def execStepAbort (p : XPkt) (s : State) : Host.Outcome State Fault Refusal :=
  s.stepDev (s.toDev.forAnyJob p fun d j => d.abortPkt j p).progressAll

/-- JOB_ABORT (R345). -/
def execJobAbort (p : XPkt) (s : State) : Host.Outcome State Fault Refusal :=
  s.stepDev (s.toDev.forJob p fun d j => (d.jobFault j 0x02 false (some (field p.data 0 1, field p.data 1 2))).progressAll)

/-- RESULT_TALLY (R338). -/
def execResultTally (p : XPkt) (s : State) : Host.Outcome State Fault Refusal :=
  s.stepDev (s.toDev.forJob p fun d j => ((d.resultPkt j p).commitLoop j).stirXch p.job)

end Sys2Proof.Machine
end

