-- ==== Sys2Proof/Machine/Shake.lean ====
section
/-! DEFINITION. SHAKE256 of FIPS 202, the hash of images, keys and identities (R445–R452). -/

namespace Sys2Proof.Machine

/-- The rotation of each lane, lane x + 5y at place x + 5y. -/
def keccakRot : List Nat :=
  [0, 1, 62, 28, 27, 36, 44, 6, 55, 20, 3, 10, 43, 25, 39, 41, 45, 15, 21, 8, 18, 2, 61, 56, 14]

def keccakRounds : List Nat :=
  [0x0000000000000001, 0x0000000000008082, 0x800000000000808A, 0x8000000080008000, 0x000000000000808B, 0x0000000080000001,
    0x8000000080008081, 0x8000000000008009, 0x000000000000008A, 0x0000000000000088, 0x0000000080008009, 0x000000008000000A]
  ++ [0x000000008000808B, 0x800000000000008B, 0x8000000000008089, 0x8000000000008003, 0x8000000000008002, 0x8000000000000080,
    0x000000000000800A, 0x800000008000000A, 0x8000000080008081, 0x8000000000008080, 0x0000000080000001, 0x8000000080008008]

/-- The 25 lanes, as numbers below 2^64. -/
abbrev Lanes := List Nat

def Lanes.lane (a : Lanes) (x y : Nat) : Nat := a.getD (x % 5 + 5 * (y % 5)) 0

def Lanes.build (f : Nat → Nat → Nat) : Lanes := (List.range 25).map fun i => f (i % 5) (i / 5)

def rotl64 (v n : Nat) : Nat := v * 2 ^ n % 2 ^ 64 + v / 2 ^ (64 - n)

def Lanes.theta (a : Lanes) : Lanes :=
  let c := (List.range 5).map fun x => (List.range 5).foldl (fun s y => Nat.xor s (a.lane x y)) 0
  let col (x : Nat) : Nat := c.getD (x % 5) 0
  Lanes.build fun x y => Nat.xor (a.lane x y) (Nat.xor (col (x + 4)) (rotl64 (col (x + 1)) 1))

/-- ρ and π: lane (x, y) of the result is lane (x + 3y, x) of the operand, rotated. -/
def Lanes.rhoPi (a : Lanes) : Lanes :=
  Lanes.build fun x y => rotl64 (a.lane (x + 3 * y) x) (keccakRot.getD ((x + 3 * y) % 5 + 5 * x) 0)

def Lanes.chi (a : Lanes) : Lanes :=
  Lanes.build fun x y => Nat.xor (a.lane x y) (Nat.land (2 ^ 64 - 1 - a.lane (x + 1) y) (a.lane (x + 2) y))

/-- Keccak-f[1600]. -/
def keccakF (a : Lanes) : Lanes :=
  keccakRounds.foldl (fun a rc =>
    match a.theta.rhoPi.chi with
    | [] => []
    | l :: ls => Nat.xor l rc :: ls) a

/-- The bytes of a block as lanes, little-endian. -/
def lanesOf (b : List Byte) : Lanes := (List.range 25).map fun i => field b (8 * i) 8

/-- Absorb blocks of 136 bytes. -/
def absorb (a : Lanes) (m : List Byte) : Nat → Lanes
  | 0 => a
  | n + 1 => absorb (keccakF (List.zipWith Nat.xor a (lanesOf (m.take 136)))) (m.drop 136) n

def squeeze (a : Lanes) : Nat → List Byte
  | 0 => []
  | n + 1 => ((a.take 17).flatMap fun l => le 8 l) ++ squeeze (keccakF a) n

/-- The message with its domain bits and padding to whole blocks. -/
def shakePad (m : List Byte) : List Byte :=
  let k := 136 - m.length % 136
  m ++ (if k = 1 then [0x9F] else [0x1F] ++ zeros (k - 2) ++ [0x80])

/-- SHAKE256 of a message, `n` bytes of output (R445). -/
@[irreducible] def shake256 (m : List Byte) (n : Nat) : List Byte :=
  let p := shakePad m
  (squeeze (absorb (List.replicate 25 0) p (p.length / 136)) (n / 136 + 1)).take n

end Sys2Proof.Machine
end

