-- ==== Sys2Proof/Machine/Ed448.lean ====
section
/-! DEFINITION. Ed448 of RFC 8032 with the empty context: public keys, signatures and their check (R446, R448, R450–R452).
Numbers modulo the field prime are plain naturals. -/

namespace Sys2Proof.Machine

namespace Curve

/-- The field prime 2^448 − 2^224 − 1. -/
def p : Nat := 2 ^ 448 - 2 ^ 224 - 1

/-- The order of the base point. -/
def order : Nat := 2 ^ 446 - 13818066809895115352007386748515426880336692474882178609894547503885

/-- The constant d = −39,081. -/
def d : Nat := p - 39081

def sub (a b : Nat) : Nat := (a + p - b) % p

/-- A power modulo the prime, from the exponent's bits, lowest first. -/
def powBits (acc b : Nat) (e : Nat) : Nat → Nat
  | 0 => acc
  | n + 1 => powBits (if e % 2 = 1 then acc * b % p else acc) (b * b % p) (e / 2) n

def pow (b e : Nat) : Nat := powBits 1 b e 448

def inv (a : Nat) : Nat := pow a (p - 2)

/-- A point, projective: x = X / Z and y = Y / Z. -/
structure Point where
  x : Nat
  y : Nat
  z : Nat
  deriving DecidableEq, Repr

def zero : Point := ⟨0, 1, 1⟩

def base : Point :=
  { x := 224580040295924300187604334099896036246789641632564134246125461686950415467406032909029192869357953282578032075146446173674602635247710
    y := 298819210078481492676017930443930673437544040154080242095928241372331506189835876003536878655418784733982303233503462500531545062832660
    z := 1 }

/-- The sum of two points, also when they are equal. -/
def add (s t : Point) : Point :=
  let a := s.z * t.z % p
  let b := a * a % p
  let c := s.x * t.x % p
  let e := s.y * t.y % p
  let k := d * c * e % p
  let f := sub b k
  let g := (b + k) % p
  let h := (s.x + s.y) * (t.x + t.y) % p
  { x := a * f * sub (sub h c) e % p, y := a * g * sub e c % p, z := f * g % p }

/-- A multiple of a point, from the factor's bits, lowest first. -/
def mulBits (acc t : Point) (k : Nat) : Nat → Point
  | 0 => acc
  | n + 1 => mulBits (if k % 2 = 1 then add acc t else acc) (add t t) (k / 2) n

def mul (k : Nat) (t : Point) : Point := mulBits zero t k 448

def Point.same (s t : Point) : Bool := s.x * t.z % p == t.x * s.z % p && s.y * t.z % p == t.y * s.z % p

/-- The 57 bytes of a point: y, and the lowest bit of x in the top bit. -/
def encode (t : Point) : List Byte :=
  let i := inv t.z
  le 57 (t.y * i % p + t.x * i % p % 2 * 2 ^ 455)

/-- The point of 57 bytes, if they spell one. -/
def decode (b : List Byte) : Option Point :=
  let n := unle b
  let y := n % 2 ^ 455
  let u := sub (y * y % p) 1
  let v := sub (d * (y * y % p) % p) 1
  let x := u * u % p * u % p * v % p * pow (u * u % p * u % p * (u * u % p) % p * (v * v % p) % p * v % p) ((p - 3) / 4) % p
  let odd := n / 2 ^ 455
  if b.length ≠ 57 ∨ p ≤ y ∨ v * (x * x % p) % p ≠ u ∨ (x = 0 ∧ odd = 1) then none
  else some ⟨if x % 2 = odd then x else p - x, y, 1⟩

end Curve

/-- What every hash over a message begins with: the scheme's name, no prehash, an empty context. -/
def dom4 : List Byte := [0x53, 0x69, 0x67, 0x45, 0x64, 0x34, 0x34, 0x38, 0, 0]

/-- The secret scalar of a private key. -/
def ed448Scalar (key : List Byte) : Nat := unle ((shake256 key 114).take 57) % 2 ^ 447 / 4 * 4 + 2 ^ 447

def hashOrder (m : List Byte) : Nat := unle (shake256 (dom4 ++ m) 114) % Curve.order

/-- The Ed448 public key of a private key (R448). -/
@[irreducible] def ed448Public (key : List Byte) : List Byte := Curve.encode (Curve.mul (ed448Scalar key) Curve.base)

/-- The Ed448 signature of a message (R450). -/
@[irreducible] def ed448Sign (key m : List Byte) : List Byte :=
  let a := ed448Scalar key
  let r := hashOrder ((shake256 key 114).drop 57 ++ m)
  let rb := Curve.encode (Curve.mul r Curve.base)
  let k := hashOrder (rb ++ ed448Public key ++ m)
  rb ++ le 57 ((r + k * a) % Curve.order)

/-- The check of a signature over a message under a public key (R446, R452). -/
@[irreducible] def ed448Verify (key m sig : List Byte) : Bool :=
  let s := unle (sig.drop 57)
  match Curve.decode key, Curve.decode (sig.take 57) with
  | some a, some r =>
    let k := hashOrder (sig.take 57 ++ key ++ m)
    sig.length == 114 && decide (s < Curve.order)
      && (Curve.mul 4 (Curve.mul s Curve.base)).same (Curve.mul 4 (Curve.add r (Curve.mul k a)))
  | _, _ => false

end Sys2Proof.Machine
end

