-- ==== Sys2Proof/Machine/TallyInsn.lean ====
section
/-! DEFINITION. The tally instructions of a frame (R183–R185). -/

namespace Sys2Proof.Machine

/-- The channel MOD[5:0] names. -/
def tyCh (x : Insn) : Fin 64 := ⟨x.mod.toNat % 64, Nat.mod_lt _ (by decide)⟩

/-- An earlier move, or an earlier instruction still in the tally unit, has yet to feed or set the channel (R184). -/
def Frame.chanBusy (fr : Frame) (ch : Fin 64) : Bool :=
  fr.chanFed ch fr.stamp || fr.tyQ.any fun e => e.job.chan == ch && match e.job with | .read _ _ => false | _ => true

/-- An instruction goes into the tally unit's queue, or holds while that is full (R105). -/
def tyIssue (d : Dev) (f : FrameId) (j : TyJob) : Issue :=
  if 16 ≤ (d.frame f).tyQ.length then .hold d
  else .next (d.updFrame f fun fr => { fr with tyQ := fr.tyQ ++ [{ stamp := fr.stamp, job := j }], stamp := fr.stamp + 1 })

/-- Hold issue while the channel is still fed (R184). -/
def whenFed (act : Dev → FrameId → Insn → Issue) : Dev → FrameId → Insn → Word → Issue :=
  fun d f x _ => if (d.frame f).chanBusy (tyCh x) then .hold d else act d f x

def nextS (i : BitVec 6) (k : Nat) : BitVec 6 := i + BitVec.ofNat 6 k

def tyinitBody : Body :=
  { legal := fun x => fieldsOk x none rS none none && decide (x.mod.toNat < 128) && decide (x.a.toNat ≤ 60)
    uses := fun x => useS [x.a, nextS x.a 1, nextS x.a 2, nextS x.a 3]
    unit := 5
    act := whenFed fun d f x =>
      let r := (d.frame f).regs
      let p := seedPrefix ((r.getS x.a).toNat % 65536) ((r.getS (nextS x.a 1)).toNat % 65536)
        ((r.getS (nextS x.a 3)).toNat % 32768) (r.getS (nextS x.a 2))
      tyIssue d f (.init (tyCh x) (bit x.mod.toNat 6) p) }

def tydataBody : Body :=
  { legal := fun x => fieldsOk x none rT none none && decide (x.mod.toNat < 64)
    uses := fun x => [.t x.a]
    unit := 5
    act := fun d f x _ =>
      let fr := d.frame f
      let r := fr.regs.getT x.a
      let t := r.shape
      let c0 := need (r.ok && !t.space) 0x03
        |>.then_ fun _ => need (r.known && (!t.scaled || t.fmt.scalable)) 0x02
        |>.then_ fun _ => checkLs [t.span false]
      match c0 with
      | .bad code ad => .fault code 5 ad
      | .ok =>
        if fr.overlaps [t.span false] then .hold d else tyIssue d f (.data (tyCh x) t) }

def tyrdBody : Body :=
  { legal := fun x => fieldsOk x rS none none none && decide (x.mod.toNat < 64)
    uses := fun x => useS [x.dst]
    unit := 5
    act := whenFed fun d f x =>
      tyIssue d f (.read (tyCh x) x.dst) }

def tywrBody : Body :=
  { legal := fun x => fieldsOk x none rS none none && decide (x.mod.toNat < 64)
    uses := fun x => useS [x.a]
    unit := 5
    act := whenFed fun d f x =>
      let fr := d.frame f
      let c := fr.chans[(tyCh x).val]
      let v := fr.regs.getS x.a
      if c.crc32 && decide (2 ^ 32 ≤ v.toNat) then .fault 0x01 5 none
      else tyIssue d f (.write (tyCh x) v) }

/-- TYINIT (R183). -/
def execTyinit (f : FrameId) (x : Insn) (s : State) : Host.Outcome State Fault Refusal :=
  s.stepDev ((s.toDev.issue f .tyinit x 0 tyinitBody).pumpTally f 16)

/-- TYDATA (R183). -/
def execTydata (f : FrameId) (x : Insn) (s : State) : Host.Outcome State Fault Refusal :=
  s.stepDev ((s.toDev.issue f .tydata x 0 tydataBody).pumpTally f 16)

/-- TYRD (R184). -/
def execTyrd (f : FrameId) (x : Insn) (s : State) : Host.Outcome State Fault Refusal :=
  s.stepDev ((s.toDev.issue f .tyrd x 0 tyrdBody).pumpTally f 16)

/-- TYWR (R184). -/
def execTywr (f : FrameId) (x : Insn) (s : State) : Host.Outcome State Fault Refusal :=
  s.stepDev ((s.toDev.issue f .tywr x 0 tywrBody).pumpTally f 16)

end Sys2Proof.Machine
end

