-- ==== Sys2Proof/Machine/Vector.lean ====
section
/-! DEFINITION. The vector and convert instructions (R165–R177). -/

namespace Sys2Proof.Machine

/-! ### Shapes of the instructions -/

def vecFloat : Fmt → Bool
  | .f16 | .f24 | .f32 => true
  | _ => false

def vecInt : Fmt → Bool
  | .q8 | .q16 | .q32 => true
  | _ => false

/-- A second tensor source SRCB (R169, R174). -/
def Op.hasB : Op → Bool
  | .vadd | .vsub | .vmul | .vfma | .vmax | .vmin | .vcmp | .vsel | .vand | .vor | .vxor | .vshl | .vshr | .gadd => true
  | _ => false

/-- SRCC is a tensor: an operand of VFMA, the index tensor of VRMAX and VRMIN. -/
def Op.hasC : Op → Bool
  | .vfma | .vrmax | .vrmin => true
  | _ => false

/-- Operations of the vector class that take floats only, or integers only (R169). -/
def Op.floatOnly : Op → Bool
  | .vexp2 | .vlog2 | .vrcp | .vrsqrt | .vsqrt | .vexp | .vtanh | .vsigm => true
  | _ => false

def Op.intOnly : Op → Bool
  | .vand | .vor | .vxor | .vshl | .vshr => true
  | _ => false

def Op.reduces : Op → Bool
  | .vrsum | .vrmax | .vrmin => true
  | _ => false

def Op.converts : Op → Bool
  | .cvt | .cvtg | .gadd | .cvtx => true
  | _ => false

def vecLegal (op : Op) (x : Insn) : Bool :=
  fieldsOk x (if op == .vcmp then rK else rT) rT
      (if Op.hasB op then rT else if op == .cvtg then rS else none)
      (if Op.hasC op then rT else if op == .vsel then rK else none)
    && (match op with
      | .cvt | .cvtg | .gadd => x.mod == 0
      | .cvtx => decide (x.mod.toNat < 512)
      | .vcmp => decide (x.mod.toNat < 128) && !x.mod.getLsbD 3 && decide (bits x.mod.toNat 6 4 < 6)
      | _ => decide (x.mod.toNat < 8))

/-! ### Issue -/

/-- Each extent of a source equals the destination's or is 1 (R165). -/
def extFits (s : Tensor) (e : Nat × Nat × Nat × Nat) : Bool :=
  let one (a b : Nat) : Bool := a == b || a == 1
  one s.e0 e.1 && one s.e1 e.2.1 && one s.e2 e.2.2.1 && one s.e3 e.2.2.2

def Tensor.ext (t : Tensor) : Nat × Nat × Nat × Nat := (t.e0, t.e1, t.e2, t.e3)

/-- The shape of a VCMP: the larger of the sources' extents (R168). -/
def extMax (a b : Tensor) : Nat × Nat × Nat × Nat := (max a.e0 b.e0, max a.e1 b.e1, max a.e2 b.e2, max a.e3 b.e3)

def plainQ32 (t : TReg) : Bool :=
  t.known && t.shape.fmt == .q32 && !t.shape.signed && !t.shape.scaled

/-- Extents of an instruction (R165, R168, R171, R175–R177). -/
def vecExtents (op : Op) (d a b c : Tensor) (idx : TReg) : Bool :=
  let rest := a.e1 == d.e1 && a.e2 == d.e2 && a.e3 == d.e3
  match op with
  | .vcmp => extFits a (extMax a b) && extFits b (extMax a b) && decide (max a.e0 b.e0 * max a.e1 b.e1 * max a.e2 b.e2 * max a.e3 b.e3 ≤ 256)
  | .vrsum => d.e0 == 1 && rest
  | .vrmax | .vrmin => d.e0 == 1 && rest && c.ext == d.ext && plainQ32 idx
  | .cvt => (d.e0 == if a.fmt == .g32 then 32 * a.e0 else a.e0) && rest
  | .cvtg => a.e0 == 32 * d.e0 && rest
  | .gadd => a.ext == d.ext && b.ext == d.ext
  | .cvtx => d.e0 == ceilDiv a.e0 32 && rest
  | .vfma => extFits a d.ext && extFits b d.ext && extFits c d.ext
  | _ => extFits a d.ext && (!Op.hasB op || extFits b d.ext)

/-- Formats of an instruction (R45, R166, R175–R177). -/
def vecFormats (op : Op) (x : Insn) (d a b c : Tensor) : Bool :=
  let elemFmt (t : Tensor) : Bool := t.fmt != .x8 && t.fmt != .g32
  let scOk (t : Tensor) : Bool := !t.scaled || t.fmt.scalable
  match op with
  | .cvt => a.fmt != .x8 && elemFmt d && scOk a && scOk d && !(a.scaled && d.fmt.isInt)
  | .cvtg => (vecFloat a.fmt || a.fmt == .f40) && !a.scaled && d.fmt == .g32 && !d.scaled
  | .gadd => a.fmt == .g32 && b.fmt == .g32 && d.fmt == .g32 && !a.scaled && !b.scaled && !d.scaled
  | .cvtx => elemFmt a && scOk a && d.fmt == .x8 && !d.scaled
      && ((Fmt.ofCode (x.mod.toNat % 256)).map (·.scalable)).getD false
  | _ =>
    let ts := (if op == .vcmp then [] else [d]) ++ [a] ++ (if Op.hasB op then [b] else [])
      ++ if op == .vfma then [c] else []
    ts.all (!·.scaled)
      && ((ts.all (vecFloat ·.fmt) && !Op.intOnly op) || (ts.all (vecInt ·.fmt) && !Op.floatOnly op))

/-- Everything a vector or convert instruction decides at issue (R141). The instruction the unit executes still counts
toward the queue's depth of 8 (R105; DESIGN CHOICE, assumption 108). -/
def vecIssue (op : Op) (d : Dev) (f : FrameId) (x : Insn) : Issue :=
  let fr := d.frame f
  let dR := if op == .vcmp then none else some (fr.regs.getT x.dst)
  let aR := fr.regs.getT x.a
  let bR := if Op.hasB op then some (fr.regs.getT x.b) else none
  let cR := if Op.hasC op then some (fr.regs.getT x.c) else none
  let rs := dR.toList ++ [aR] ++ bR.toList ++ cR.toList
  let a := aR.shape
  let dt := (dR.map (·.shape)).getD a
  let b := (bR.map (·.shape)).getD a
  let c := (cR.map (·.shape)).getD a
  let sb := if op == .cvtg then fr.regs.getS x.b else 0
  let sc (t : Tensor) (w : Bool) : List Span := if op == .cvt || op == .cvtx then t.scaleSpan w else []
  let ins := [a.span false] ++ (bR.map fun _ => [b.span false]).getD []
    ++ (if op == .vfma then [c.span false] else [])
  let outs := (dR.map fun _ => [dt.span true]).getD [] ++ (if vecWritesThird op then [c.span true] else [])
  let scales := sc a false ++ (dR.map fun _ => sc dt true).getD []
  let all := ins ++ outs ++ scales
  let c0 := need (decide (sb.toNat < 256)) 0x01
    |>.then_ fun _ => need (rs.all fun r => r.ok && !r.shape.space) 0x03
    |>.then_ fun _ => need (vecExtents op dt a b c ((cR.getD aR))) 0x03
    |>.then_ fun _ => need (rs.all (·.known) && vecFormats op x dt a b c) 0x02
    |>.then_ fun _ => checkLs all
  match c0 with
  | .bad code ad => .fault code 3 ad
  | .ok =>
    let (d, comb) := d.allOwnComb f (scales.map fun s => (s, if s.write then .write else .read))
    if !comb then .fault 0x03 3 none
    else match checkEff fr (scales.map fun s => (if s.write then Right.w else Right.r, s)) with
      | .bad code ad => .fault code 3 ad
      | .ok =>
        if 8 ≤ fr.vecQ.length || fr.overlaps all then .hold d
        else
          let j : VecJob := {
            word := insnWord op x, op := op, x := x, dst := dR.map (·.shape), a := a, b := bR.map (·.shape)
            c := cR.map (·.shape), sb := sb
            pred := if Op.converts op then BitVec.allOnes 256
              else fr.regs.getK ((x.mod.extractLsb' 0 3).setWidth 6)
            sel := if op == .vsel then fr.regs.getK x.c else 0 }
          .next (d.updFrame f fun fr => { fr with vecQ := fr.vecQ ++ [j] })

def vecUses (op : Op) (x : Insn) : List Dest :=
  (if op == .vcmp then (if x.dst == 0 then [] else [.k x.dst]) else [.t x.dst]) ++ [.t x.a]
    ++ (if Op.hasB op then [.t x.b] else if op == .cvtg then [.s x.b] else [])
    ++ (if Op.hasC op then [.t x.c] else if op == .vsel && x.c != 0 then [.k x.c] else [])
    ++ (let p := (x.mod.extractLsb' 0 3).setWidth 6
        if Op.converts op || p == 0 then [] else [.k p])

def vecBody (op : Op) : Body :=
  { legal := vecLegal op, uses := vecUses op, unit := 3, act := fun d f x _ => vecIssue op d f x }

/-! ### Element operations (R167–R170) -/

/-- `cond` of VCMP (R168). -/
def vcond (code : Nat) (a b : Num) : Bool :=
  match code with
  | 0 => a.eq b
  | 1 => !a.eq b
  | 2 => a.lt b
  | 3 => a.lt b || a.eq b
  | 4 => b.lt a
  | _ => b.lt a || a.eq b

def vmax (isMax : Bool) (a b : Num) : Num :=
  if a.isNan || b.isNan then .nan
  else if (if isMax then a.lt b else b.lt a) then b else a

/-- Float result before its rounding; `bits` is the code of the first operand with its format. -/
def vecFloatOp (op : Op) (input : Nat) (a b c : Num) (sel : Bool) : Num × FmtFlags :=
  let arith (ops : List Num) (r : Num) : Num × FmtFlags := (r, nanFlags ops r)
  match op with
  | .vadd => arith [a, b] (a.add b)
  | .vsub => arith [a, b] (a.sub b)
  | .vmul => arith [a, b] (a.mul b)
  | .vfma => arith [a, b, c] ((a.mul b).add c)
  | .vmax => arith [a, b] (vmax true a b)
  | .vmin => arith [a, b] (vmax false a b)
  | .vabs => arith [a] a.abs
  | .vneg => arith [a] a.neg
  | .vsel => if sel then arith [a] a else arith [b] b
  | op => arith [a] (trans op input a)

/-- Integer result, exact (R167, R169). -/
def vecIntOp (op : Op) (signedA : Bool) (a b c : Int) (sel : Bool) : Int :=
  let bw (g : Word → Word → Word) : Int := (g (BitVec.ofInt 64 a) (BitVec.ofInt 64 b)).toInt
  let sh := (b % 64).toNat
  match op with
  | .vadd => a + b
  | .vsub => a - b
  | .vmul => a * b
  | .vfma => a * b + c
  | .vmax => max a b
  | .vmin => min a b
  | .vabs => a.natAbs
  | .vneg => -a
  | .vsel => if sel then a else b
  | .vand => bw (· &&& ·)
  | .vor => bw (· ||| ·)
  | .vxor => bw (· ^^^ ·)
  | .vshl => a * 2 ^ sh
  | .vshr => if signedA then a >>> sh else ((a.toNat >>> sh : Nat) : Int)
  | _ => a

/-- An element with broadcast (R165): the code and the value. -/
def Tensor.bcast (t : Tensor) (m : Memory) (v : View) (i : Nat × Nat × Nat × Nat) : Nat × Num :=
  let s (e k : Nat) : Nat := if e = 1 then 0 else k
  let code := readBits m v (t.bitAddr (s t.e0 i.1) (s t.e1 i.2.1) (s t.e2 i.2.2.1) (s t.e3 i.2.2.2)) t.fmt.width
  (code, (t.fmt.decode t.signed code).1)

/-- Poison among the bytes of every element of a tensor. -/
def Tensor.anyPoison (t : Tensor) (m : Memory) (v : View) : Bool :=
  (List.range t.count).any fun w =>
    let i := t.idx w
    bitsPoison m v (t.bitAddr i.1 i.2.1 i.2.2.1 i.2.2.2) t.fmt.bits

/-- The index in a tensor of some extents of walk position `w` (R127). -/
def extIdx (e : Nat × Nat × Nat × Nat) (w : Nat) : Nat × Nat × Nat × Nat :=
  (w % e.1, w / e.1 % e.2.1, w / e.1 / e.2.1 % e.2.2.1, w / e.1 / e.2.1 / e.2.2.1)

/-- What an instruction gives: its writes, flags, and a mask for VCMP. -/
structure VecOut where
  buf : WBuf := []
  fl : FmtFlags := 0
  k : BitVec 256 := 0

def VecOut.put (o : VecOut) (t : Tensor) (v : View) (i : Nat × Nat × Nat × Nat) (code : Nat) : VecOut :=
  { o with buf := o.buf.putBits v (t.bitAddr i.1 i.2.1 i.2.2.1 i.2.2.2) t.fmt.bits code }

/-- Element-wise instructions (R165–R170). -/
def vecElems (j : VecJob) (m : Memory) (v : View) (dst : Tensor) : VecOut :=
  (List.range dst.count).foldl (fun o w =>
    let lane := w % 256
    if !j.pred.getLsbD lane then o
    else
      let i := dst.idx w
      let (ca, a) := j.a.bcast m v i
      let b := ((j.b.map fun t => (t.bcast m v i).2)).getD .zero
      let c := ((j.c.map fun t => (t.bcast m v i).2)).getD .zero
      let sel := j.sel.getLsbD lane
      let (r, fl) := if dst.fmt.isInt
        then (Num.ofInt (vecIntOp j.op j.a.signed a.toInt b.toInt c.toInt sel), 0)
        else vecFloatOp j.op (j.a.fmt.code * 2 ^ 64 + ca) a b c sel
      let (code, fl2) := dst.fmt.encode dst.signed r
      { o.put dst v i code with fl := o.fl ||| fl ||| fl2 }) {}

/-- VCMP (R168): lanes beyond the element count are 0; a lane the predicate leaves out keeps its value. -/
def vecCmp (j : VecJob) (m : Memory) (v : View) (b : Tensor) (old : BitVec 256) : VecOut :=
  let e := extMax j.a b
  let n := e.1 * e.2.1 * e.2.2.1 * e.2.2.2
  (List.range n).foldl (fun o w =>
    if !j.pred.getLsbD w then { o with k := o.k ||| (old &&& (1#256 <<< w)) }
    else
      let i := extIdx e w
      let a := (j.a.bcast m v i).2
      let c := (b.bcast m v i).2
      { o with
        k := if vcond (bits j.x.mod.toNat 6 4) a c then o.k ||| (1#256 <<< w) else o.k
        fl := o.fl ||| if a.isNan || c.isNan then flNanIn else 0 }) {}

/-- One level of the pairwise tree (R172): a lane without a partner passes unchanged. -/
def treeLevel : List VF → List VF
  | a :: b :: rest =>
    let s := add40 a.v b.v
    { v := s.v, fl := a.fl ||| b.fl ||| s.fl } :: treeLevel rest
  | xs => xs

/-- The sum of at most 256 lanes by the fixed tree, eight levels. -/
def treeSum (xs : List VF) : VF :=
  ((List.range 8).foldl (fun l _ => treeLevel l) xs).headD { v := Num.zero }

/-- The groups of 256 consecutive elements of a line. -/
def groups256 : Nat → List VF → List (List VF)
  | 0, _ => []
  | n + 1, xs => if xs.isEmpty then [] else xs.take 256 :: groups256 n (xs.drop 256)

/-- VRSUM of a line of floats (R172). -/
def lineSum (xs : List Num) : VF :=
  let gs := (groups256 (xs.length / 256 + 1) (xs.map fun x => { v := x })).map treeSum
  match gs with
  | [] => { v := Num.zero }
  | g :: gs => gs.foldl (fun t g =>
      let s := add40 t.v g.v
      { v := s.v, fl := t.fl ||| g.fl ||| s.fl }) g

/-- VRSUM of a line of integers: 64-bit two's complement, saturating (R33, R172). -/
def lineSumInt (xs : List Num) : VF :=
  xs.foldl (fun t x =>
    let (s, fl) := sat64 (t.v.toInt + x.toInt)
    { v := Num.ofInt s, fl := t.fl ||| fl }) { v := Num.zero }

/-- Reductions along DIM0 (R171, R172). -/
def vecReduce (j : VecJob) (m : Memory) (v : View) (dst : Tensor) : VecOut :=
  (List.range dst.count).foldl (fun o w =>
    if !j.pred.getLsbD (w % 256) then o
    else
      let i := dst.idx w
      let line := (List.range j.a.e0).map fun k => (j.a.bcast m v (k, i.2)).2
      let nanIn := if line.any (·.isNan) then flNanIn else 0
      if j.op == .vrsum then
        let s := if j.a.fmt.isInt then lineSumInt line else lineSum line
        let (code, fl) := dst.fmt.encode dst.signed s.v
        { o.put dst v i code with fl := o.fl ||| nanIn ||| s.fl ||| fl }
      else
        match rowWinner (j.op == .vrmax) ((List.zip line (List.range j.a.e0)).map fun p => (p.1, p.2)) with
        | none => o
        | some r =>
          let (code, fl) := dst.fmt.encode dst.signed r.1
          let o := o.put dst v i code
          let o := match j.c with
            | some t => o.put t v i r.2
            | none => o
          { o with fl := o.fl ||| nanIn ||| fl }) {}

/-! ### Conversions (R174–R177) -/

/-- The views of the scale arrays a conversion touches. -/
structure ScaleViews where
  src : View
  dst : View

/-- A source element of a conversion, a G32 block taken apart (R175); a NaN is a NaN operand consumed (R50, R54). -/
def cvtSource (t : Tensor) (m : Memory) (v sv : View) (i : Nat × Nat × Nat × Nat) : Num × FmtFlags :=
  if t.fmt == .g32 then
    let g := (t.gblock m v (i.1 / 32) i.2.1 i.2.2.1 i.2.2.2).1
    let x := (g.values[i.1 % 32]?).getD .nan
    (x, (if g.x = 0xFF then flX8Invalid else 0) ||| nanFlags [x] x)
  else
    let e := t.elem m v sv i.1 i.2.1 i.2.2.1 i.2.2.2
    (e.v, e.fl ||| nanFlags [e.v] e.v)

/-- The elements of the scale block an index lies in (R116). -/
def blockOf (t : Tensor) (i : Nat × Nat × Nat × Nat) : List (Nat × Nat × Nat × Nat) :=
  if t.red then
    ((List.range 32).map (i.2.1 / 32 * 32 + ·)).filter (decide <| · < t.e1) |>.map fun k => (i.1, k, i.2.2)
  else
    ((List.range 32).map (i.1 / 32 * 32 + ·)).filter (decide <| · < t.e0) |>.map fun k => (k, i.2)

/-- CVT (R175) of the first `n` elements: with a scaled destination each block's scale comes first and the elements are
encoded under it; a block with scale 0xFF encodes its elements at scale 1 (R46). -/
def vecCvt (j : VecJob) (m : Memory) (v : View) (sv : ScaleViews) (dst : Tensor) (n : Nat) : VecOut :=
  (List.range n).foldl (fun o w =>
    let i := dst.idx w
    let (x, fl) := cvtSource j.a m v sv.src i
    if dst.scaled then
      let s := blockScale dst.fmt dst.signed ((blockOf dst i).map fun k => (cvtSource j.a m v sv.src k).1)
      let y := if s = 0xFF then x else x.scale (-(x8Exp s))
      let (code, fl2) := dst.fmt.encode dst.signed y
      let o := o.put dst v i code
      { o with
        buf := o.buf.putBits sv.dst (8 * dst.scaleAddr i.1 i.2.1 i.2.2.1 i.2.2.2) 8 s
        fl := o.fl ||| fl ||| fl2 }
    else
      let (code, fl2) := dst.fmt.encode dst.signed x
      { o.put dst v i code with fl := o.fl ||| fl ||| fl2 }) {}

/-- Put a G32 block of a tensor. -/
def VecOut.putBlock (o : VecOut) (t : Tensor) (v : View) (i : Nat × Nat × Nat × Nat) (g : GBlock) : VecOut :=
  { o with buf := o.buf.putBits v (t.bitAddr i.1 i.2.1 i.2.2.1 i.2.2.2) 1056 (unle g.toBytes) }

/-- CVTG (R176). -/
def vecCvtg (j : VecJob) (m : Memory) (v : View) (dst : Tensor) : VecOut :=
  (List.range dst.count).foldl (fun o w =>
    let i := dst.idx w
    let xs := (List.range 32).map fun k => cvtSource j.a m v v (32 * i.1 + k, i.2)
    let (g, fl) := GBlock.ofNums (j.sb.toNat % 256) (xs.map (·.1))
    { o.putBlock dst v i g with fl := xs.foldl (fun fl x => fl ||| x.2) (o.fl ||| fl) }) {}

/-- GADD (R176). -/
def vecGadd (j : VecJob) (m : Memory) (v : View) (dst b : Tensor) : VecOut :=
  (List.range dst.count).foldl (fun o w =>
    let i := dst.idx w
    let (g, fl) := GBlock.add (j.a.gblock m v i.1 i.2.1 i.2.2.1 i.2.2.2).1 (b.gblock m v i.1 i.2.1 i.2.2.1 i.2.2.2).1
    { o.putBlock dst v i g with fl := o.fl ||| fl }) {}

/-- The source elements of a CVTX block (R177). -/
def cvtxBlock (a : Tensor) (i : Nat × Nat × Nat × Nat) : List (Nat × Nat × Nat × Nat) :=
  (((List.range 32).map (32 * i.1 + ·)).filter (decide <| · < a.e0)).map fun k => (k, i.2)

/-- CVTX (R177) of the first `n` blocks. -/
def vecCvtx (j : VecJob) (m : Memory) (v : View) (sv : ScaleViews) (dst : Tensor) (n : Nat) : VecOut :=
  let fmt := (Fmt.ofCode (j.x.mod.toNat % 256)).getD .q8
  (List.range n).foldl (fun o w =>
    let i := dst.idx w
    let xs := (cvtxBlock j.a i).map (cvtSource j.a m v sv.src ·)
    let s := blockScale fmt (bit j.x.mod.toNat 8) (xs.map (·.1))
    { o.put dst v i s with fl := xs.foldl (fun fl x => fl ||| x.2) o.fl }) {}

/-! ### Completion (R173, R221, R222) -/

/-- Poison among everything an instruction reads, scales included (R221). -/
def vecPoison (j : VecJob) (m : Memory) (v : View) (sv : ScaleViews) : Bool :=
  j.a.anyPoison m v || ((j.b.map fun t => t.anyPoison m v).getD false)
    || (j.op == .vfma && ((j.c.map fun t => t.anyPoison m v).getD false))
    || (Op.converts j.op && j.a.scaled
        && (List.range j.a.scaleBytes).any fun k => m.poisonedAt (sv.src.pa (j.a.scale + k)))

def vecResult (j : VecJob) (m : Memory) (v : View) (sv : ScaleViews) (oldK : BitVec 256) : VecOut :=
  match j.dst, j.b with
  | none, some b => vecCmp j m v b oldK
  | none, none => {}
  | some dst, b =>
    match j.op with
    | .cvt => vecCvt j m v sv dst dst.count
    | .cvtg => vecCvtg j m v dst
    | .gadd => vecGadd j m v dst (b.getD dst)
    | .cvtx => vecCvtx j m v sv dst dst.count
    | op => if Op.reduces op then vecReduce j m v dst else vecElems j m v dst

/-- Views of the scale arrays of a conversion. -/
def Dev.scaleViews (d : Dev) (f : FrameId) (j : VecJob) : Dev × Except XErr ScaleViews :=
  let opt (d : Dev) (s : List Span) (a : Acc6) : Dev × Except XErr View :=
    match s with | x :: _ => d.view f x a | [] => (d, .ok (lsView f))
  if !Op.converts j.op then (d, .ok { src := lsView f, dst := lsView f })
  else
    let (d, a) := opt d (j.a.scaleSpan false) .read
    let (d, b) := opt d ((j.dst.map fun t => t.scaleSpan true).getD []) .write
    match a, b with
    | .ok a, .ok b => (d, .ok { src := a, dst := b })
    | .error x, _ => (d, .error x)
    | _, .error x => (d, .error x)

/-- The oldest vector or convert instruction finishes. VCMP of poison kills the context and writes nothing. -/
def Dev.finishVec (d : Dev) (f : FrameId) (j : VecJob) (sv : ScaleViews) : Dev :=
  let fr := d.frame f
  let v := lsView f
  let psn := vecPoison j d.mem v sv
  let fr := { fr with vecQ := fr.vecQ.tail }
  if j.op == .vcmp && psn then (d.setFrame f fr).kill fr.ctx 6 j.a.base { frame := some f }
  else
    let o := vecResult j d.mem v sv (fr.regs.getK j.x.dst)
    ({ d with mem := d.mem.applyBuf o.buf psn } : Dev).setFrame f { (fr.raiseFlags o.fl) with
      regs := if j.op == .vcmp then fr.regs.setK j.x.dst o.k else fr.regs
      poison := fr.poison || (psn && !o.buf.isEmpty) }

/-- The addresses of the scales that a conversion uses for a walk position: those it reads and the one it writes. -/
def convScales (j : VecJob) (dst : Tensor) (w : Nat) : List (Bool × Nat) :=
  let i := dst.idx w
  let ks := if j.op == .cvtx then cvtxBlock j.a i else if dst.scaled then blockOf dst i else [i]
  (if j.a.scaled then ks.map fun k => (false, j.a.scaleAddr k.1 k.2.1 k.2.2.1 k.2.2.2) else [])
    ++ if dst.scaled then [(true, dst.scaleAddr i.1 i.2.1 i.2.2.1 i.2.2.2)] else []

/-- The pages of some scale addresses that translate. -/
def Dev.scalePages (d : Dev) (f : FrameId) (t : Tensor) (a : Acc6) (as_ : List Nat) : View :=
  { f := f, space := t.scaleSpace
    pages := (as_.map (· / 0x10000)).dedup.foldl (fun m p =>
      match d.xlate f.val (d.frame f).ctx (p * 0x10000) a with
      | (_, .ok r) => SMap.put m p r
      | (_, .error _) => m) [] }

/-- A conversion whose scale array fails on the way writes the elements before the first that needs the failing page
(R135). -/
def Dev.convBefore (d : Dev) (f : FrameId) (j : VecJob) : Dev :=
  match j.dst with
  | none => d
  | some dst =>
    let bad (s : Bool × Nat) : Bool :=
      (if s.1 then dst.scaleSpace else j.a.scaleSpace)
        && (match d.xlate f.val (d.frame f).ctx s.2 (if s.1 then .write else .read) with
            | (_, .error _) => true | _ => false)
    let n := ((List.range dst.count).find? fun w => (convScales j dst w).any bad).getD 0
    let used := (List.range n).flatMap (convScales j dst)
    let sv : ScaleViews := {
      src := d.scalePages f j.a .read ((used.filter (!·.1)).map (·.2))
      dst := d.scalePages f dst .write ((used.filter (·.1)).map (·.2)) }
    let v := lsView f
    let o := if j.op == .cvtx then vecCvtx j d.mem v sv dst n else vecCvt j d.mem v sv dst n
    let psn := j.a.anyPoison d.mem v || used.any fun s => !s.1 && d.mem.poisonedAt (sv.src.pa s.2)
    if n = 0 then d
    else ({ d with mem := d.mem.applyBuf o.buf psn } : Dev).updFrame f fun fr => { (fr.raiseFlags o.fl) with
      poison := fr.poison || psn }

def Dev.completeVec (d : Dev) (f : FrameId) : Dev :=
  match (d.frame f).vecQ with
  | [] => d
  | j :: _ => match d.scaleViews f j with
    | (d, .ok sv) => d.finishVec f j sv
    | (d, .error _) => d

/-- VADD (R167). -/
def execVadd (f : FrameId) (x : Insn) (s : State) : Host.Outcome State Fault Refusal :=
  s.stepDev (s.toDev.issue f .vadd x 0 (vecBody .vadd))

/-- VSUB (R167). -/
def execVsub (f : FrameId) (x : Insn) (s : State) : Host.Outcome State Fault Refusal :=
  s.stepDev (s.toDev.issue f .vsub x 0 (vecBody .vsub))

/-- VMUL (R167). -/
def execVmul (f : FrameId) (x : Insn) (s : State) : Host.Outcome State Fault Refusal :=
  s.stepDev (s.toDev.issue f .vmul x 0 (vecBody .vmul))

/-- VFMA (R167). -/
def execVfma (f : FrameId) (x : Insn) (s : State) : Host.Outcome State Fault Refusal :=
  s.stepDev (s.toDev.issue f .vfma x 0 (vecBody .vfma))

/-- VMAX (R168). -/
def execVmax (f : FrameId) (x : Insn) (s : State) : Host.Outcome State Fault Refusal :=
  s.stepDev (s.toDev.issue f .vmax x 0 (vecBody .vmax))

/-- VMIN (R168). -/
def execVmin (f : FrameId) (x : Insn) (s : State) : Host.Outcome State Fault Refusal :=
  s.stepDev (s.toDev.issue f .vmin x 0 (vecBody .vmin))

/-- VABS (R169). -/
def execVabs (f : FrameId) (x : Insn) (s : State) : Host.Outcome State Fault Refusal :=
  s.stepDev (s.toDev.issue f .vabs x 0 (vecBody .vabs))

/-- VNEG (R169). -/
def execVneg (f : FrameId) (x : Insn) (s : State) : Host.Outcome State Fault Refusal :=
  s.stepDev (s.toDev.issue f .vneg x 0 (vecBody .vneg))

/-- VCMP (R168). -/
def execVcmp (f : FrameId) (x : Insn) (s : State) : Host.Outcome State Fault Refusal :=
  s.stepDev (s.toDev.issue f .vcmp x 0 (vecBody .vcmp))

/-- VSEL (R168). -/
def execVsel (f : FrameId) (x : Insn) (s : State) : Host.Outcome State Fault Refusal :=
  s.stepDev (s.toDev.issue f .vsel x 0 (vecBody .vsel))

/-- VAND (R169). -/
def execVand (f : FrameId) (x : Insn) (s : State) : Host.Outcome State Fault Refusal :=
  s.stepDev (s.toDev.issue f .vand x 0 (vecBody .vand))

/-- VOR (R169). -/
def execVor (f : FrameId) (x : Insn) (s : State) : Host.Outcome State Fault Refusal :=
  s.stepDev (s.toDev.issue f .vor x 0 (vecBody .vor))

/-- VXOR (R169). -/
def execVxor (f : FrameId) (x : Insn) (s : State) : Host.Outcome State Fault Refusal :=
  s.stepDev (s.toDev.issue f .vxor x 0 (vecBody .vxor))

/-- VSHL (R169). -/
def execVshl (f : FrameId) (x : Insn) (s : State) : Host.Outcome State Fault Refusal :=
  s.stepDev (s.toDev.issue f .vshl x 0 (vecBody .vshl))

/-- VSHR (R169). -/
def execVshr (f : FrameId) (x : Insn) (s : State) : Host.Outcome State Fault Refusal :=
  s.stepDev (s.toDev.issue f .vshr x 0 (vecBody .vshr))

/-- VEXP2 (R170). -/
def execVexp2 (f : FrameId) (x : Insn) (s : State) : Host.Outcome State Fault Refusal :=
  s.stepDev (s.toDev.issue f .vexp2 x 0 (vecBody .vexp2))

/-- VLOG2 (R170). -/
def execVlog2 (f : FrameId) (x : Insn) (s : State) : Host.Outcome State Fault Refusal :=
  s.stepDev (s.toDev.issue f .vlog2 x 0 (vecBody .vlog2))

/-- VRCP (R170). -/
def execVrcp (f : FrameId) (x : Insn) (s : State) : Host.Outcome State Fault Refusal :=
  s.stepDev (s.toDev.issue f .vrcp x 0 (vecBody .vrcp))

/-- VRSQRT (R170). -/
def execVrsqrt (f : FrameId) (x : Insn) (s : State) : Host.Outcome State Fault Refusal :=
  s.stepDev (s.toDev.issue f .vrsqrt x 0 (vecBody .vrsqrt))

/-- VSQRT (R170). -/
def execVsqrt (f : FrameId) (x : Insn) (s : State) : Host.Outcome State Fault Refusal :=
  s.stepDev (s.toDev.issue f .vsqrt x 0 (vecBody .vsqrt))

/-- VEXP (R170). -/
def execVexp (f : FrameId) (x : Insn) (s : State) : Host.Outcome State Fault Refusal :=
  s.stepDev (s.toDev.issue f .vexp x 0 (vecBody .vexp))

/-- VTANH (R170). -/
def execVtanh (f : FrameId) (x : Insn) (s : State) : Host.Outcome State Fault Refusal :=
  s.stepDev (s.toDev.issue f .vtanh x 0 (vecBody .vtanh))

/-- VSIGM (R170). -/
def execVsigm (f : FrameId) (x : Insn) (s : State) : Host.Outcome State Fault Refusal :=
  s.stepDev (s.toDev.issue f .vsigm x 0 (vecBody .vsigm))

/-- VRSUM (R172). -/
def execVrsum (f : FrameId) (x : Insn) (s : State) : Host.Outcome State Fault Refusal :=
  s.stepDev (s.toDev.issue f .vrsum x 0 (vecBody .vrsum))

/-- VRMAX (R171). -/
def execVrmax (f : FrameId) (x : Insn) (s : State) : Host.Outcome State Fault Refusal :=
  s.stepDev (s.toDev.issue f .vrmax x 0 (vecBody .vrmax))

/-- VRMIN (R171). -/
def execVrmin (f : FrameId) (x : Insn) (s : State) : Host.Outcome State Fault Refusal :=
  s.stepDev (s.toDev.issue f .vrmin x 0 (vecBody .vrmin))

/-- CVT (R175). -/
def execCvt (f : FrameId) (x : Insn) (s : State) : Host.Outcome State Fault Refusal :=
  s.stepDev (s.toDev.issue f .cvt x 0 (vecBody .cvt))

/-- CVTG (R176). -/
def execCvtg (f : FrameId) (x : Insn) (s : State) : Host.Outcome State Fault Refusal :=
  s.stepDev (s.toDev.issue f .cvtg x 0 (vecBody .cvtg))

/-- GADD (R176). -/
def execGadd (f : FrameId) (x : Insn) (s : State) : Host.Outcome State Fault Refusal :=
  s.stepDev (s.toDev.issue f .gadd x 0 (vecBody .gadd))

/-- CVTX (R177). -/
def execCvtx (f : FrameId) (x : Insn) (s : State) : Host.Outcome State Fault Refusal :=
  s.stepDev (s.toDev.issue f .cvtx x 0 (vecBody .cvtx))

/-- VECTOR_COMPLETE (R173): the oldest instruction of the vector unit has written its last element. -/
def execVectorComplete (f : FrameId) (s : State) : Host.Outcome State Fault Refusal :=
  s.stepDev ((s.toDev.completeVec f).settle f)

end Sys2Proof.Machine
end

