-- ==== Sys2Proof/Machine/Sync.lean ====
section
/-! DEFINITION. Waits, bells, the end of a task, held issue, and the faults a frame meets outside issue
(R121, R122, R131–R135, R186–R190, R205, R210, R237). -/

namespace Sys2Proof.Machine

/-! ### Waits (R131, R186) -/

/-- Hold until a counter reaches a value. -/
def waitBody (n : Nat) (src : Option Nat) (cnt : Regs → Insn → BitVec 32) : Body :=
  { legal := fun x => regOk (some n) x.dst && regOk src x.a && regOk none x.b && regOk none x.c
      && (src.isNone || x.mod == 0)
    uses := fun x => if src.isNone then [] else useS [x.a]
    act := fun d f x _ =>
      let r := (d.frame f).regs
      let v := if src.isNone then x.mod.toNat else (r.getS x.a).toNat
      if 2 ^ 32 ≤ v then .fault 0x01 0 none
      else if v ≤ (cnt r x).toNat then .next d else .hold d }

def acOf (r : Regs) (x : Insn) : BitVec 32 := (r.ac.toList[x.dst.toNat]?).getD 0
def mcOf (r : Regs) (x : Insn) : BitVec 32 := (r.mc.toList[x.dst.toNat]?).getD 0

def waitAcBody : Body := waitBody 16 none acOf
def waitMcBody : Body := waitBody 8 none mcOf
def waitAcrBody : Body := waitBody 16 rS acOf
def waitMcrBody : Body := waitBody 8 rS mcOf

def waitAllBody : Body :=
  { legal := fun x => fieldsOk x none none none none && x.mod == 0
    act := fun d f _ _ => if (d.frame f).quiet then .next d else .hold d }

/-! ### Bells (R121, R187, R188, R210) -/

/-- The fabric address of a bell: bits [2:0] ignored, bit 63 reserved and taken as 0 (R187; DESIGN CHOICE, assumption
148). -/
def bellAddr (a : Word) : Word := a &&& 0x7FFFFFFFFFFFFFF8#64

def Dev.graphOf (d : Dev) (t : TaskRef) : Nat × Word :=
  (((d.graph? t.graph).map (·.queue)).getD 0, ((d.task? t).map (·.tag)).getD 0)

/-- Who answers for a bell of the task on a frame. -/
def Dev.bellOrigin (d : Dev) (f : FrameId) (word : Word) (add : Bool) : Origin :=
  let fr := d.frame f
  let t := fr.task.getD { graph := 0, idx := 0 }
  let g := d.graphOf t
  .taskBell f fr.ctx t word add g.1 g.2

/-- A bell of a task received an error: the running task faults, or the context of one that has ended (R210). The fault record
of the frame holds no address, since a bell's is neither an LS offset nor virtual (R144; DEDUCED, assumption 114). -/
def Dev.taskBellError (d : Dev) (o : Origin) (addr : Word) (cause : Nat) : Dev :=
  match o with
  | .taskBell f c t word add q tag =>
    let x : XErr := { cause := cause, va := addr.toNat, fab := some addr.toNat, bell := true }
    let a : Acc6 := if add then .bellAdd else .bellStore
    if (d.frame f).task == some t && (d.frame f).ctx == c then d.accessFault f x a 0 word
    else
      ((d.memFault c x a 0 f.val).faultCtx c).commandFault q (some c) { kind := 2, code := 0x06, tag := tag.toNat }
  | _ => d

/-- Ring a bell of a task, whose error may come at once. -/
def Dev.ringTaskBell (d : Dev) (addr value : Word) (add : Bool) (job : BitVec 16) (o : Origin) : Dev :=
  match d.bell addr value add job o with
  | (d, none) => d
  | (d, some cause) => d.taskBellError o addr cause

/-- The bell instruction's operation bits are 0 or 1 (R187). -/
def bellOp (v : Nat) : Bool := decide (v < 2)

def doneBody : Body :=
  { legal := fun x =>
      let r := if x.mod.getLsbD 0 then rS else none
      fieldsOk x none r r none && bellOp (x.mod.toNat / 2 % 4) && decide (x.mod.toNat < 8)
    uses := fun x => if x.mod.getLsbD 0 then useS [x.a, x.b] else []
    act := fun d f x _ =>
      let fr := d.frame f
      if x.mod.getLsbD 0 then
        let a := bellAddr (fr.regs.getS x.a)
        if !fr.grantsBell a.toNat then .fault 0x04 0 (some (a.toNat % 2 ^ 52, true))
        else .next (d.updFrame f fun fr => { fr with
          state := .ending, ringing := some (a, fr.regs.getS x.b, x.mod.getLsbD 1) })
      else .next (d.updFrame f fun fr => { fr with state := .ending }) }

/-- BELL (R188). The effect fault of a target that is not granted (R122) reports the low 52 bits of its fabric address, as of the
virtual space (R144; DESIGN CHOICE, assumption 114); so does that of DONE. -/
def bellBody : Body :=
  { legal := fun x => fieldsOk x none rS rS (if x.mod.getLsbD 2 then rS else none)
      && bellOp (x.mod.toNat % 4) && decide (x.mod.toNat < 8)
    uses := fun x => useS (if x.mod.getLsbD 2 then [x.a, x.b, x.c] else [x.a, x.b])
    act := fun d f x _ =>
      let fr := d.frame f
      let a := bellAddr (fr.regs.getS x.a)
      if !fr.grantsBell a.toNat then .fault 0x04 0 (some (a.toNat % 2 ^ 52, true))
      else if !fr.quiet then .hold d
      else
        let far := fabDev a != d.lnk.devId
        let (d, ready) := if far then d.commitReady fr.ctx (.bell f) else (d, true)
        if !ready then .hold d
        else if far && d.tainted fr.ctx fr then .stop (d.kill fr.ctx 2 a.toNat { frame := some f })
        else
          let add := x.mod.getLsbD 0
          let o := d.bellOrigin f (insnWord .bell x) add
          let job := (d.ctx fr.ctx).job
          let t := fr.regs.getS x.c
          if x.mod.getLsbD 2 && !d.wag.valid then
            .next (({ d with wag := { d.wag with earlyRel := satAdd d.wag.earlyRel } } : Dev).ringTaskBell a
              (fr.regs.getS x.b) add job o)
          else if x.mod.getLsbD 2 && decide (d.waggle < t.toNat) then
            .next { d with wag := { d.wag with tbells := d.wag.tbells ++ [{
              addr := a, value := fr.regs.getS x.b, add := add, time := t, job := job, origin := o }] } }
          else .next (d.ringTaskBell a (fr.regs.getS x.b) add job o) }

/-! ### Held issue (R104–R107, R131, R150, R184) -/

/-- The meaning of each operation at issue. -/
def opBody : Op → Body
  | .nop => nopBody | .add => addBody | .sub => subBody | .mul => mulBody | .andS => andBody | .orS => orBody
  | .xorS => xorBody | .shl => shlBody | .shr => shrBody | .sra => sraBody | .addi => addiBody | .andi => andiBody
  | .shli => shliBody | .shri => shriBody | .cmp => cmpBody | .cmpi => cmpiBody | .amov => amovBody
  | .aadd => aaddBody | .smova => smovaBody | .kand => kandBody | .kor => korBody | .knot => knotBody
  | .b => bBody | .bz => bzBody | .bnz => bnzBody | .bk => bkBody | .br => brBody | .li64 => li64Body
  | .ai64 => ai64Body | .mmaF => mmaBody .f .mmaF | .mmaH2 => mmaBody .h2 .mmaH2 | .mmaQ4 => mmaBody .q4 .mmaQ4
  | .mov => movBody | .tld => tldBody | .tldl => tldlBody | .tst => tstBody | .twr => twrBody | .trd => trdBody
  | .taddb => taddbBody | .text => textBody | .lds => ldsBody | .sts => stsBody | .ldsl => ldslBody
  | .stsl => stslBody | .lda => ldaBody | .sta => staBody | .tyinit => tyinitBody | .tydata => tydataBody
  | .tyrd => tyrdBody | .tywr => tywrBody | .waitAc => waitAcBody | .waitMc => waitMcBody
  | .waitAcr => waitAcrBody | .waitMcr => waitMcrBody | .waitAll => waitAllBody | .done => doneBody
  | .bell => bellBody
  | .vadd => vecBody .vadd | .vsub => vecBody .vsub | .vmul => vecBody .vmul | .vfma => vecBody .vfma
  | .vmax => vecBody .vmax | .vmin => vecBody .vmin | .vabs => vecBody .vabs | .vneg => vecBody .vneg
  | .vcmp => vecBody .vcmp | .vsel => vecBody .vsel | .vand => vecBody .vand | .vor => vecBody .vor
  | .vxor => vecBody .vxor | .vshl => vecBody .vshl | .vshr => vecBody .vshr | .vexp2 => vecBody .vexp2
  | .vlog2 => vecBody .vlog2 | .vrcp => vecBody .vrcp | .vrsqrt => vecBody .vrsqrt | .vsqrt => vecBody .vsqrt
  | .vexp => vecBody .vexp | .vtanh => vecBody .vtanh | .vsigm => vecBody .vsigm | .vrsum => vecBody .vrsum
  | .vrmax => vecBody .vrmax | .vrmin => vecBody .vrmin | .cvt => vecBody .cvt | .cvtg => vecBody .cvtg
  | .gadd => vecBody .gadd | .cvtx => vecBody .cvtx

/-- The held instruction tries again: it issues, or it holds on. -/
def Dev.releaseHold (d : Dev) (f : FrameId) : Dev :=
  let fr := d.frame f
  match fr.held with
  | none => d
  | some h =>
    if d.up && fr.mayIssue then ((d.tryIssue f h.op h.x h.imm (opBody h.op)).pumpMma f 8).pumpTally f 16 else d

/-! ### The end of a task (R133, R134, R237) -/

/-- DONE has issued and its waits are over: step 2 of R133, step 3 with its commit point, then the bell of step 4. A COPY's
record carries its tally (R416). -/
def Dev.signalDone (d : Dev) (f : FrameId) : Dev :=
  let fr := d.frame f
  match fr.task with
  | none => d
  | some t =>
    if fr.state != .ending || !fr.quiet || fr.killing then d
    else
      let d := d.updCtx fr.ctx fun c => { c with fmtFlags := c.fmtFlags ||| fr.fmtFlags.setWidth 64 }
      let far := match fr.ringing with | some r => fabDev r.1 != d.lnk.devId | none => false
      let (d, ready) := if far then d.commitReady fr.ctx (.taskDone f) else (d, true)
      if !ready then d
      else if far && d.tainted fr.ctx fr then d.kill fr.ctx 2 ((fr.ringing.map (·.1.toNat)).getD 0) { frame := some f }
      else
        let copy := fr.moves.any (·.copy)
        let i0 := if copy then (fr.chans[63].v ^^^ BitVec.allOnes 64).toNat else 0
        let i1 := if copy then b2n fr.poison else 0
        let o := d.bellOrigin f 0 ((fr.ringing.map (·.2.2)).getD false)
        let job := (d.ctx fr.ctx).job
        let d := ((d.endOnFrame f).taskDone t i0 i1).trace 1 f.val fr.ctx.toNat
        match fr.ringing with
        | none => d
        | some (a, v, add) => d.ringTaskBell a v add job o

/-- A fault stopped a task and what it had issued is over: the frame records the fault, and the Market moves the task to FAULTED,
with the capture of its frame (R134, R291, R293). A COPY's entry completes with TRANSLATION. -/
def Dev.signalFault (d : Dev) (f : FrameId) : Dev :=
  let fr := d.frame f
  match fr.task with
  | none => d
  | some t =>
    if fr.state != .faulted || !fr.quiet then d
    else if fr.killing then d.settle f
    else
      let d := d.updFrame f Frame.recordFault
      let fr := d.frame f
      let g := d.graphOf t
      let gr := d.graph? t.graph
      let e := gr.bind fun g => d.entry? g.queue g.seq
      let qr := d.queue g.1
      let copy := match gr with | some { kind := .copy .., .. } => true | _ => false
      let d := (d.updTask t fun x => { x with state := .faulted, frame := none }).faultCtx fr.ctx
      let d := match copy, e with
        | true, some e => (d.complete g.1 e .translation).1
        | _, _ => d
      let d := d.commandFault g.1 (some fr.ctx) {
        kind := 2, code := fr.fault.code.toNat, tag := g.2.toNat, frame := some f, graph := some t.graph
        entry := (e.map (·.bytes)).getD (zeros 64), ringAddr := (e.map fun e => qr.ringAddrOf e.seq).getD 0 }
      (d.endOnFrame f).trace 2 f.val fr.ctx.toNat

/-! ### Errors of accesses (R135, R164, R205) -/

/-- The drain views of a matrix instruction: the error with its access and unit, if one does not translate. -/
def Dev.drainError (d : Dev) (f : FrameId) (j : MmaJob) : Option (XErr × Acc6 × Nat) :=
  let try_ (s : List Span) (a : Acc6) (u : Nat) : Option (XErr × Acc6 × Nat) :=
    match s with
    | [] => none
    | x :: _ => match d.view f x a with | (_, .error e) => some (e, a, u) | _ => none
  let idx := j.mode == 4 || j.mode == 5
  let wr (acc : Bool) : Acc6 := if acc then .readWrite else .write
  let r1 := try_ (j.act.scaleSpan false) .read 1
  let r2 := try_ (if j.final then [j.dst.span true] else []) (wr (j.mode == 1 || j.merge)) 2
  let r3 := try_ ((j.third.map fun t => [t.span idx]).getD []) (if idx then wr j.merge else .read) 2
  let r4 := try_ (if idx then [] else (j.third.map (·.scaleSpan false)).getD []) .read 2
  r1 <|> r2 <|> r3 <|> r4

/-- The weights a matrix instruction loads do not translate. -/
def Dev.weightError (d : Dev) (f : FrameId) (j : MmaJob) : Option (XErr × Acc6 × Nat) :=
  match j.wgt with
  | none => none
  | some t => (t.span false :: t.scaleSpan false).findSome? fun s =>
    match d.view f s .read with | (_, .error e) => some (e, .read, 1) | _ => none

/-- Drop an instruction from the matrix unit and record its error: the accumulator entries of the task are discarded
(R164). -/
def Dev.failMma (d : Dev) (f : FrameId) (i : Nat) (j : MmaJob) (e : XErr × Acc6 × Nat) : Dev :=
  let d := match j.guardRec with | some id => d.dropTile id | none => d
  (d.updFrame f fun fr => { fr with
    mmaQ := fr.mmaQ.eraseIdx i
    arr := { fr.arr with acc := [], rows := [], issued := [] } }).accessFault f e.1 e.2.1 e.2.2 j.word

/-- The rows of a streaming instruction before the first whose operands do not translate are written (R135, R164). -/
def Dev.drainBefore (d : Dev) (f : FrameId) (j : MmaJob) : Dev :=
  let n := ((List.range j.m).find? fun r => (d.drainError f (j.cut (r + 1))).isSome).getD 0
  if n = 0 then d
  else match d.drainViews f (j.cut n) with
    | (d, .ok dv) => d.drainRows f (j.cut n) dv
    | (d, .error _) => d

def Dev.errorMma (d : Dev) (f : FrameId) : Dev :=
  let fr := d.frame f
  let drain := (List.range 4).findSome? fun g => (fr.streamingMma g).bind fun p =>
    (d.drainError f p.2).map fun e => (p.1, p.2, e)
  let load := (nextPlane fr.mmaQ).bind fun i => (fr.mmaQ[i]?).bind fun j => (d.weightError f j).map fun e => (i, j, e)
  match drain, load with
  | some (i, j, e), _ => (d.drainBefore f j).failMma f i j e
  | none, some (i, j, e) => d.failMma f i j e
  | none, none => d

def Dev.errorVec (d : Dev) (f : FrameId) : Dev :=
  match (d.frame f).vecQ with
  | [] => d
  | j :: js =>
    let try_ (s : List Span) (a : Acc6) : Option (XErr × Acc6) :=
      match s with
      | [] => none
      | x :: _ => match d.view f x a with | (_, .error e) => some (e, a) | _ => none
    match try_ (j.a.scaleSpan false) .read <|> try_ ((j.dst.map fun t => t.scaleSpan true).getD []) .write with
    | some (e, a) => ((d.convBefore f j).updFrame f fun fr => { fr with vecQ := js }).accessFault f e a 3 j.word
    | none => d

/-- The line of a move that cannot be read or written for want of a translation. -/
def Dev.errorMove (d : Dev) (f : FrameId) (i line : Nat) : Dev :=
  match (d.frame f).moves[i]? with
  | none => d
  | some m => match m.dstT.lines[line]? with
    | none => d
    | some pieces =>
      let ps := lineBytes pieces
      let addrs := ps.map fun p => m.dstT.rowAddr p.1 + p.2
      if !(d.frame f).mayLand i line addrs then d
      else
        let src := match d.lineData f m ps [] false with | (_, .bad x) => some x | _ => none
        let dst := if m.dst.isHost then none
          else match d.viewOf f m.dstT.space addrs .write with | (_, .error x) => some x | _ => none
        match src, dst with
        | some x, _ => d.failMove f i x .read
        | none, some x => d.failMove f i x .write
        | none, none => d

def Dev.errorAccess (d : Dev) (f : FrameId) (a : Access) : Dev :=
  let fr := d.frame f
  match a with
  | .load i => match (fr.loads[i]?).bind (·.err) with
    | some x => d.failLoad f i x
    | none => d
  | .store i => match fr.stores[i]? with
    | some s => match s.err with
      | some x => (d.setFrame f { fr with stores := fr.stores.eraseIdx i }).accessFault f x .write 0 s.word
      | none => d
    | none => d
  | .move i line => (d.errorMove f i line).pumpTally f 16
  | .mma => d.errorMma f
  | .vec => d.errorVec f

/-! ### Instruction fetch (R122) -/

/-- Fetch 8 bytes of the program: nothing wrong, a fault, or poison. -/
def Dev.fetchAt (d : Dev) (f : FrameId) (pc : Nat) : Dev × Option (Option XErr) × Bool × Nat :=
  let fr := d.frame f
  if (fr.ungranted .x pc (pc + 8)).isSome then (d, some none, false, 0)
  else match d.xlate f.val fr.ctx pc .fetch with
    | (d, .error x) => (d, some (some { x with va := pc }), false, 0)
    | (d, .ok (_, pa)) => (d, none, d.mem.readPoison pa 8, unle (d.read pa 8))

/-- The fetch at the program counter, and of a second word, fails (R122, R153). FRM_FAULT_INSN is 0 for a first word, which was
never fetched (R144; DESIGN CHOICE, assumption 112). A word fetched whose operation is reserved raises illegal instruction
(R139), of the sequencer, since no unit executes it (R144; DESIGN CHOICE, assumption 113). -/
def Dev.fetchFail (d : Dev) (f : FrameId) : Dev :=
  let fr := d.frame f
  if !(d.up && fr.mayIssue && fr.held.isNone) then d
  else
    let fail (d : Dev) (pc : Nat) (x : Option XErr) (insn : Nat := 0) : Dev :=
      let d := match x with | some x => d.memFault fr.ctx x .fetch 0 f.val | none => d
      d.updFrame f fun fr => fr.stopWith {
        code := 0x0A, unit := 0, precise := true, addrV := true, addr := BitVec.ofNat 52 pc, space := true
        insn := BitVec.ofNat 64 insn }
    let pc := fr.pc.toNat
    match d.fetchAt f pc with
    | (d, some x, _, _) => fail d pc x
    | (d, none, true, _) => d.kill fr.ctx 6 pc { frame := some f }
    | (d, none, false, w) =>
      if w / 2 ^ 56 == 0xE0 || w / 2 ^ 56 == 0xE1 then
        match d.fetchAt f (pc + 8) with
        | (d, some x, _, _) => fail d (pc + 8) x w
        | (d, none, true, _) => d.kill fr.ctx 6 (pc + 8) { frame := some f }
        | (d, none, false, _) => d
      else if (opOfCode (w / 2 ^ 56)).isNone then
        d.updFrame f fun fr => fr.stopWith { code := 0x01, unit := 0, precise := true, insn := BitVec.ofNat 64 w }
      else d

/-- WAIT_AC (R131). -/
def execWaitAc (f : FrameId) (x : Insn) (s : State) : Host.Outcome State Fault Refusal :=
  s.stepDev (s.toDev.issue f .waitAc x 0 waitAcBody)

/-- WAIT_MC (R131). -/
def execWaitMc (f : FrameId) (x : Insn) (s : State) : Host.Outcome State Fault Refusal :=
  s.stepDev (s.toDev.issue f .waitMc x 0 waitMcBody)

/-- WAIT_ACR (R186). -/
def execWaitAcr (f : FrameId) (x : Insn) (s : State) : Host.Outcome State Fault Refusal :=
  s.stepDev (s.toDev.issue f .waitAcr x 0 waitAcrBody)

/-- WAIT_MCR (R186). -/
def execWaitMcr (f : FrameId) (x : Insn) (s : State) : Host.Outcome State Fault Refusal :=
  s.stepDev (s.toDev.issue f .waitMcr x 0 waitMcrBody)

/-- WAIT_ALL (R131). -/
def execWaitAll (f : FrameId) (x : Insn) (s : State) : Host.Outcome State Fault Refusal :=
  s.stepDev (s.toDev.issue f .waitAll x 0 waitAllBody)

/-- ISSUE_HOLD_RELEASE (R131). -/
def execIssueHoldRelease (f : FrameId) (s : State) : Host.Outcome State Fault Refusal :=
  s.stepDev (s.toDev.releaseHold f)

/-- DONE (R133). -/
def execDone (f : FrameId) (x : Insn) (s : State) : Host.Outcome State Fault Refusal :=
  s.stepDev (s.toDev.issue f .done x 0 doneBody)

/-- BELL (R188). -/
def execBell (f : FrameId) (x : Insn) (s : State) : Host.Outcome State Fault Refusal :=
  s.stepDev (s.toDev.issue f .bell x 0 bellBody)

/-- TASK_DONE_SIGNAL (R237). -/
def execTaskDoneSignal (f : FrameId) (s : State) : Host.Outcome State Fault Refusal :=
  s.stepDev (s.toDev.signalDone f)

/-- TASK_FAULT_SIGNAL (R134). -/
def execTaskFaultSignal (f : FrameId) (s : State) : Host.Outcome State Fault Refusal :=
  s.stepDev (s.toDev.signalFault f)

/-- MEMORY_ERROR_RESPONSE (R135). -/
def execMemoryErrorResponse (f : FrameId) (acc : Access) (s : State) : Host.Outcome State Fault Refusal :=
  s.stepDev (s.toDev.errorAccess f acc)

/-- FETCH_FAULT (R122). -/
def execFetchFault (f : FrameId) (s : State) : Host.Outcome State Fault Refusal :=
  s.stepDev (s.toDev.fetchFail f)

end Sys2Proof.Machine
end

