-- ==== Sys2Proof/Machine/LinkOps.lean ====
section
/-! DEFINITION. Shared operations of the Arvond ports: flit bytes, violations, port states, training, routes,
what happens to the flits of a port that left ACTIVE, and error responses (R353–R382, R210). -/

namespace Sys2Proof.Machine

/-! ### Messages of the Apiary port (R451, R453) -/

/-- The header of a message (R451). -/
def apiaryHeader (type len flags : Nat) (session : BitVec 128) (seq : Word) : List Byte :=
  le 2 0x5041 ++ [1] ++ le 1 type ++ le 2 len ++ le 2 flags ++ le 16 session.toNat ++ le 8 seq.toNat

/-- The interface identifier: bytes 0–7 of the serial digest, with bit 1 of byte 0 cleared (R451). -/
def interfaceId (serial : List Byte) : List Byte :=
  match (serial ++ zeros 8).take 8 with
  | [] => []
  | b :: bs => (b &&& 0xFD) :: bs

/-- The link-local address (R451). -/
def Dev.linkLocal (d : Dev) : List Byte := [0xFE, 0x80] ++ zeros 6 ++ interfaceId d.sec.serial

/-- ff02::d4:1 (R451). -/
def bootGroup : List Byte := [0xFF, 0x02] ++ zeros 10 ++ [0x00, 0xD4, 0x00, 0x01]

/-- An unsigned message of the device with its number, from its link-local address (R451). -/
def Dev.datagram (d : Dev) (dst : Option (List Byte)) (type : Nat) (seq : Word) (body : List Byte) : Datagram :=
  { src := d.linkLocal, dst := dst, port := 47314
    payload := apiaryHeader type body.length 0 d.sec.session seq ++ body }

/-- Send a message over the Apiary port. -/
def Dev.apiaryTx (d : Dev) (type : Nat) (body : List Byte) (dst : Option (List Byte) := none) : Dev :=
  ({ d with sec := { d.sec with txSeq := d.sec.txSeq + 1 } } : Dev).emit (.apiary (d.datagram dst type d.sec.txSeq body))

/-- Send a report that is sent again until it is acknowledged. -/
def Dev.report (d : Dev) (type : Nat) (body : List Byte) : Dev :=
  let r : Report := { seq := d.sec.txSeq, type := BitVec.ofNat 8 type, body := body }
  ({ d with sec := { d.sec with reports := d.sec.reports ++ [r] } } : Dev).apiaryTx type body

/-! ### Flits as bytes (R353, R355, R356) -/

def PState.code : PState → Nat
  | .offline => 0 | .detect => 1 | .eq => 2 | .laneMap => 3 | .fecLock => 4 | .hello => 5 | .active => 6
  | .quarantined => 7 | .failed => 8 | .notReady => 9

/-- The CRC of a flit: the count as 4 bytes, then bytes 0x00–0xFB (R355). -/
def flitCrc (count : BitVec 32) (bs : List Byte) : Nat := (crc32c (le 4 count.toNat ++ bs)).toNat

/-- A data flit on a link. -/
def Flit.bytes (fl : Flit) (seq : BitVec 32) : List Byte :=
  let b := le 1 (fl.cls.toNat + 4 * b2n fl.poison) ++ [fl.proto] ++ le 2 fl.job.toNat ++ le 2 fl.dst.toNat
    ++ le 2 fl.src.toNat ++ le 2 seq.toNat ++ le 1 fl.payload.length ++ [0]
    ++ (fl.payload ++ fl.pad ++ zeros 240).take 240
  b ++ le 4 (flitCrc seq b)

/-- A flit as it arrives, with what stands in its payload field past LEN (R353). -/
def Flit.ofBytes (bs : List Byte) : Flit :=
  let c := field bs 0 1
  let n := field bs 0x0A 1
  let pad := slice bs (0x0C + n) (240 - n)
  { cls := BitVec.ofNat 2 c, poison := bit c 2, proto := BitVec.ofNat 8 (field bs 1 1)
    job := BitVec.ofNat 16 (field bs 2 2), dst := BitVec.ofNat 15 (field bs 4 2), src := BitVec.ofNat 15 (field bs 6 2)
    payload := slice bs 0x0C n, pad := if allZero pad then [] else pad }

/-- An idle flit (R353); its CRC folds a count of zero, as a link-control flit's does (DESIGN CHOICE, assumption 124). -/
def idleFlit : List Byte :=
  let b := 3 :: zeros 251
  b ++ le 4 (flitCrc 0 b)

/-- A link-control flit that restates this receiver's state, with a message (R356, R357). -/
def LPort.control (p : LPort) (msg : List Byte) : List Byte :=
  let b := [3] ++ (msg ++ [0]).take 1 ++ le 4 (p.rxSeq - 1).toNat ++ le 4 p.rxSeq.toNat
    ++ le 2 (b2n p.nak + 2 * p.laneMask.toNat) ++ p.freed.toList.flatMap (fun c => le 2 c.toNat)
    ++ (msg.drop 1 ++ zeros 234).take 234
  b ++ le 4 (flitCrc 0 b)

/-- A message goes with the next link-control flit. -/
def LPort.say (p : LPort) (msg : List Byte) : LPort := { p with msgs := p.msgs ++ [msg] }

def ledPort (p : Port) (partner : BitVec 16 := 0) : LedF :=
  { unit := 5, index := p.val, aux0 := partner.toNat % 2 ^ 15 * 2 ^ 32 }

/-! ### Routes of the board ports (R363, R376, R377) -/

def Dev.ownSlot (d : Dev) : Nat := d.lnk.devId.toNat % 8

/-- The LNK_RTB entry of the peer on a board port. -/
def Dev.boardIx (d : Dev) (p : Port) : Nat := d.lnk.devId.toNat % 64 / 8 * 8 + p.val % 8

def Dev.setRtb (d : Dev) (i : Nat) (w : Word) : Dev :=
  { d with lnk := { d.lnk with rtb := d.lnk.rtb.setIfInBounds i w } }

def Dev.planesWord (d : Dev) : Nat := ((d.activePlanes (2 ^ 24 - 1)).map (2 ^ ·)).sum

/-- The detour of a board peer whose port is out of ACTIVE: KIND 1 with the active planes (R377). -/
def Dev.detour (d : Dev) (p : Port) : Dev :=
  if p.val < 8 then d.setRtb (d.boardIx p) (BitVec.ofNat 64 (3 + d.planesWord * 2 ^ 8)) else d

/-- Detours follow the planes that become active or leave ACTIVE. -/
def Dev.refreshDetours (d : Dev) : Dev :=
  (List.finRange 32).foldl (fun d p =>
    if p.val < 8 && p.val != d.ownSlot && (d.port p).state != .active
        && ((d.lnk.rtb.toList[d.boardIx p]?).getD 0).toNat % 4 == 3 then d.detour p else d) d

def Dev.planEntry (d : Dev) (p : Port) : Option PlanEntry := d.lnk.plan.bind fun es => es[p.val]?

/-- A partner is expected on the port (R376). -/
def Dev.expected (d : Dev) (p : Port) : Bool :=
  match d.planEntry p with | some e => e.peerId != 0xFFFF | none => false

/-- Ports the link manager may train: ID checked, plan held, not disabled, not this device's own slot (R363, R366, R376). -/
def Dev.mayTrain (d : Dev) (p : Port) : Bool :=
  d.up && d.lnk.devV && !(p.val < 8 && p.val == d.ownSlot)
    && (match d.planEntry p with | some e => !e.flags.getLsbD 0 | none => false)

/-! ### Roles and parents (R386, R387) -/

def devOf (rack board slot : Nat) : BitVec 15 := BitVec.ofNat 15 (rack * 64 + board * 8 + slot)

/-- Slots of a board of the own rack that are populated: for the own board by the wiring plan, for the others by the
routes the link manager wrote from it. -/
def Dev.populated (d : Dev) (b : Nat) : List Nat :=
  let own := d.lnk.devId.toNat
  (List.range 8).filter fun s =>
    if b = own / 8 % 8 then decide (s = own % 8) || (if h : s < 32 then d.expected ⟨s, h⟩ else false)
    else ((d.lnk.rtb.toList[b * 8 + s]?).getD 0).getLsbD 0

/-- The board leader of a board of the own rack. -/
def Dev.boardLeader (d : Dev) (b : Nat) : Option (BitVec 15) :=
  let rack := d.lnk.devId.toNat / 64
  let root := d.wag.root.toNat
  if root / 8 = rack * 8 + b then some d.wag.root
  else (d.populated b).head?.map fun s => devOf rack b s

/-- The rack leader of a rack. -/
def Dev.rackLeader (d : Dev) (rack : Nat) : Option (BitVec 15) :=
  if d.wag.root.toNat / 64 = rack then some d.wag.root
  else if d.lnk.devId.toNat / 64 = rack then (List.range 8).findSome? fun b => d.boardLeader b
  else some (BitVec.ofNat 15 (rack * 64 + (Config.rackLeader rack).toNat))

/-- The rack leader at position (p − 1) div 8, for p ≥ 1. -/
def Dev.upperLeader (d : Dev) : Option (BitVec 15) :=
  let rr := d.wag.root.toNat / 64
  let p := (d.lnk.devId.toNat / 64 + 512 - rr) % 512
  if p = 0 then none else d.rackLeader ((rr + (p - 1) / 8) % 512)

/-- Role code and primary parent (R386, R408). -/
def Dev.roleOf (d : Dev) : Nat × Option (BitVec 15) :=
  let own := d.lnk.devId
  let rl := d.rackLeader (own.toNat / 64)
  let bl := d.boardLeader (own.toNat / 8 % 8)
  if own == d.wag.root then (3, none)
  else if rl == some own then (2, d.upperLeader)
  else if bl == some own then (1, rl)
  else (0, bl)

/-- The port toward a device for class W. -/
def Dev.portTo (d : Dev) (id : BitVec 15) : Option Nat := d.route (d.mkFlit classW 0x03 0 id [])

/-- The port of a parent (R386): the board port to the leader's slot for a device that is no leader and has its primary parent,
else the plane of R367. -/
def Dev.portOfParent (d : Dev) (id : BitVec 15) : BitVec 5 :=
  if d.wag.role == 0 && d.wag.primary == some id then BitVec.ofNat 5 (id.toNat % 8)
  else BitVec.ofNat 5 ((d.portTo id).getD 0)

def Dev.setParent (d : Dev) (p : Option (BitVec 15)) : Dev :=
  { d with wag := { d.wag with
    parent := p, parentPort := (p.map fun i => d.portOfParent i).getD 0, portLost := false, heard := d.ns, fallback := p != d.wag.primary, primGood := 0, primAns := false } }

def WState.code : WState → Nat
  | .freeRun => 0 | .acquiring => 1 | .locked => 2 | .holdover => 3 | .root => 4

/-- The servo changes state (R391). -/
def Dev.setServo (d : Dev) (st : WState) : Dev :=
  if d.wag.state == st then d
  else ({ d with wag := { d.wag with state := st, good := 0, badRun := 0 } } : Dev).trace 513 0xFFFF 0xFFFF

/-- The tree re-forms: role and primary parent follow the root, the plan and the device ID. -/
def Dev.reform (d : Dev) : Dev :=
  if !(d.wag.rootV && d.lnk.devV) then d
  else
    let (role, prim) := d.roleOf
    let d := ({ d with wag := { d.wag with role := BitVec.ofNat 2 role, primary := prim } } : Dev).setParent prim
    if d.lnk.devId == d.wag.root then
      { d.setServo .root with wag := { (d.setServo .root).wag with valid := true, rate := 0 } }
    else if d.wag.state == .root then d.setServo .acquiring
    else d

/-- A port left ACTIVE: a parent reached through it is lost (R387). -/
def Dev.losePort (d : Dev) (p : Port) : Dev :=
  if d.wag.parent.isSome && d.wag.parentPort.toNat == p.val then { d with wag := { d.wag with portLost := true } } else d

/-- Ports or routes changed: the tree re-forms where they change the role or the primary parent, and the port toward the
parent follows its route (R386). -/
def Dev.refreshTree (d : Dev) : Dev :=
  let w := d.wag
  if !(w.rootV && d.lnk.devV) then d
  else if d.roleOf == (w.role.toNat, w.primary) then
    { d with wag := { w with parentPort := (w.parent.map fun i => d.portOfParent i).getD 0 } }
  else d.reform

/-- The receive stamp of a Waggle message: the counter as the flit is complete, less the port's receive latency (R389). -/
def Dev.rxStamp (d : Dev) (p : Port) : BitVec 80 := d.wag.ctr - BitVec.ofNat 80 (Config.rxLatency p.val)

/-! ### Error responses (R210, R291, R354, R405) -/

/-- The tag that an error response to a flit carries: that of a bell or class B request, else the first four
payload bytes. -/
def Flit.tag (fl : Flit) : BitVec 32 :=
  BitVec.ofNat 32 (if fl.proto == 0x02 then field fl.payload 17 4
    else if fl.proto == 0x05 then field fl.payload 12 4
    else if fl.proto == 0x07 then field fl.payload 8 4
    else field fl.payload 0 4)

/-- A barrier message got an error response, which names its KEY alone: the group is BROKEN, and sends all that it sent for the
episode again, since receivers discard duplicates (R405; DESIGN CHOICE, assumption 150). -/
def Dev.barrierError (d : Dev) (key : BitVec 32) : Dev :=
  match d.wag.groups.find? fun g => g.2.state != .free && g.2.key == key with
  | some (gi, g) => if g.sentOut.isEmpty then d else d.breakGroup gi g.sentOut
  | none => d

/-- A barrier message of this device is lost before it leaves: the group sends that message again (R405). -/
def Dev.barrierLost (d : Dev) (fl : Flit) : Dev :=
  let ep := BitVec.ofNat 64 (field fl.payload 4 8)
  let r := field fl.payload 12 1
  match d.wag.groups.find? fun g => g.2.state != .free && g.2.key == BitVec.ofNat 32 (field fl.payload 0 4)
      && g.2.job == fl.job with
  | none => d
  | some (gi, g) =>
    match (g.targets r).filter fun m => ((g.members[m]?).getD 0).setWidth 15 == fl.dst with
    | [] => d
    | ms => d.breakGroup gi (ms.map fun m => (ep, r, m))

/-- The request of a load, store, move or bell is answered by an error (R210). -/
def Dev.originError (d : Dev) (r : Req) (cause : Nat) : Dev :=
  let x (va : Nat) : XErr := { cause := cause, va := va, fab := some r.addr.toNat }
  match r.origin with
  | .load f => match (d.frame f).loads.findIdx? (fun l => l.tag == some r.tag) with
    | some i => match (d.frame f).loads[i]? with
      | some l => (d.failLoad f i (x l.addr.toNat)).settle f
      | none => d
    | none => d
  | .store f => match (d.frame f).stores.findIdx? (fun l => l.tag == some r.tag) with
    | some i => match (d.frame f).stores[i]? with
      | some l => ((d.updFrame f fun fr => { fr with stores := fr.stores.eraseIdx i }).accessFault f (x l.addr.toNat) .write 0
          l.word).settle f
      | none => d
    | none => d
  | .moveRead f => match (d.frame f).moves.findIdx? (fun m => m.rtags.any fun t => t.1 == r.tag) with
    | some i =>
      let va := (((d.frame f).moves[i]?).bind fun m => (m.rtags.find? fun t => t.1 == r.tag).map (·.2)).getD 0
      ((d.failMove f i (x va) .read).pumpTally f 16).settle f
    | none => d
  | .moveWrite f => match (d.frame f).moves.findIdx? (fun m => m.wtags.any fun t => t.1 == r.tag) with
    | some i =>
      let va := (((d.frame f).moves[i]?).bind fun m => (m.wtags.find? fun t => t.1 == r.tag).map (·.2.2)).getD 0
      ((d.failMove f i (x va) .write).pumpTally f 16).settle f
    | none => d
  | .taskBell _ _ _ _ _ _ _ => d.taskBellError r.origin r.addr cause
  | .graphBell c q tag add => d.bellFailed c q tag r.addr add cause
  | .entryBell q seq => d.signalError q seq r.addr cause
  | .other c => d.memFault c (x r.addr.toNat) .read 0x9

/-- An error response reaches its requester. -/
def Dev.errorArrived (d : Dev) (tag : BitVec 32) (cause : Nat) : Dev :=
  match d.lnk.reqs.find? fun r => r.tag == tag with
  | some r => (d.dropReq tag).originError r cause
  | none => d.barrierError tag

/-- An error response for a flit that finds no route or was discarded goes to who waits for an answer (R367, R370). -/
def Dev.answerError (d : Dev) (fl : Flit) (cause : Nat) : Dev :=
  if fl.proto == 0x09 then d
  else
    let to_ := if fl.proto == 0x06 || fl.proto == 0x08 then fl.dst else fl.src
    if to_ == d.lnk.devId then (if fl.proto == 0x04 then d.barrierLost fl else d.errorArrived fl.tag cause)
    else d.sendError fl.cls fl.job to_ fl.tag cause

/-- Route a flit, or answer it with an error response (R367). -/
def Dev.forward (d : Dev) (fl : Flit) : Dev :=
  match d.sendFlit fl with
  | (d, true) => d
  | (d, false) => d.answerError fl 0x08

/-! ### Flits of a port that left ACTIVE (R370) -/

/-- One unacknowledged flit: class W again on its new route, Exchange data and tallies discarded, bells and class B
discarded with an error response. -/
def Dev.dropOrResend (d : Dev) (fl : Flit) : Dev :=
  if fl.cls == classW || fl.proto == 0x09 then d.forward fl
  else if fl.proto == 0x01 then d
  else d.answerError fl 0x08

/-- Segments without their SEG_ACK of which a flit is among those given. -/
def Dev.segsOf (d : Dev) (held : List Flit) : List SentSeg :=
  let mine := held.filter fun fl => fl.proto == 0x01 && fl.src == d.lnk.devId
  d.xch.sent.filter fun s => s.pkts.any fun q =>
    mine.any fun fl => fl.dst == (d.job s.job).devOf s.dst && fl.job == q.pkt.job && fl.payload == xpktBytes q.pkt

/-- Handle what a port that is not ACTIVE still holds in its replay buffer and its egress; the segments whose flits are discarded
are sent again on their new route. -/
def Dev.flushPort (d : Dev) (p : Port) : Dev :=
  let x := d.port p
  let queued := x.egW ++ x.egC ++ x.egB
  let segs := d.segsOf (x.replay.map (·.2) ++ queued)
  let d := d.setPort p { x with replay := [], resend := 0, nak := false, egW := [], egC := [], egB := [] }
  let d := (x.replay.map (·.2)).foldl (fun d fl => d.dropOrResend fl) d
  let d := queued.foldl (fun d fl => if fl.proto == 0x01 && fl.cls != classW && fl.src == d.lnk.devId then d
    else d.forward fl) d
  segs.foldl (fun d s => d.sendSeg s) d

/-! ### Port states (R371, R376–R378) -/

/-- Move a port to a state. A port that leaves ACTIVE loses its board route to a detour, and R370 applies to what it
holds. -/
def Dev.movePort (d : Dev) (p : Port) (st : PState) : Dev :=
  let x := d.port p
  if x.state == st then d
  else
    let d := (d.setPort p { x with state := st }).emit (if st == .notReady then .notReady p else .train p st)
    let d := d.trace 384 (p.val / 2) 0xFFFF (x.state.code * 16 + st.code)
    let d := if x.state == .active then (d.detour p).refreshDetours else d
    if x.state == .active then ((d.flushPort p).losePort p).refreshTree else d

/-- A partner is expected and its port is OFFLINE or FAILED: routed around, the device degraded (R376). -/
def Dev.missing (d : Dev) (p : Port) : Dev :=
  if d.expected p then
    let id := match d.planEntry p with | some e => e.peerId | none => 0
    ({ d with lnk := { d.lnk with degraded := true } } : Dev).detour p |>.ledger 0x06 0x02 (ledPort p id)
  else d

def Dev.portDown (d : Dev) (p : Port) (st : PState) : Dev :=
  ((d.movePort p st).updPort p fun x => { x with lanes := 0, parked := false, noPlace := false }).missing p

def Dev.quarantine (d : Dev) (p : Port) (cause : Nat) : Dev :=
  (d.updPort p fun x => { x with qcause := BitVec.ofNat 3 cause, noPlace := false, parked := false }).movePort p .quarantined

/-- Receive buffers of each class where training finds no reason for others (R359). -/
def defShares : Vector (BitVec 16) 3 := #v[64, 2560, 1472]

/-- A port starts training (R371). -/
def Dev.startDetect (d : Dev) (p : Port) : Dev :=
  (d.movePort p .detect).updPort p fun x => { x with
    lanes := 0, laneMask := 0, qcause := 0, peerV := false, peerId := 0, peerPort := 0, parked := false, noPlace := false
    fromHint := false, obs := {}, viol := [], shares := defShares }

def PState.inTraining : PState → Bool
  | .eq | .laneMap | .fecLock => true
  | _ => false

/-- Ports in EQ, LANE_MAP or FEC_LOCK: at most 8 (R481). -/
def Dev.trainingCount (d : Dev) : Nat :=
  ((List.finRange 32).filter fun p => (d.port p).state.inTraining).length

/-- The hint that R373 accepts for a port. -/
def Dev.hintFor (d : Dev) (p : Port) : Bool :=
  match d.planEntry p with
  | some e => d.lnk.hints.any fun h => h.1 == p.val && h.2.peerId == e.peerId && h.2.peerPort == e.peerPort
  | none => false

/-- The preset that the wiring plan names for a port, P7 where it names none (R372). -/
def Dev.planPreset (d : Dev) (p : Port) : BitVec 4 :=
  match d.planEntry p with
  | some e => if e.preset.toNat < 16 then e.preset.setWidth 4 else 7
  | none => 7

/-- DETECT is over: EQ, or NOT_READY while 8 ports are in training (R481, R482). -/
def Dev.enterEq (d : Dev) (p : Port) : Dev :=
  if 8 ≤ d.trainingCount then (d.movePort p .notReady).updPort p fun x => { x with noPlace := true }
  else
    (d.movePort p .eq).updPort p fun x => { x with
      parked := false, noPlace := false, fromHint := d.hintFor p, preset := d.planPreset p, retrains := satAdd x.retrains }

/-- Ports that answered NOT_READY for want of a place take the places that are free, the lowest first. -/
def Dev.fillPlaces (d : Dev) : Dev :=
  (List.finRange 32).foldl (fun d p =>
    if (d.port p).noPlace && d.mayTrain p && decide (d.trainingCount < 8) then d.enterEq p else d) d

/-- The largest lane count that does not exceed the good lanes (R375). -/
def laneCount (good : Nat) : Nat := ([8, 6, 4, 2, 1].find? (· ≤ good)).getD 0

def goodLanes (m : Byte) : Nat := ((List.range 8).filter fun i => m.getLsbD i).length

/-- The record of R373. -/
def Dev.eqRecord (d : Dev) (p : Port) : List Byte :=
  let x := d.port p
  le 2 x.peerId.toNat ++ le 1 x.peerPort.toNat ++ le 1 x.laneMask.toNat ++ zeros 4
    ++ (x.obs.txTaps ++ zeros 32).take 32 ++ (x.obs.rxTaps ++ zeros 16).take 16 ++ zeros 8

def LPort.heldOf (x : LPort) (c : BitVec 2) : Nat := (x.rx.filter (·.cls == c)).length

/-- The link starts afresh after training: counts from 0, credits granted (R355, R359). -/
def LPort.fresh (x : LPort) : LPort :=
  let taken (c : BitVec 2) : BitVec 16 := 0 - BitVec.ofNat 16 (x.heldOf c)
  { x with
    txSeq := 0, rxSeq := 0, replay := [], resend := 0, nak := false, sentC := Vector.replicate 3 0
    limit := x.shares, freed := #v[taken classW, taken classC, taken classB]
    tokens := 0, tokenCnt := 0, defC := 0, defB := 0, slot := 0, msgs := [], viol := [] }

/-- Shares that training reports: with the 64 of class W they divide the 4,096 flits of the receive buffer (R359). -/
def LPort.setShares (x : LPort) (o : Option (BitVec 16 × BitVec 16)) : LPort :=
  match o with
  | some (c, b) => if c.toNat + b.toNat = 4032 then { x with shares := #v[64, c, b] } else x
  | none => x

/-- HELLO matched the plan: ACTIVE, routes written, the result of the training reported (R373, R376). -/
def Dev.activate (d : Dev) (p : Port) : Dev :=
  let d := (d.updPort p fun x => { x.fresh with qcause := 0 }).movePort p .active
  let d := if p.val < 8 then d.setRtb (d.boardIx p) (BitVec.ofNat 64 (1 + p.val * 4)) else d.refreshDetours
  d.refreshTree.report 0x32 (le 1 p.val ++ d.eqRecord p)

/-- Compare the partner of HELLO with the wiring plan (R376). -/
def Dev.comparePeer (d : Dev) (p : Port) : Dev :=
  let x := d.port p
  match d.planEntry p with
  | none => d
  | some e =>
    if e.peerId == 0xFFFF then (d.quarantine p 1).ledger 0x06 0x01 (ledPort p x.peerId)
    else if e.peerId = x.peerId ∧ e.peerPort = x.peerPort then d.activate p
    else (d.quarantine p 2).ledger 0x06 0x03 (ledPort p x.peerId)

/-! ### Violations and retrains (R378) -/

/-- A retrain: the third in a minute, management's apart, quarantines the port. A port that may not train goes OFFLINE
(R366, R376). -/
def Dev.retrainPort (d : Dev) (p : Port) (cause : Nat) : Dev :=
  let recent := (d.port p).retrainAt.filter fun t => decide (d.ns < t + 60000000000)
  let times := if cause = 3 then recent else recent ++ [d.ns]
  let d := d.updPort p fun x => { x with
    retrainAt := times, violRetrains := if cause = 1 then satAdd x.violRetrains else x.violRetrains }
  if cause ≠ 3 ∧ 3 ≤ times.length then
    ((d.quarantine p 3).updPort p (·.say [6, 3])).ledger 0x06 0x06 { ledPort p (d.port p).peerId with sub := 3 }
  else
    let id := (d.port p).peerId
    (if d.mayTrain p then d.startDetect p else d.portDown p .offline).ledger 0x06 0x05 { ledPort p id with sub := cause }

/-- Send a link-control flit at once. -/
def Dev.sendControl (d : Dev) (p : Port) (msg : List Byte) : Dev := d.emit (.control p ((d.port p).control msg))

/-- Count a violation, which is logged; 16 in 1 ms retrain the port, unless it is quarantined, which only management and
resets end. -/
def Dev.violation (d : Dev) (p : Port) : Dev :=
  let d := d.logEntry 2 1
  let now := ((d.port p).viol.filter fun t => decide (d.ns < t + 1000000)) ++ [d.ns]
  let d := d.updPort p fun x => { x with viol := now }
  if 16 ≤ now.length && (d.port p).state == .active then (d.sendControl p [5, 1]).retrainPort p 1 else d

end Sys2Proof.Machine
end

