-- ==== Sys2Proof/Machine/Links.lean ====
section
/-! DEFINITION. The Arvond ports: flits received and sent, link-control messages, lanes, training and routes
(R353–R378). -/

namespace Sys2Proof.Machine

/-! ### Receiving flits (R355, R356, R358, R359, R378) -/

/-- A reserved CLASS, a reserved bit set, LEN above 240 or a SEQ that is not the expected one (R378). -/
def malformedFlit (seq : BitVec 32) (bs : List Byte) : Bool :=
  let c := field bs 0 1
  c % 4 == 3 || c / 8 != 0 || bit (field bs 4 2) 15 || bit (field bs 6 2) 15 || field bs 0x0B 1 != 0
    || field bs 0x0A 1 > 240 || field bs 8 2 != seq.toNat % 65536

def knownProto (p : Byte) : Bool := decide (1 ≤ p.toNat) && decide (p.toNat ≤ 9)

/-- Share of a class (R359). -/
def LPort.share (x : LPort) (c : BitVec 2) : Nat := ((x.shares.toList[c.toNat]?).getD 0).toNat

/-- A port with codeword alignment, or seeking it (R371). -/
def PState.decodes (st : PState) : Bool := st == .fecLock || st == .hello || st == .active || st == .quarantined

/-- Codewords that FEC could not correct since the last flit (R382). -/
def Dev.fecErrors (d : Dev) (p : Port) (n : Nat) : Dev :=
  if (d.port p).state.decodes then d.updPort p fun x => { x with fecUncorr := satAdd x.fecUncorr n } else d

/-- The buffer of a flit that leaves the receive buffer at once is free again. -/
def LPort.freeOne (x : LPort) (c : BitVec 2) : LPort :=
  { x with freed := x.freed.setIfInBounds c.toNat ((x.freed.toList[c.toNat]?).getD 0 + 1) }

/-- An unknown PROTO or MSG: UNSUPPORTED sent, the header in a ledger record (R378). -/
def Dev.unknownMessage (d : Dev) (p : Port) (bs : List Byte) : Dev :=
  let d := d.updPort p fun x => { (x.say (2 :: bs.take 12)) with unsupported := satAdd x.unsupported }
  let d := d.ledger 0x06 0x04 {
    unit := 5, index := p.val, syn := field bs 0 8
    aux0 := field bs 8 4 + (d.port p).peerId.toNat % 2 ^ 15 * 2 ^ 32 }
  d.violation p

/-- A flit that is good and in order: to a unit of this device, or on to its destination (R367). -/
def Dev.acceptFlit (d : Dev) (p : Port) (fl : Flit) : Dev :=
  if fl.dst == d.lnk.devId then
    let t := if fl.proto == 0x03 then d.rxStamp p else 0
    d.updPort p fun x => { x with rx := x.rx ++ [{ fl with stamp := t }] }
  else (d.updPort p (·.freeOne fl.cls)).forward fl

def Dev.receiveFlit (d : Dev) (p : Port) (bs : List Byte) : Dev :=
  let x := d.port p
  if x.state != .active || bs.length != 256 then d
  else if field bs 0 2 == 3 then d
  else if field bs 0xFC 4 != flitCrc x.rxSeq (bs.take 252) then
    d.setPort p { x with crcErr := satAdd x.crcErr, nak := true }
  else if malformedFlit x.rxSeq bs then
    (d.setPort p { x with malformed := satAdd x.malformed, nak := true }).violation p
  else
    let fl := Flit.ofBytes bs
    let d := d.setPort p { x with rxSeq := x.rxSeq + 1, nak := false }
    if !knownProto fl.proto then (d.updPort p (·.freeOne fl.cls)).unknownMessage p bs
    else if x.share fl.cls ≤ x.heldOf fl.cls then
      (d.updPort p fun x => { (x.say ([3] ++ le 1 fl.cls.toNat ++ le 2 1)) with creditOvr := satAdd x.creditOvr }).violation p
    else d.acceptFlit p fl

/-- `n` follows `m` in the count of the link, modulo 2^32 (R355). -/
def seqAfter (n m : BitVec 32) : Bool := decide (1 ≤ (n - m).toNat) && decide ((n - m).toNat < 2 ^ 31)

/-- The replay buffer once an ACK covers part of it (R358). -/
def LPort.acked (x : LPort) (ack : BitVec 32) : LPort :=
  let keep := x.replay.filter fun e => seqAfter e.1 ack
  { x with replay := keep, resend := min x.resend keep.length }

/-- A NAK asks for a replay from a number on; one already running goes on (R358). -/
def LPort.naked (x : LPort) (n : BitVec 32) : LPort :=
  let again := (x.replay.filter fun e => e.1 == n || seqAfter e.1 n).length
  if again = 0 ∨ x.resend ≠ 0 then x else { x with resend := again, replays := satAdd x.replays }

/-- A link-control flit: ACK, NAK and credits (R356). Its message, when it has one, is a command of its own. -/
def Dev.receiveControl (d : Dev) (p : Port) (bs : List Byte) : Dev :=
  let x := d.port p
  if bs.length != 256 || field bs 0 1 % 4 != 3 || field bs 0xFC 4 != flitCrc 0 (bs.take 252) then d
  else if field bs 0 1 != 3 || field bs 0x0A 2 / 512 != 0 then
    if x.state == .active || x.state == .quarantined then
      (d.setPort p { x with malformed := satAdd x.malformed }).violation p
    else d
  else
    let d := if x.state == .active then
        let x := x.acked (BitVec.ofNat 32 (field bs 2 4))
        let x := if bit (field bs 0x0A 2) 0 then x.naked (BitVec.ofNat 32 (field bs 6 4)) else x
        let credit (c : BitVec 2) : BitVec 16 := BitVec.ofNat 16 (x.share c + field bs (0x0C + 2 * c.toNat) 2)
        d.setPort p { x with limit := #v[credit classW, credit classC, credit classB] }
      else d
    if (x.state == .active || x.state == .quarantined) && 6 < field bs 1 1 then d.unknownMessage p bs else d

/-- HELLO: it is compared at once when the plan is held (R371, R376). -/
def Dev.hearHello (d : Dev) (p : Port) (id : BitVec 16) (peerPort : Byte) : Dev :=
  if (d.port p).state != .hello then d
  else (d.updPort p fun x => { x with
    peerId := id, peerV := true, peerPort := peerPort }).comparePeer p

/-- The partner reports an unknown PROTO or MSG, or a credit overrun, of this device's: it is logged. -/
def Dev.logPartner (d : Dev) (p : Port) : Dev :=
  if (d.port p).state == .active then d.logEntry 2 1 else d

/-! ### Lanes (R374, R375) -/

/-- The lanes of an ACTIVE port change: the sender then replays from the last ACK. LANE_DROPS counts a lower count (R382). -/
def Dev.setLanes (d : Dev) (p : Port) (mask : Byte) (n : Nat) : Dev :=
  let again := (d.port p).replay.length
  (d.updPort p fun x => { x with
    lanes := n, laneMask := mask, laneDrops := if n < x.lanes then satAdd x.laneDrops else x.laneDrops, resend := again
    replays := if again = 0 then x.replays else satAdd x.replays }).trace 385 (p.val / 2) 0xFFFF

/-- A lane of a trained port fails (R374): it leaves service until the next training. An ACTIVE port tells its partner, and goes
OFFLINE with its last lane (R375). -/
def Dev.laneFails (d : Dev) (p : Port) (lane : Fin 8) : Dev :=
  let x := d.port p
  let mask := x.laneMask &&& ~~~(1#8 <<< lane.val)
  let n := laneCount (goodLanes mask)
  if x.laneMask.getLsbD lane.val = false then d
  else match x.state with
    | .active =>
      if n = 0 then (d.updPort p fun x => { x with laneMask := mask }).portDown p .offline
      else (d.updPort p (·.say ([4] ++ [mask] ++ le 1 n))).setLanes p mask n
    | .fecLock | .hello | .quarantined => d.updPort p fun x => { x with
        laneMask := mask, lanes := n, laneDrops := if n < x.lanes then satAdd x.laneDrops else x.laneDrops }
    | _ => d

/-- LANE_DROP from the partner: both ends go on with lanes that neither has lost, at most as many as it names (R374, R375). -/
def Dev.partnerLanes (d : Dev) (p : Port) (mask count : Byte) : Dev :=
  let x := d.port p
  if x.state == .active && decide (count.toNat ≤ x.lanes) && laneCount count.toNat == count.toNat && count != 0 then
    let m := x.laneMask &&& mask
    let n := min count.toNat (laneCount (goodLanes m))
    if n = 0 then (d.updPort p fun x => { x with laneMask := m }).portDown p .offline else d.setLanes p m n
  else d

/-! ### Sending (R358–R360) -/

/-- Credits of a class that are left. -/
def LPort.credit (x : LPort) (c : BitVec 2) : Nat :=
  ((x.limit.toList[c.toNat]?).getD 0 - (x.sentC.toList[c.toNat]?).getD 0).toNat

/-- What a data slot may carry (R360). -/
inductive Pick where
  | w | c | b | none
  deriving DecidableEq, Repr

/-- The choice of a data slot: class W with a token, else C (with W flits that have no token) and B by deficit round
robin, which begins anew at the slot that meets other weights (R360, R380). -/
def LPort.pick (x : LPort) (cw bw : Nat) : Pick × LPort :=
  let x := if x.arb = (cw, bw) then x else { x with arb := (cw, bw), defC := 0, defB := 0 }
  let w := !x.egW.isEmpty && decide (0 < x.credit classW) && decide (x.credit classW < 2 ^ 15)
  let c := !x.egC.isEmpty && decide (0 < x.credit classC) && decide (x.credit classC < 2 ^ 15)
  let b := !x.egB.isEmpty && decide (0 < x.credit classB) && decide (x.credit classB < 2 ^ 15)
  let first : Pick := if w then .w else .c
  if w && decide (0 < x.tokens) then (.w, { x with tokens := x.tokens - 1 })
  else
    match w || c, b with
    | false, false => (.none, { x with defC := 0, defB := 0 })
    | true, false => (first, { x with defC := x.defC - 1, defB := 0 })
    | false, true => (.b, { x with defC := 0, defB := x.defB - 1 })
    | true, true =>
      if 0 < x.defC then (first, { x with defC := x.defC - 1 })
      else if 0 < x.defB then (.b, { x with defB := x.defB - 1 })
      else (first, { x with defC := cw - 1, defB := bw })

/-- The queue a choice takes its flit from. -/
def LPort.pop (x : LPort) : Pick → Option Flit × LPort
  | .w => (x.egW.head?, { x with egW := x.egW.drop 1 })
  | .c => (x.egC.head?, { x with egC := x.egC.drop 1 })
  | .b => (x.egB.head?, { x with egB := x.egB.drop 1 })
  | .none => (none, x)

/-- The send stamp of a Waggle message of this device: t1 or t3, written as the flit is made (R389). -/
def Dev.stamp (d : Dev) (p : Port) (fl : Flit) : Flit :=
  let t := d.wag.ctr.toNat + Config.txLatency p.val
  if fl.proto == 0x03 && fl.src == d.lnk.devId then
    let b := fl.payload
    let kind := field b 0 1
    let pl := if kind = 1 then b.take 8 ++ le 8 (t / 2 ^ 16) ++ le 2 t ++ b.drop 0x12
      else b.take 0x14 ++ le 2 t ++ slice b 0x16 10 ++ le 8 (t / 2 ^ 16)
    { fl with payload := pl }
  else fl

/-- Send a data flit: it keeps its place in the replay buffer until an ACK covers it (R358). -/
def Dev.putFlit (d : Dev) (p : Port) (fl : Flit) : Dev :=
  let fl := d.stamp p fl
  let x := d.port p
  let i := fl.cls.toNat
  let d := d.setPort p { x with
    txSeq := x.txSeq + 1, replay := x.replay ++ [(x.txSeq, fl)]
    sentC := x.sentC.setIfInBounds i ((x.sentC.toList[i]?).getD 0 + 1) }
  d.emit (.flit p (fl.bytes x.txSeq))

/-- A data slot: the replay that runs, or the next flit while the replay buffer has room, or an idle flit (R352, R358). -/
def Dev.dataSlot (d : Dev) (p : Port) : Dev :=
  let d := d.updPort p fun x =>
    if x.tokenCnt + 1 = 50 then { x with tokenCnt := 0, tokens := min 16 (x.tokens + 1) }
    else { x with tokenCnt := x.tokenCnt + 1 }
  let x := d.port p
  if 0 < x.resend then
    match x.replay[x.replay.length - x.resend]? with
    | some (n, fl) => (d.setPort p { x with resend := x.resend - 1 }).emit (.flit p (fl.bytes n))
    | none => d.setPort p { x with resend := 0 }
  else if 4096 ≤ x.replay.length then d.emit (.flit p idleFlit)
  else
    let (k, x) := x.pick d.lnk.cWeight.toNat d.lnk.bWeight.toNat
    let (fl, x) := x.pop k
    match fl with
    | some fl => (d.setPort p x).putFlit p fl
    | none => (d.setPort p x).emit (.flit p idleFlit)

/-- A flit slot: every 21st holds a link-control flit (R352, R360). -/
def Dev.flitSlot (d : Dev) (p : Port) : Dev :=
  let x := d.port p
  if x.state != .active && x.state != .quarantined then d
  else if x.slot = 20 then
    (d.setPort p { x with slot := 0, msgs := x.msgs.drop 1 }).emit (.control p (x.control (x.msgs.headD [])))
  else
    let d := d.setPort p { x with slot := x.slot + 1 }
    if x.state == .active then d.dataSlot p else d.emit (.flit p idleFlit)

/-! ### Training (R371, R479–R482) -/

/-- HELLO: device ID, port and generation of the wiring plan (R357). -/
def Dev.sendHello (d : Dev) (p : Port) : Dev :=
  d.sendControl p ([1] ++ le 2 d.lnk.devId.toNat ++ le 1 p.val ++ le 4 d.lnk.planGen.toNat)

/-- The next state of a port whose training state found what it looked for. -/
def Dev.trainDone (d : Dev) (p : Port) (o : TrainObs) : Dev :=
  let d := d.updPort p (·.setShares o.shares)
  let x := d.port p
  match x.state with
  | .detect =>
    if x.parked then d
    else if o.notReady then d.setPort p { x with parked := true }
    else d.enterEq p
  | .eq =>
    (d.setPort p { x with hintUsed := x.fromHint, obs := { x.obs with txTaps := o.txTaps, rxTaps := o.rxTaps } }).movePort p .laneMap
  | .laneMap =>
    let n := laneCount (goodLanes o.laneMask)
    let d := d.setPort p { x with laneMask := o.laneMask, lanes := n }
    if n = 0 then d.portDown p .failed else d.movePort p .fecLock
  | .fecLock => (d.movePort p .hello).sendHello p
  | _ => d

/-- A training state takes too long (R371). -/
def Dev.trainTimeout (d : Dev) (p : Port) : Dev :=
  let x := d.port p
  match x.state with
  | .detect => if x.parked then d else d.portDown p .offline
  | .eq => if x.fromHint then d.setPort p { x with fromHint := false } else d.portDown p .failed
  | .laneMap => d.portDown p .failed
  | .fecLock => d.portDown p .failed
  | .hello => if d.lnk.plan.isSome then d.portDown p .failed else d
  | _ => d

/-- Ports of a group: group g holds ap8g to ap8g + 7, and trains in wave (g + b) mod 4 (R480). -/
def Dev.inWave (d : Dev) (p : Port) (wave : Fin 4) : Bool := (p.val / 8 + d.dbg.board.toNat) % 4 == wave.val

def Dev.startWave (d : Dev) (wave : Fin 4) : Dev :=
  let next := match d.lnk.wave with | none => wave.val == 0 | some w => wave.val == w.val + 1
  if !(d.up && d.lnk.plan.isSome && next) then d
  else
    let d := { d with lnk := { d.lnk with wave := some wave } }
    (List.finRange 32).foldl (fun d p =>
      if d.inWave p wave && ((d.port p).state == .notReady || (d.port p).state == .offline) then
        if d.mayTrain p then d.startDetect p else d.movePort p .offline
      else d) d

/-- A port that is in training, parked ones apart (R371). -/
def LPort.busy (x : LPort) : Bool :=
  x.state.inTraining || x.state == .hello || (x.state == .detect && !x.parked)

/-- Once a second an OFFLINE or FAILED port tries again, one port of the device at a time (R371). -/
def Dev.retryPort (d : Dev) (p : Port) : Dev :=
  let x := d.port p
  if d.mayTrain p && (x.state == .offline || x.state == .failed) && !(List.finRange 32).any fun q => (d.port q).busy
  then d.startDetect p else d

def Dev.unpark (d : Dev) (p : Port) : Dev :=
  if (d.port p).state == .detect && (d.port p).parked && d.mayTrain p then d.enterEq p else d

/-! ### Routing tables (R367, R369, R370) -/

def routeMask : RouteOp → Word
  | .rtb _ _ => 0xFFFFFF1F
  | .rtr _ _ => 0xFFFFFF01

/-- The entry for the device itself and for its rack have V = 0 (R369). -/
def Dev.routeOp (d : Dev) (o : RouteOp) : Dev :=
  match o with
  | .rtb i v =>
    if i.val = d.lnk.devId.toNat % 64 then d.setRtb i.val 0 else d.setRtb i.val (v &&& routeMask o)
  | .rtr i v =>
    let w := if i.val = d.lnk.devId.toNat / 64 then 0 else v &&& routeMask o
    { d with lnk := { d.lnk with rtr := d.lnk.rtr.putD 0 i.val w } }

/-- The link manager rewrites entries in one step; the flits that ports out of ACTIVE hold are then handled. -/
def Dev.changeRoutes (d : Dev) (ops : List RouteOp) : Dev :=
  if !d.up then d
  else
    let d := (ops.foldl (fun d o => d.routeOp o) d).refreshTree
    (List.finRange 32).foldl (fun d p =>
      if (d.port p).state != .active && !(d.port p).replay.isEmpty then d.flushPort p else d) d

/-- DATA_FLIT (R358). -/
def execDataFlit (p : Port) (fl : LinkFlit) (s : State) : Host.Outcome State Fault Refusal :=
  s.stepDev ((s.toDev.fecErrors p fl.fec).receiveFlit p fl.bytes)

/-- LINK_CONTROL_FLIT (R356). -/
def execLinkControlFlit (p : Port) (fl : LinkFlit) (s : State) : Host.Outcome State Fault Refusal :=
  s.stepDev ((s.toDev.fecErrors p fl.fec).receiveControl p fl.bytes)

/-- LINK_HELLO (R376): the plan generation it carries is not compared. -/
def execLinkHello (p : Port) (id : BitVec 16) (peerPort : Byte) (_gen : BitVec 32) (s : State) :
    Host.Outcome State Fault Refusal := s.stepDev (s.toDev.hearHello p id peerPort).fillPlaces

/-- UNSUPPORTED (R378). -/
def execUnsupported (p : Port) (_hdr : List Byte) (s : State) : Host.Outcome State Fault Refusal :=
  s.stepDev (s.toDev.logPartner p)

/-- CREDIT_VIOLATION (R378). -/
def execCreditViolation (p : Port) (_cls : Byte) (_n : BitVec 16) (s : State) : Host.Outcome State Fault Refusal :=
  s.stepDev (s.toDev.logPartner p)

/-- LANE_DROP (R375). -/
def execLaneDrop (p : Port) (mask count : Byte) (s : State) : Host.Outcome State Fault Refusal :=
  s.stepDev (s.toDev.partnerLanes p mask count)

/-- RETRAIN (R378). -/
def execRetrain (p : Port) (cause : Byte) (s : State) : Host.Outcome State Fault Refusal :=
  s.stepDev (if (s.port p).state == .active then s.toDev.retrainPort p cause.toNat else s.toDev)

/-- QUARANTINE (R378): the partner's port carries link-control flits only, and so does this one. -/
def execQuarantine (p : Port) (cause : Byte) (s : State) : Host.Outcome State Fault Refusal :=
  s.stepDev (if (s.port p).state == .active && decide (1 ≤ cause.toNat) && decide (cause.toNat ≤ 4) then
    (s.toDev.quarantine p cause.toNat).ledger 0x06 0x06 { ledPort p (s.port p).peerId with sub := cause.toNat } else s.toDev)

/-- LANE_FAILURE (R374). -/
def execLaneFailure (p : Port) (lane : Fin 8) (s : State) : Host.Outcome State Fault Refusal :=
  s.stepDev (s.toDev.laneFails p lane)

/-- ROUTE_CHANGE (R370). -/
def execRouteChange (ops : List RouteOp) (s : State) : Host.Outcome State Fault Refusal :=
  s.stepDev (s.toDev.changeRoutes ops)

/-- TRAINING_WAVE_START (R480). -/
def execTrainingWaveStart (wave : Fin 4) (s : State) : Host.Outcome State Fault Refusal :=
  s.stepDev (s.toDev.startWave wave)

/-- TRAINING_STATE_COMPLETE (R371). -/
def execTrainingStateComplete (p : Port) (o : TrainObs) (s : State) : Host.Outcome State Fault Refusal :=
  s.stepDev (s.toDev.trainDone p o).fillPlaces

/-- TRAINING_TIMEOUT (R371). -/
def execTrainingTimeout (p : Port) (s : State) : Host.Outcome State Fault Refusal :=
  s.stepDev (s.toDev.trainTimeout p).fillPlaces

/-- TRAINING_RETRY (R371). -/
def execTrainingRetry (p : Port) (s : State) : Host.Outcome State Fault Refusal :=
  s.stepDev (s.toDev.retryPort p)

/-- PARKED_PORT_RELEASE (R481). -/
def execParkedPortRelease (p : Port) (s : State) : Host.Outcome State Fault Refusal :=
  s.stepDev (s.toDev.unpark p)

/-- FLIT_SLOT (R360). -/
def execFlitSlot (p : Port) (s : State) : Host.Outcome State Fault Refusal := s.stepDev (s.toDev.flitSlot p)

end Sys2Proof.Machine
end

