-- ==== Sys2Proof/Machine/PowerOps.lean ====
section
/-! DEFINITION. The power-management core: caps of the dies and their frames, voltage codes and regulator frames
(R97, R100, R462–R466, R483, R493, R494). -/

namespace Sys2Proof.Machine

/-! ### Caps (R97, R443, R463, R483) -/

def Dev.die (d : Dev) (i : Nat) : Die := if h : i < 16 then d.pwr.dies[i] else {}

def Dev.setDie (d : Dev) (i : Nat) (x : Die) : Dev :=
  { d with pwr := { d.pwr with dies := d.pwr.dies.setIfInBounds i x } }

/-- The cap in force on a die: hardware forces 1 at 105 °C, and holds 4 while the power-management core restarts. -/
def Dev.capOf (d : Dev) (i : Nat) : Nat :=
  if d.pwr.forced then 1 else if d.pwr.held4 then 4 else (d.die i).cap

/-- The frames of every die take its cap; a level above it drops to it (R97). -/
def Dev.applyCaps (d : Dev) : Dev :=
  { d with fr := d.fr.mapIdx fun i fr =>
    let c := d.capOf (i / 24)
    { fr with ramp := { fr.ramp with cap := c, level := min fr.ramp.level c } } }

/-- Change what decides the caps, with a trace record for every die whose cap changed. -/
def Dev.withCaps (d : Dev) (g : Power → Power) : Dev :=
  let e := ({ d with pwr := g d.pwr } : Dev).applyCaps
  (List.range 16).foldl (fun x i => if d.capOf i = e.capOf i then x else x.trace 640 0xFFFF 0xFFFF i (e.capOf i)) e

/-- Lower the cap of a die, for heat or for package power. -/
def Power.lower (p : Power) (i n : Nat) (forPower : Bool) : Power :=
  let x := if h : i < 16 then p.dies[i] else {}
  let c := max 1 (x.cap - n)
  { p with dies := p.dies.setIfInBounds i { x with cap := c, cut := if forPower then x.cut + (x.cap - c) else x.cut } }

def Power.raise (p : Power) (i : Nat) : Power :=
  let x := if h : i < 16 then p.dies[i] else {}
  { p with dies := p.dies.setIfInBounds i { x with cap := min 8 (x.cap + 1), cut := x.cut - 1 } }

/-- CAPPED: a die's cap is below 8 because of power (R466). -/
def Power.markCapped (p : Power) : Power :=
  { p with capped := p.dies.toList.any fun x => decide (x.cap < 8) && decide (0 < x.cut) }

/-- What POWER_CFG set takes effect (R454). -/
def Power.applyCfg (p : Power) : Power :=
  match p.next with
  | none => p
  | some (w, t) => { p with watts := w, tThrottle := t, next := none }

/-- The die that a relation prefers, the lowest index on a tie. -/
def pickDie (better : Die → Die → Bool) : List (Nat × Die) → Option Nat
  | [] => none
  | x :: xs => some (xs.foldl (fun b y => if better y.2 b.2 then y else b) x).1

def Power.indexed (p : Power) : List (Nat × Die) := List.zip (List.range 16) p.dies.toList

/-- The policy of one 10 µs interval (R463), with the package power and, for each die, its hottest sensor. -/
def Power.interval (p : Power) (watts : Nat) (low : Bool) : Power :=
  let hot := p.indexed.filter fun x => decide (p.tThrottle.toNat ≤ x.2.tj.toNat)
  let p1 := hot.foldl (fun q x => q.lower x.1 1 false) p
  if p.watts.toNat < watts then
    match pickDie (fun a b => decide (b.cap < a.cap)) p1.indexed with
    | some i => p1.lower i 1 true
    | none => p1
  else if low then
    let cool := p1.indexed.filter fun x => decide (x.2.tj.toNat < p1.tThrottle.toNat - 5)
    match pickDie (fun a b => decide (a.cap < b.cap)) cool with
    | some i => p1.raise i
    | none => p1
  else p1

/-- One 10 µs interval with its mean power and the sensors: the hottest of each comb die, then those of other dies. -/
def Dev.controlInterval (d : Dev) (watts : Nat) (temps : List Nat) : Dev :=
  if !d.fwRuns || d.sec.restarting.contains .power then d
  else
    let p := d.pwr.applyCfg
    let under := decide (100 * watts < 95 * p.watts.toNat)
    let n := if under then p.low + 1 else 0
    let ms := (p.means ++ [watts]).drop ((p.means.length + 1) - 100)
    let dies := Vector.ofFn fun (i : Fin 16) => { p.dies[i] with tj := BitVec.ofNat 8 (min 255 ((temps[i.val]?).getD 0)) }
    let top := temps.foldl max 0
    let q : Power := { p with
      low := n, means := ms, pkgW := BitVec.ofNat 12 (min 4095 (ms.sum / ms.length)), tjMax := BitVec.ofNat 8 (min 255 top)
      dies := dies, thermal := dies.toList.any fun x => decide (p.tThrottle.toNat ≤ x.tj.toNat) }
    ({ d with pwr := q } : Dev).withCaps fun p => (p.interval watts (decide (10 ≤ n))).markCapped

/-- The fast check of every 1 µs. -/
def Dev.fastCheck (d : Dev) (watts : Nat) : Dev :=
  if !d.fwRuns || d.sec.restarting.contains .power then d
  else if 110 * d.pwr.watts.toNat < 100 * watts then
    d.withCaps fun p => ((List.range 16).foldl (fun q i => q.lower i 2 true) p).markCapped
  else d

/-! ### Voltage codes (R462, R467, R493, R494) -/

def ones (v : Nat) : Nat := ((List.range 16).filter fun i => bit v i).length

/-- The frame of a rail with a code: START, RAIL, CODE and odd PARITY. -/
def vrFrame (rail code : Nat) : BitVec 16 :=
  let v := 2 * 2 ^ 14 + rail % 4 * 2 ^ 12 + code * 2 ^ 5
  BitVec.ofNat 16 (v + (1 - ones v % 2))

def Dev.sendCode (d : Dev) (i : Nat) : Dev := d.emit (.vr (i / 4) (vrFrame i (d.die i).code))

/-- VDD_CMBn in mV (R466, R493). -/
def Die.mv (x : Die) : Nat := 550 + 5 * x.code / 2

/-- One step of a rail's voltage. -/
def Dev.voltageStep (d : Dev) (i : Fin 16) (up : Bool) : Dev :=
  let x := d.die i.val
  if !d.fwRuns || d.sec.restarting.contains .power || (if up then decide (100 ≤ x.code) else x.code == 0) then d
  else ((d.setDie i.val { x with code := if up then x.code + 1 else x.code - 1 }).sendCode i.val).trace 641 0xFFFF 0xFFFF

/-- VR_ALERT_N falls: the code of every rail again, and a log entry at level 1. -/
def Dev.vrAlert (d : Dev) : Dev :=
  if !d.fwRuns || d.sec.restarting.contains .power then d
  else ((List.range 16).foldl (fun d i => d.sendCode i) d).logEntry 1 1

/-- Every rail is stepped to CODE 28, one code at a time (R494). -/
def Dev.homeRails (d : Dev) : Dev :=
  (List.range 16).foldl (fun d i =>
    let c := (d.die i).code
    let steps := (List.range (if c < 28 then 28 - c else c - 28)).map fun k => if c < 28 then c + k + 1 else c - k - 1
    steps.foldl (fun d k => (d.setDie i { d.die i with code := k }).sendCode i) d) d

end Sys2Proof.Machine
end

