-- ==== Sys2Proof/Machine/ResetOps.lean ====
section
/-! DEFINITION. What each reset level keeps and clears, and the ROM's part of a boot (R448, R472–R478, R491–R497). -/

namespace Sys2Proof.Machine

/-! ### The ROM (R444 step 1, R448, R449, R479, R491, R492) -/

/-- The 13 ASCII bytes "DNL4 identity". -/
def identityLabel : List Byte := [0x44, 0x4E, 0x4C, 0x34, 0x20, 0x69, 0x64, 0x65, 0x6E, 0x74, 0x69, 0x74, 0x79]

/-- The Ed448 private key of the device (R448). -/
def Fuses.identitySeed (x : Fuses) : List Byte := shake256 (identityLabel ++ x.secret) 57

def Fuses.identityKey (x : Fuses) : List Byte := ed448Public x.identitySeed

/-- The device serial digest (R449). -/
def Fuses.serial (x : Fuses) : List Byte := shake256 x.identityKey 16

/-- The PCI Express link trains: one of the rates and widths of R297, which the manual leaves to the partner
(DESIGN CHOICE, assumption 49); a link that a reset kept stays as it is (R473). -/
def Dev.trainHost (d : Dev) : Dev :=
  if d.hif.width != 0 then d
  else
    let (d, r) := d.draw
    { d with hif := { d.hif with
      gen := BitVec.ofNat 4 (r.toNat % 7 + 1), width := BitVec.ofNat 3 (2 ^ (r.toNat / 7 % 3)) } }

/-- The self-check is over: the identity key is derived and loaded into the identity engine, fuse read-out is blocked, what the self-test of DRAM found is repaired (R227), every port
answers NOT_READY, and the boot goes on to the Apiary link (R444, R479). -/
def Dev.romDone (d : Dev) : Dev :=
  let d := d.trainHost.applyRepairs d.sec.bist
  let d := { d with sec := { d.sec with
    phase := .apiaryUp, serial := d.sec.fuses.serial, engineKey := some d.sec.fuses.identitySeed, fusesBlocked := true } }
  (List.finRange 32).foldl (fun d p => d.movePort p .notReady) d

/-- The self-check ends: in production test the ROM holds and reads no secret (R492). -/
def Dev.selfChecked (d : Dev) : Dev :=
  if d.dbg.test then { d with sec := { d.sec with phase := .testHold } } else d.romDone

/-- The ROM starts: the rails go to CODE 28, and after a thermal trip it holds at the end of its self-check while the device is
hot (R483, R494). -/
def Dev.romStart (d : Dev) : Dev :=
  let d := d.homeRails
  if d.dbg.thermN then { d with sec := { d.sec with phase := .thermalHold } } else d.selfChecked

/-- Nothing holds the reset any more (R470, R472, R497). -/
def Dev.resume (d : Dev) : Dev :=
  if d.sec.phase == .reset && !d.dbg.perst && !d.dbg.railHold && !d.dbg.jtagHold then d.romStart else d

/-! ### Levels 4 and 5 (R473) -/

/-- What the record of resets shows (R484). -/
def Pins.record (x : Pins) (level cause : Nat) (rail tj : Nat := 0) : Pins :=
  { x with
    level := BitVec.ofNat 3 level, cause := BitVec.ofNat 5 cause, rail := BitVec.ofNat 5 rail
    count := satAdd x.count, tjTrip := BitVec.ofNat 8 (min 255 tj), node0 := 0, en0 := false, node1 := 0, en1 := false }

/-- The regulators keep their codes until the ROM sets them (R494). -/
def Power.kept (p : Power) : Power := { dies := p.dies.map fun x => { code := x.code } }

/-- A frame through a level 4 or 5 reset: its cause and management's exclusion decide whether it returns to service
(R26). The in-service set before the reset is that of the last self-test. -/
def Frame.cold (fr : Frame) : Frame :=
  { svc := { before := if fr.svc.tested then some fr.svc.insvc else fr.svc.before, cause := fr.svc.cause, excluded := fr.svc.excluded } }

/-- A level 5 reset: everything is cleared but the fuses, the record of resets and what R26 keeps of a frame. -/
def Dev.levelFive (d : Dev) (cause : Nat) (rail tj : Nat := 0) : Dev :=
  { pwr := d.pwr.kept, dbg := d.dbg.record 5 cause rail tj, fr := d.fr.map Frame.cold
    sec := { phase := .reset, fuses := d.sec.fuses, boots := d.sec.boots, bist := d.sec.bist }
    out := d.out, fresh := d.fresh, ns := d.ns }

/-- DRAM through a level 4 reset: its contents, save images included, retirement tables and row spares stay (R473, R477).
SRAM lines with hard faults are repaired, and are retired no longer (R226). -/
def Memory.warm (m : Memory) : Memory :=
  { mem := m.mem.filter fun c => decide (c.1 < dramEnd)
    poison := m.poison.filter fun c => decide (c.1 * 32 < dramEnd)
    lost := m.lost
    retired := m.retired.filter fun r => r.1 < 16 || !m.hardSram.contains r.2
    spared := m.spared, hard := m.hard }

/-- A level 4 reset. -/
def Dev.levelFour (d : Dev) (cause : Nat) : Dev :=
  let e : Dev := { mem := d.mem.warm, pwr := d.pwr.kept, dbg := d.dbg.record 4 cause
                   fr := d.fr.map Frame.cold
                   hif := { bar2Log2 := d.hif.bar2Log2, gen := d.hif.gen, width := d.hif.width, aer := d.hif.aer }
                   sec := { phase := .reset, fuses := d.sec.fuses, boots := d.sec.boots, bist := d.sec.bist
                            reserve := d.sec.reserve }
                   out := d.out, fresh := d.fresh, ns := d.ns }
  e.resume

/-- JOB_ABORT with cause DEVICE_RESET for every job; the jobs fault (R475 step 3). -/
def Dev.abortJobs (d : Dev) : Dev := (List.range 256).foldl (fun d j => d.jobFault j 0x07) d

/-- Send the class W flits a port holds. -/
def Dev.drainPort (d : Dev) (p : Port) : Nat → Dev
  | 0 => d
  | n + 1 => if (d.port p).egW.isEmpty then d else (d.flitSlot p).drainPort p n

/-- A level 4 reset asked for through DBG_RESET tells the peers first (R476). -/
def Dev.warmByRegister (d : Dev) : Dev :=
  let d := d.abortJobs
  let d := (List.finRange 32).foldl (fun d p => d.drainPort p (3 * (d.port p).egW.length + 3)) d
  d.levelFour 4

/-! ### Level 3 (R473, R475) -/

/-- A context through a level 3 reset: STATE_LOST, but a SAVED one stays so and is ORPHANED. Its stall is the scheduler
core's to take back; an unbinding that waited for its tasks is over. -/
def Ctx.functionReset (x : Ctx) : Ctx :=
  match x.state with
  | .free => x
  | .saved => { x with orphaned := true }
  | _ =>
    let stays := x.bound && !x.unbinding
    { x with
      state := .stateLost, bound := stays, stall := if stays then x.stall else 0xFFFF, waiting := false, unbinding := false, orphanStop := false
      saveFault := false, resetWait := false, destroyWait := false, disc := {} }

def Ctx.lost (x : Ctx) : Bool := x.state == .stateLost

def Dev.levelThree (d : Dev) : Dev :=
  let d := d.abortJobs
  let qs := (d.hif.queues.filter (·.2.state != .free)).map (·.1)
  let d := qs.foldl (fun (d : Dev) q => d.dropArrivals q) d
  let d : Dev := { d with mkt := { d.mkt with ctxs := d.mkt.ctxs.map fun c => (c.1, c.2.functionReset) } }
  let mine (c : BitVec 12) : Bool := (d.ctx c).state == .saved
  let gone := (d.mkt.graphs.filter fun g => !mine g.ctx).map (·.id)
  let d := d.forgetTasks fun t => gone.contains t.graph
  let ws := d.mkt.watchers.filter fun w => match w.what with | .task x => mine x.ctx | .entry _ _ => false
  let d : Dev := { d with mkt := { d.mkt with
    graphs := d.mkt.graphs.filter fun g => mine g.ctx, watchers := ws
    saves := d.mkt.saves.filter fun x => mine x.ctx } }
  let d : Dev := { d with grd := { d.grd with tiles := [], waits := [] } }
  let d := allFrames.foldl (fun d f => (d.clearFrame f).updFrame f fun fr => { fr with
    granted := none, wantTake := false, guardWork := [], guardRun := none }) d
  { d with
    hif := { fwReady := d.hif.fwReady, bar2Log2 := d.hif.bar2Log2, gen := d.hif.gen, width := d.hif.width }
    lnk := { d.lnk with reqs := [] }
    dbg := { d.dbg with level := 3, cause := 2, count := satAdd d.dbg.count, rail := 0, tjTrip := 0 }
    hostRead := none }

/-! ### Cores that restart (R443) -/

/-- A save or restore that a restarted core sequenced ends in STATE_LOST. -/
def Dev.loseSequenced (d : Dev) (p : Ctx → BitVec 12 → Bool) : Dev :=
  let one (c : Nat × Ctx) : Nat × Ctx :=
    if p c.2 (BitVec.ofNat 12 c.1) then (c.1, { c.2 with state := .stateLost, saveFault := false, orphanStop := false })
    else c
  { d with mkt := { d.mkt with ctxs := d.mkt.ctxs.map one } }

/-- Frames of a cluster that hold a task of a context. -/
def Dev.onCluster (d : Dev) (cl : Nat) (c : BitVec 12) : Bool :=
  allFrames.any fun f => f.val / 6 == cl && (d.frame f).task.isSome && (d.frame f).ctx == c

def Dev.watchdog (d : Dev) (core : CoreId) : Dev :=
  if !d.fwRuns || d.sec.restarting.contains core then d
  else
    let src := match core with | .security => 0 | .power => 1 | .scheduler => 2 | .control cl => 64 + cl.val
    let d := d.logEntry src 0
    let d := { d with sec := { d.sec with wdog := satAdd d.sec.wdog, restarting := d.sec.restarting ++ [core] } }
    match core with
    | .security => d
    | .power => d.withCaps fun p => { p with held4 := true }
    | .scheduler => d.loseSequenced fun x _ => x.state == .saving
    | .control cl => d.loseSequenced fun x c => (x.state == .saving || x.state == .restoring) && d.onCluster cl.val c

end Sys2Proof.Machine
end

