-- ==== Sys2Proof/Machine/Boot.lean ====
section
/-! DEFINITION. The boot ROM's image load, the start of the cores and the frame self-test (R90, R91, R444–R447, R452,
R453). -/

namespace Sys2Proof.Machine

/-! ### The image (R445, R446) -/

/-- Why a load is abandoned (R446, R447). -/
inductive BootCause where
  | format | key | signature | version | list | chunk | noProgress
  deriving DecidableEq, Repr

/-- The cause of BOOT_STATUS: R453 gives the field and no codes. -/
def BootCause.code : BootCause → BitVec 8
  | .format => Config.bootCause 1 | .key => Config.bootCause 2 | .signature => Config.bootCause 3
  | .version => Config.bootCause 4 | .list => Config.bootCause 5 | .chunk => Config.bootCause 6
  | .noProgress => Config.bootCause 7

/-- The checks of R446 on the header. -/
def headerBad (x : Fuses) (h : List Byte) : Option BootCause :=
  let key := field h 6 1
  let n := field h 0x14 4
  let len := field h 0x18 8
  if field h 0 4 ≠ 0x4C455249 ∨ field h 4 2 ≠ 1 ∨ n ≠ ceilDiv len 65536 ∨ len = 0 ∨ 2 ^ 28 < len then some .format
  else if 3 < key ∨ x.revoked.getLsbD key = true ∨ shake256 (slice h 0x60 57) 64 ≠ x.keyDigests.toList.getD key [] then
    some .key
  else if !ed448Verify (slice h 0x60 57) (h.take 0x2A0) (slice h 0x2A0 114) then some .signature
  else if field h 0x10 2 < x.minSvn.toNat then some .version
  else none

/-- An address in the order of its bytes on the wire. -/
def BootLoad.serverBytes (l : BootLoad) : List Byte := (le 16 l.server.toNat).reverse

/-- A load is abandoned: BOOT_STATUS, then the ROM waits (R447). -/
def Dev.abandonLoad (d : Dev) (c : BootCause) : Dev :=
  ({ d with sec := { d.sec with
    load := none, fails := d.sec.fails + 1, loadTries := satAdd d.sec.loadTries, phase := .backoff } } : Dev).apiaryTx 0x05
      (le 1 4 ++ le 1 c.code.toNat ++ le 4 (d.sec.fails + 1)) (d.sec.load.map (·.serverBytes))

/-- Ask the server for the missing fragments of a piece: region, piece index, mask (R453). -/
def Dev.askPiece (d : Dev) (region piece mask : Nat) : Dev :=
  d.apiaryTx 0x03 (le 1 region ++ le 4 piece ++ le 8 mask) (d.sec.load.map (·.serverBytes))

/-- BOOT_REQ: identity, ROM version and the fused minimum SVN, to the boot group (R451). -/
def Dev.bootRequest (d : Dev) : Dev :=
  if d.sec.phase == .apiaryUp || (d.sec.phase == .fetching && d.sec.load.isNone) then
    ({ d with sec := { d.sec with phase := .fetching } } : Dev).apiaryTx 0x01
      (d.sec.serial ++ d.sec.fuses.identityKey ++ le 4 Config.romVer.toNat ++ le 2 d.sec.fuses.minSvn.toNat) (some bootGroup)
  else d

/-- BOOT_OFFER: the ROM asks for the header. -/
def Dev.bootOffered (d : Dev) (len nchunk : Nat) (server : BitVec 128) : Dev :=
  if d.sec.phase == .fetching && d.sec.load.isNone then
    ({ d with sec := { d.sec with load := some { length := len, nchunk := nchunk, server := server } } } : Dev).askPiece 0 0 0xF
  else d

/-- Bytes of a region of the image. -/
def BootLoad.size (l : BootLoad) (region : Nat) : Nat :=
  match region with | 0 => 4096 | 1 => 64 * l.nchunk | _ => l.length

/-- Bytes of a piece, and its number of fragments. -/
def BootLoad.pieceSize (l : BootLoad) (region piece : Nat) : Nat := min 65536 (l.size region - 65536 * piece)

def BootLoad.frags_ (l : BootLoad) (region piece : Nat) : Nat := ceilDiv (l.pieceSize region piece) 1024

def fragKey (region piece frag : Nat) : Nat := region * 2 ^ 32 + piece * 64 + frag

/-- The bytes of a piece whose fragments have all come. -/
def BootLoad.piece (l : BootLoad) (region i : Nat) : Option (List Byte) :=
  ((List.range (l.frags_ region i)).mapM fun k => l.frags.get? (fragKey region i k)).map List.flatten

def BootLoad.dropPiece (l : BootLoad) (region i : Nat) : BootLoad :=
  { l with frags := l.frags.filter fun f => !(f.1 / 64 == fragKey region i 0 / 64) }

def Dev.setLoad (d : Dev) (l : BootLoad) : Dev := { d with sec := { d.sec with load := some l } }

def pieces (n : Nat) : Nat := ceilDiv n 65536

def fullMask (n : Nat) : Nat := 2 ^ n - 1

/-- Ask for payload chunks while 16 are not outstanding. -/
def Dev.askChunks (d : Dev) (l : BootLoad) : Nat → Dev
  | 0 => d.setLoad l
  | n + 1 =>
    if l.asked < l.nchunk ∧ l.asked < l.chunks.length + 16 then
      (d.askPiece 2 l.asked (fullMask (l.frags_ 2 l.asked))).askChunks { l with asked := l.asked + 1 } n
    else d.setLoad l

/-- The section table of a header, its unused entries left out (R445). -/
def sectionsOf (h : List Byte) : List Section :=
  ((List.range 16).map fun i =>
    let o := 0xA0 + 32 * i
    ({ off := field h o 8, len := field h (o + 8) 8, target := BitVec.ofNat 8 (field h (o + 16) 1)
       entry := BitVec.ofNat 64 (field h (o + 24) 8) } : Section)).filter (·.target != 0xFF)

/-- The target code of a core in the section table, and its private SRAM (R442, R445). -/
def CoreId.target : CoreId → Byte
  | .security => 0 | .power => 1 | .scheduler => 2 | .control _ => 3

def CoreId.sramSize : CoreId → Nat
  | .control _ => 2 ^ 20
  | _ => 2 ^ 22

/-- A core's number, as in the log (R458). -/
def CoreId.ix : CoreId → Nat
  | .security => 0 | .power => 1 | .scheduler => 2 | .control cl => 64 + cl.val

def allCores : List CoreId := [.security, .power, .scheduler] ++ (List.finRange 64).map .control

/-- A core starts, or starts again, from its image in the firmware reserve (R443, R446). -/
def Dev.enterCore (d : Dev) (c : CoreId) : Dev :=
  match d.sec.sections.find? (·.target == CoreId.target c) with
  | none => d
  | some x =>
    let bytes := slice (d.sec.reserve.map (·.2)).flatten x.off (min x.len (CoreId.sramSize c))
    { d with sec := { d.sec with cores := d.sec.cores.put (CoreId.ix c) { sram := bytes, entry := x.entry, kick := d.ns } } }

/-- The whole image has passed: the cores start, and HELLO is sent (R444 step 5, R446, R452). -/
def Dev.startCores (d : Dev) (h : List Byte) : Dev :=
  let n := d.sec.boots
  let page (x : BitVec 48) : BitVec 48 := x &&& ~~~(0xFFF#48)
  let d : Dev := { d with
    sec := { d.sec with
      phase := .started, load := none, fails := 0, boots := n + 1, fwId := BitVec.ofNat 64 (field h 8 8)
      sections := sectionsOf h
      svn := BitVec.ofNat 16 (field h 0x10 2), keyIndex := BitVec.ofNat 8 (field h 6 1)
      imageDigest := shake256 (h.take 0x312) 64, session := Config.nonce n, logBase := page (Config.logBase n) }
    grd := { d.grd with ledgerBase := page (Config.ledgerBase n) } }
  (allCores.foldl (fun d c => d.enterCore c) d).apiaryTx 0x10
    (le 8 d.sec.fwId.toNat ++ le 2 d.sec.svn.toNat ++ le 2 0 ++ le 1 0)

/-- A piece of the image is whole: check it, and write a chunk that passes into the firmware reserve (R445–R447). -/
def Dev.pieceDone (d : Dev) (l : BootLoad) (region i : Nat) (bs : List Byte) : Dev :=
  if region = 0 then
    match headerBad d.sec.fuses bs with
    | some c => d.abandonLoad c
    | none =>
      let l := { l.dropPiece 0 0 with header := some bs, nchunk := field bs 0x14 4, length := field bs 0x18 8 }
      (List.range (pieces (l.size 1))).foldl (fun d k => d.askPiece 1 k (fullMask (l.frags_ 1 k))) (d.setLoad l)
  else if region = 1 then
    match (List.range (pieces (l.size 1))).mapM fun k => l.piece 1 k with
    | none => d.setLoad l
    | some ps =>
      let hs := ps.flatten
      if shake256 hs 64 = slice (l.header.getD []) 0x20 64 then
        let d : Dev := { d with sec := { d.sec with reserve := [] } }
        d.askChunks { l with hashes := some hs, frags := [] } 17
      else d.abandonLoad .list
  else
    let good := shake256 (le 4 i ++ bs) 64 = slice (l.hashes.getD []) (64 * i) 64
    let l := l.dropPiece 2 i
    if good then
      let l := { l with chunks := l.chunks ++ [i] }
      let d : Dev := { d with sec := { d.sec with reserve := d.sec.reserve.put i bs } }
      if l.chunks.length = l.nchunk then d.startCores (l.header.getD []) else d.askChunks l 17
    else
      let n := (l.tries.get? i).getD 0 + 1
      if 4 < n then d.abandonLoad .chunk
      else (d.setLoad { l with tries := l.tries.put i n }).askPiece 2 i (fullMask (l.frags_ 2 i))

/-- CHUNK_DATA: a fragment the ROM has asked for. -/
def Dev.chunkData (d : Dev) (region piece frag : Nat) (bs : List Byte) : Dev :=
  match d.sec.load with
  | none => d
  | some l =>
    let stage := if l.header.isNone then 0 else if l.hashes.isNone then 1 else 2
    let n := l.frags_ region piece
    let want := min 1024 (l.pieceSize region piece - 1024 * frag)
    let known := if region = 2 then decide (piece < l.asked) && !l.chunks.contains piece else decide (piece < pieces (l.size region))
    if d.sec.phase != .fetching || region != stage || !known || n ≤ frag || bs.length != want then d
    else
      let l := { l with frags := l.frags.put (fragKey region piece frag) bs }
      match l.piece region piece with
      | some b => d.pieceDone l region piece b
      | none => d.setLoad l

/-! ### Repairs and the in-service set (R86–R91, R22, R26, R421) -/

/-- Failed rows and bypassed groups of a frame, or none when a third spare or a second bypass is needed (R87, R90). -/
def repairPlan (rows grps : List Nat) (cells : List (Nat × Nat)) : Option (List Nat × List Nat) :=
  let r := cells.foldl (fun (a : List Nat × List Nat) c =>
    if a.1.contains c.1 || a.2.contains (c.2 / 8) then a
    else if a.1.length < 2 then (a.1 ++ [c.1], a.2)
    else (a.1, a.2 ++ [c.2 / 8])) (rows.dedup, grps.dedup)
  if r.1.length ≤ 2 ∧ r.2.length ≤ 1 then some r else none

/-- The physical row of a logical row (R88). -/
def physRow (failed : List Nat) (k : Nat) : Nat :=
  ((List.range 130).filter (!failed.contains ·))[k]?.getD 0

def geomOf (rows grps : List Nat) : Geom :=
  let rs := rows.mergeSort (· ≤ ·)
  let n := physRow rows 127 - 127
  let cg := 16 - grps.length
  { rows := 128, colgrp := cg, byp := grps.headD 0, spares := n
    fillAdj := (n : Int) - 7 * (16 - cg), fail0 := rs[0]?.map (BitVec.ofNat 8), fail1 := rs[1]?.map (BitVec.ofNat 8) }

/-- Results of a frame: those of the manufacturing map and of the self-test together (R90). -/
def SelfTest.join (a b : SelfTest) : SelfTest :=
  { rows := a.rows ++ b.rows, grps := a.grps ++ b.grps, cells := a.cells ++ b.cells, retry := b.retry, fail := b.fail }

def testOf (rs : List (FrameId × SelfTest)) (f : FrameId) : SelfTest :=
  (rs.filter (·.1 == f)).foldl (fun a r => SelfTest.join a r.2) {}

/-- The failed rows of a frame out of service, which FRM_REPAIR still reports (R99). -/
def failedRows (rows : List Nat) : Geom :=
  let rs := rows.mergeSort (· ≤ ·)
  { fail0 := rs[0]?.map (BitVec.ofNat 8), fail1 := rs[1]?.map (BitVec.ofNat 8) }

/-- A frame after boot: its geometry, whether it is in service, and the cause when it is not (R22, R26). Causes 0x1 and 0x5 are
permanent; of several that hold the order 0x1, 0x5, 0x3, 0x4 decides (DESIGN CHOICE, assumption 122). -/
def Frame.afterTest (fr : Frame) (bad : Bool) (t : SelfTest) : Frame :=
  let plan := repairPlan t.rows t.grps t.cells
  let off := failedRows ((plan.map (·.1)).getD t.rows.dedup)
  let (cause, g) : Nat × Geom :=
    if bad then (1, off)
    else match plan with
      | none => (5, off)
      | some r =>
        if fr.svc.cause == 5 then (5, off) else if t.fail then (3, off) else if fr.svc.excluded then (4, off)
        else (0, geomOf r.1 r.2)
  { fr with
    geom := g, state := if cause = 0 then .idle else .outOfService
    svc := { fr.svc with
      insvc := cause == 0, cause := BitVec.ofNat 4 cause
      susp := if t.retry && fr.svc.susp.toNat < 2 then 2 else fr.svc.susp } }

/-- A record of each frame whose service the boot changed (R27): against the set before the reset, or at power-up against
that of manufacture. -/
def Dev.recordService (d : Dev) : Dev :=
  allFrames.foldl (fun d f =>
    let v := (d.frame f).svc
    if v.insvc == v.before.getD (v.cause != 1) then d
    else d.ledger 0x04 0x01 { unit := 1, index := f.val, sub := v.cause.toNat, aux0 := d.insvc.gen.toNat }) d

/-- The self-test of the frames ends: repairs are loaded and the in-service set is fixed (R444 step 5). -/
def Dev.selfTested (d : Dev) (rs : List (FrameId × SelfTest)) : Dev :=
  let x := d.sec.fuses
  let d := Dev.recordService { d with
    fr := d.fr.mapFinIdx fun i fr h =>
      fr.afterTest (x.badFrames.getLsbD i) (SelfTest.join (testOf x.repairs ⟨i, h⟩) (testOf rs ⟨i, h⟩))
    sec := { d.sec with tested := true } }
  { d with fr := d.fr.map fun fr => { fr with svc := { fr.svc with before := none, tested := true } } }

end Sys2Proof.Machine
end

