-- ==== Sys2Proof/Machine/Scrub.lean ====
section
/-! DEFINITION. The patrol scrubber, write-backs, the end of a row's sparing, and the ledger's window (R217, R219, R224, R226,
R435). -/

namespace Sys2Proof.Machine

/-- The patrol begins a frame's local store again: its count of corrected words starts over (R421). -/
def Dev.patrolStart (d : Dev) (pa : Nat) : Dev :=
  match sramUnit pa with
  | some (_, some f) =>
    if pa % 0x800000 = 0 then d.updFrame f fun fr => { fr with svc := { fr.svc with lsCe := 0 } } else d
  | _ => d

/-- The patrol scrubber reads a line (R224); or, with `demand`, the read of a fetcher, a walk, the Market, the Exchange or any other
unit meets what the line returns (R197, R212, R216, R219). -/
def Dev.scrub (d : Dev) (line : Nat) (o : ScrubObs) : Dev :=
  if o.demand then (if d.fwRuns then d.lineRead line o else d)
  else if !d.up || !d.mem.scrubOn then d
  else
    let d := (d.patrolStart (line * 64)).lineRead line o true
    if (line + 1) * 64 = dramEnd then { d with mem := { d.mem with passes := d.mem.passes + 1 } } else d

/-- A write-back is made, or dropped when a newer write reached the line (R217, R219). -/
def Dev.writeBack (d : Dev) (i : Nat) : Dev :=
  match d.mem.wbacks[i]? with
  | none => d
  | some w =>
    let d := { d with mem := { d.mem with wbacks := d.mem.wbacks.eraseIdx i } }
    if w.stale then d else { d with mem := d.mem.storeBytes w.pa w.data }

/-- The physical address of a line of the DRAM dies (R198): that of the region whose slots hold it. -/
def Memory.lineAddr (m : Memory) (line : Nat) : Nat :=
  let die := line / 2 ^ 27
  let byte := line % 2 ^ 27 * 64
  let dl := byte / 256 * 1024 + die % 4 * 256 + byte % 256
  ((List.range 384).findSome? fun i =>
    let r := if h : i < 384 then m.region[i] else { slot := 0 }
    let lo := dl - r.slot.toNat * 2 ^ 26
    let hi := lo / 2 ^ 12
    let nib := (die / 4) ^^^ (hi % 16) ^^^ (hi / 16 % 16) ^^^ (hi / 256 % 16)
    let pa := i * 2 ^ 30 + (if r.pinned then lo else hi * 2 ^ 16 + nib * 2 ^ 12 + lo % 2 ^ 12)
    if pa / 2 ^ 30 = i ∧ m.dieLine pa = line then some pa else none).getD 0

/-- The copy of a row to its spare is complete: the row is redirected (R226). Its record names the row's first line (R434). -/
def Dev.spareDone (d : Dev) (i : Nat) : Dev :=
  match d.mem.copying[i]? with
  | none => d
  | some r =>
    let hard := d.mem.hard.filter fun l => lineRow l != r
    let d := { d with mem := { d.mem with
      copying := d.mem.copying.eraseIdx i, spared := d.mem.spared ++ [r], hard := hard } }
    d.ledger 0x01 0x03 {
      unit := 3, index := r.die, sub := r.bank, addr := d.mem.lineAddr (r.die * 2 ^ 27 + r.row * 32)
      aux0 := (d.mem.retired.filter fun k => k.1 == r.die / 4).length }

/-- SCRUB_READ (R224). -/
def execScrubRead (line : Nat) (o : ScrubObs) (s : State) : Host.Outcome State Fault Refusal :=
  s.stepDev (s.toDev.scrub line o)

/-- CORRECTION_WRITE_BACK (R219). -/
def execCorrectionWriteBack (i : Nat) (s : State) : Host.Outcome State Fault Refusal :=
  s.stepDev (s.toDev.writeBack i)

/-- ROW_SPARE_COMPLETE (R226). -/
def execRowSpareComplete (i : Nat) (s : State) : Host.Outcome State Fault Refusal :=
  s.stepDev (s.toDev.spareDone i)

/-- LEDGER_WINDOW_END (R435). -/
def execLedgerWindowEnd (s : State) : Host.Outcome State Fault Refusal :=
  s.stepDev { s.toDev with grd := { s.grd with window := [] } }

end Sys2Proof.Machine
end

