-- ==== Sys2Proof/Machine/WaggleOps.lean ====
section
/-! DEFINITION. The tree and the servo of Waggle time (R386–R393). -/

namespace Sys2Proof.Machine

/-- WAG_ROOT is set (R393), by management or as the plan's lowest ID: no counter steps. -/
def Dev.setRoot (d : Dev) (root : BitVec 15) (named : Bool := true) : Dev :=
  ({ d with wag := { d.wag with root := root, rootV := true, rootNamed := d.wag.rootNamed || named } } : Dev).reform

/-! ### Exchanges (R386–R389) -/

/-- A request: KIND 1, the sender's state and root, and its number; t1 is stamped as it is sent. -/
def Dev.waggleRequest (d : Dev) (to_ : BitVec 15) (n : BitVec 32) : Dev :=
  (d.sendFlit (d.mkFlit classW 0x03 0 to_ ([1] ++ le 1 d.wag.state.code ++ le 2 d.wag.root.toNat
    ++ le 4 n.toNat ++ zeros 32))).1

/-- Every 8 µs: a request to the parent, and under FALLBACK one to the primary parent. -/
def Dev.exchangeTimer (d : Dev) : Dev :=
  if !d.up || d.wag.state == .root then d
  else match d.wag.parent with
    | none => d
    | some p =>
      let d := { d with wag := { d.wag with reqSeq := d.wag.reqSeq + 1 } }
      let d := d.waggleRequest p d.wag.reqSeq
      match d.wag.fallback, d.wag.primary with
      | true, some q =>
        let w := d.wag
        let d := { d with wag := { w with
          primGood := if w.primAns then w.primGood else 0, primAns := false, primSeq := w.primSeq + 1 } }
        d.waggleRequest q d.wag.primSeq
      | _, _ => d

/-- A time of a Waggle message: nanoseconds and fraction (R388). -/
def wagNs (t : Nat) : List Byte := le 8 (t / 2 ^ 16)
def wagFrac (t : Nat) : List Byte := le 2 (t % 2 ^ 16)

/-- The receive stamp of a message that a port's receive buffer holds. -/
def Dev.wagStamp (d : Dev) (p : Port) (src : BitVec 15) : Nat :=
  match (d.port p).rx.find? fun fl => fl.proto == 0x03 && fl.src == src with
  | some fl => fl.stamp.toNat
  | none => (d.rxStamp p).toNat

/-- A Waggle message leaves the receive buffer of its port. -/
def Dev.takeWag (d : Dev) (p : Port) (src : BitVec 15) : Dev :=
  match (d.port p).takeFlit fun fl => fl.proto == 0x03 && fl.src == src with
  | some x => d.setPort p x
  | none => d

/-- Answer a child's request (R389): t3 is stamped as the response is sent. -/
def Dev.waggleAnswer (d : Dev) (src : BitVec 15) (m : WagMsg) (t2 : Nat) : Dev :=
  (d.sendFlit (d.mkFlit classW 0x03 0 src ([2] ++ le 1 d.wag.state.code ++ le 2 d.wag.root.toNat ++ le 4 m.seq.toNat
    ++ wagNs m.t1 ++ wagFrac m.t1 ++ wagFrac t2 ++ zeros 2 ++ zeros 2 ++ wagNs t2 ++ zeros 8))).1

/-! ### The servo (R390, R391) -/

/-- 250 ppm in units of 2^-32. -/
def rateLimit : Int := 1073741

def clampRate (x : Int) : Int := max (-rateLimit) (min rateLimit x)

/-- The entry with the least round trip, the latest on a tie. -/
def bestEntry : List (Int × Int) → Int × Int
  | [] => (0, 0)
  | e :: es => es.foldl (fun b x => if x.2 ≤ b.2 then x else b) e

/-- WAG_SERVO.OFFSET: 2^-16 ns, saturating. -/
def offsetField (t : Int) : BitVec 32 :=
  BitVec.ofInt 32 (max (-(2 ^ 31)) (min (2 ^ 31 - 1) (t / 2 ^ 16)))

/-- The servo's next state with `t` in units of 2^-32 ns (R391). -/
def Waggle.judge (w : Waggle) (t : Int) : Waggle × WState :=
  let near := decide (t.natAbs ≤ 2 * 2 ^ 32)
  let far := decide (10 * 2 ^ 32 < t.natAbs)
  match w.state with
  | .acquiring =>
    let n := if near then w.good + 1 else 0
    ({ w with good := n }, if 16 ≤ n then .locked else .acquiring)
  | .locked =>
    let n := if far then w.badRun + 1 else 0
    ({ w with badRun := n }, if 4 ≤ n then .acquiring else .locked)
  | .holdover => (w, .acquiring)
  | .freeRun => (w, .acquiring)
  | .root => (w, .root)

/-- Run the servo on a response with its four times in units of 2^-16 ns. -/
def Dev.servo (d : Dev) (t1 t2 t3 t4 : Nat) : Dev :=
  let r : Int := ((t4 : Int) - t1) - ((t3 : Int) - t2)
  let th : Int := (((t2 : Int) - t1) - ((t4 : Int) - t3)) * 2 ^ 15
  let w := d.wag
  let win := (w.window ++ [(th, r)])
  let win := win.drop (win.length - 8)
  let (ts, _) := bestEntry win
  let w := { w with window := win, offset := offsetField ts }
  if !w.valid then
    ({ d with wag := { w with ctr := w.ctr + BitVec.ofInt 80 (th / 2 ^ 16), valid := true } } : Dev).setServo .acquiring
  else
    let fi := clampRate (w.fi + ts / 2 ^ 20)
    let rate := clampRate (fi + ts / 2 ^ 16)
    let (w, st) := Waggle.judge { w with fi := fi, rate := rate } ts
    ({ d with wag := w } : Dev).setServo st

/-- A response reaches this device (R387, R389–R391, R393). -/
def Dev.waggleResponse (d : Dev) (src : BitVec 15) (m : WagMsg) (t4 : Nat) : Dev :=
  let w := d.wag
  if w.state == .root then d
  else if w.parent == some src && m.seq == w.reqSeq then
    let d := { d with wag := { w with heard := d.ns } }
    if m.root != w.root then d.ledger 0x08 0x01 { aux0 := m.root.toNat }
    else d.servo m.t1 m.t2 m.t3 t4
  else if w.fallback && w.primary == some src && m.seq == w.primSeq && !w.primAns then
    let n := w.primGood + 1
    let d := { d with wag := { w with primGood := n, primAns := true } }
    if 16 ≤ n then d.setParent w.primary else d
  else d

/-- The parent has not answered for 1 ms of the local clock (R387). -/
def Dev.parentSilent (d : Dev) : Bool := decide (d.wag.heard + 1000000 ≤ d.ns)

/-- The parent is lost (R387): its port left ACTIVE, or it was silent for 1 ms, which alone leads to HOLDOVER with the rate
frozen at fi (R391). The first reachable device of R387 becomes the parent. -/
def Dev.loseParent (d : Dev) : Dev :=
  let w := d.wag
  let silent := d.parentSilent
  if !d.up || w.state == .root || w.parent.isNone || (!silent && !w.portLost) then d
  else
    let d := if silent = false then d
      else if w.state == .acquiring || w.state == .locked then
        ({ d with wag := { w with rate := w.fi } } : Dev).setServo .holdover else d
    let order := [d.rackLeader (d.lnk.devId.toNat / 64), d.upperLeader, some w.root]
    match order.find? fun o => o.isSome && o != some d.lnk.devId && o != w.parent
        && (o.bind fun i => d.portTo i).isSome with
    | some o => d.setParent o
    | none => d

end Sys2Proof.Machine
end

