-- ==== Sys2Proof/Machine/Regs.lean ====
section
/-! DEFINITION. What every memory-mapped register and record reads as (R3, R4, R18–R23, R54, R98–R101, R142–R147,
R200, R209, R211, R228, R229, R244, R248, R267–R276, R287, R298, R299, R305, R347–R350, R379–R382, R398, R407, R408,
R417, R437, R461, R466, R484, R499, R505). -/

namespace Sys2Proof.Machine

/-- Register fields from bit 0 up: each a width and its value. -/
def fields : List (Nat × Nat) → Nat
  | [] => 0
  | (w, v) :: fs => v % 2 ^ w + fields fs * 2 ^ w

def regOf (fs : List (Nat × Nat)) : Option Word := some (BitVec.ofNat 64 (fields fs))

/-- The 8 bytes at an offset of a record. -/
def wordAt (bs : List Byte) (off : Nat) : Option Word := some (BitVec.ofNat 64 (field bs off 8))

def countOf (p : α → Bool) (xs : List α) : Nat := (xs.filter p).length

/-! ### Host interface, queues and completion rings (R276, R287, R298, R299) -/

def QState.code : QState → Nat
  | .free => 0 | .idle => 1 | .fetching => 2 | .held => 3 | .stopped => 4 | .destroying => 5

def QRec.bytes (q : QRec) : List Byte :=
  le 1 q.state.code ++ le 1 (b2n q.admin + 2 * b2n q.hostDma + 4 * b2n q.tailSem) ++ le 2 q.ctx.toNat ++ le 1 q.log2 ++ [0]
    ++ le 2 q.cring.toNat ++ le 8 q.ring.toNat ++ le 8 q.headA.toNat ++ le 8 q.tailA.toNat ++ le 4 q.sem.toNat
    ++ le 4 q.hangMs.toNat ++ le 8 q.completed.toNat ++ le 8 q.dbDropped.toNat ++ zeros 8

def CRing.bytes (r : CRing) : List Byte :=
  le 1 (b2n r.active) ++ le 1 (b2n r.irqAll) ++ le 2 r.ctx.toNat ++ le 1 r.log2 ++ [0] ++ le 2 r.vector.toNat
    ++ le 8 r.ring.toNat ++ le 8 r.headA.toNat ++ le 4 r.modUs.toNat ++ zeros 4

def bytesOf (g : Nat → Byte) (n : Nat) : List Byte := (List.range n).map g

def Dev.readHif (d : Dev) (o : Nat) : Option Word :=
  let h := d.hif
  if 0x100 ≤ o ∧ o < 0x180 then wordAt (bytesOf (fun i => (h.mbxReq.get? (o - 0x100 + i)).getD 0) 8) 0
  else if 0x180 ≤ o ∧ o < 0x200 then wordAt (bytesOf (fun i => (h.mbxRsp.get? (o - 0x180 + i)).getD 0) 8) 0
  else if 0x10000 ≤ o ∧ o < 0x18000 then wordAt (bytesOf (fun i => h.msixByte (o - 0x10000 + i)) 8) 0
  else if 0x18000 ≤ o ∧ o < 0x18100 then
    regOf ((List.range 64).map fun i => (1, b2n ((h.msixPending.get? ((o - 0x18000) * 8 + i)).getD false)))
  else if 0x200000 ≤ o ∧ o < 0x300000 then wordAt (d.queue ((o - 0x200000) / 64)).bytes (o % 64)
  else if 0x300000 ≤ o ∧ o < 0x380000 then wordAt (d.cring ((o - 0x300000) / 32)).bytes (o % 32)
  else match o with
    | 0x000 => regOf [(1, b2n h.fwReady), (1, b2n h.attached), (1, b2n (d.mkt.ctxs.any (·.2.orphaned))), (5, 0),
        (4, h.gen.toNat), (3, h.width.toNat)]
    | 0x010 => regOf [(48, h.bar2Map.toNat)]
    | 0x018 => some h.heartbeat
    | 0x020 => regOf [(32, h.orphanLimit.toNat)]
    | 0x028 => regOf [(4, h.irqCause.toNat)]
    | 0x030 => regOf [(48, h.faultArea.toNat)]
    | 0x040 => some 0
    | 0x048 => regOf [(1, b2n h.mbxBusy), (1, b2n h.mbxOverrun), (14, 0), (16, h.mbxSeq.toNat)]
    | _ => none

/-! ### Frames (R18–R22, R54, R98–R101, R142–R147) -/

/-- FRM_INSVC_COUNT.COUNT. -/
def Dev.inService (d : Dev) : Nat := countOf (fun f => (d.frame f).svc.insvc) allFrames

def Dev.frameAt (d : Dev) (i : Nat) : Frame := if h : i < 384 then d.fr[i] else {}

def Dev.readInsvc (d : Dev) (o : Nat) : Option Word :=
  if 0x010 ≤ o ∧ o ≤ 0x038 then
    regOf ((List.range 64).map fun i => (1, b2n (d.frameAt ((o - 0x010) * 8 + i)).svc.insvc))
  else match o with
    | 0x000 => regOf [(9, d.inService), (7, 0), (9, d.sec.fuses.shipped.toNat)]
    | 0x008 => regOf [(1, b2n d.insvc.busy), (31, d.insvc.gen.toNat)]
    | 0x040 => regOf [(9, d.insvc.causeSel.toNat)]
    | 0x048 =>
      let s := (d.frameAt d.insvc.causeSel.toNat).svc
      regOf [(4, s.cause.toNat), (28, 0), (31, s.atGen.toNat)]
    | _ => none

def Frame.readReg (fr : Frame) (o : Nat) : Option Word :=
  if 0x300 ≤ o ∧ o < 0x400 then
    let e := (fr.eff.toList[(o - 0x300) / 16]?).getD 0
    some (if o % 16 = 0 then e.setWidth 64 else (e >>> 64).setWidth 64)
  else match o with
    | 0x000 => regOf [(3, fr.state.code), (13, 0), (12, fr.ctx.toNat), (1, b2n fr.ctxV)]
    | 0x008 => regOf [(52, fr.pc.toNat)]
    | 0x010 => regOf [(52, fr.taskVa.toNat), (11, 0), (1, b2n fr.taskV)]
    | 0x020 => regOf [(8, fr.fault.code.toNat), (4, fr.fault.unit.toNat), (1, b2n fr.fault.precise), (1, b2n fr.fault.addrV)]
    | 0x028 => regOf [(53, fr.fault.addrWord)]
    | 0x030 => some fr.fault.insn
    | 0x040 => regOf [(1, b2n fr.preempt), (1, b2n fr.step)]
    | 0x100 => regOf [(10, fr.fmtFlags.toNat)]
    | 0x200 => regOf [(8, fr.geom.rows), (5, fr.geom.colgrp), (3, 0), (4, fr.geom.byp), (2, fr.geom.spares), (2, 0),
        (8, (fr.geom.fillAdj % 256).toNat)]
    | 0x208 => regOf [(8, (fr.geom.fail0.getD 0).toNat), (1, b2n fr.geom.fail0.isSome), (7, 0),
        (8, (fr.geom.fail1.getD 0).toNat), (1, b2n fr.geom.fail1.isSome)]
    | 0x210 => regOf [(4, fr.ramp.level), (4, fr.ramp.cap), (1, b2n fr.ramp.startHold)]
    | 0x218 => regOf [(16, fr.ramp.feedHold.toNat), (16, fr.ramp.drainHold.toNat), (16, fr.ramp.rampHold.toNat),
        (16, fr.ramp.tiles.toNat)]
    | 0x400 => some (BitVec.ofNat 64 fr.moverWord)
    | _ => none

/-! ### Memory (R200, R209, R211, R228, R229) -/

def Dev.readMem (d : Dev) (o : Nat) : Option Word :=
  let m := d.mem
  if o < 0xC00 then
    let r := (m.region.toList[o / 8]?).getD { slot := 0 }
    regOf [(1, b2n r.pinned), (4, r.cd.toNat), (3, 0), (9, r.slot.toNat)]
  else if 0x1200 ≤ o ∧ o < 0x1400 then
    let n := (o - 0x1200) / 8
    let e := (m.derr.toList[n]?).getD {}
    let rows := m.spared.filter (·.die == n)
    regOf [(16, e.inner.toNat), (16, e.outer.toNat), (12, e.ue.toNat), (8, rows.length),
      (1, b2n (rows.any fun r => decide (2 ≤ m.sparesUsed n r.bank)))]
  else if 0x1400 ≤ o ∧ o < 0x1600 then
    let n := (o - 0x1400) / 8
    let e := (m.serr.toList[n]?).getD {}
    regOf [(16, e.inner.toNat), (12, e.ue.toNat), (7, countOf (fun r => r.1 == 16 + n) m.retired)]
  else if 0x1800 ≤ o ∧ o < 0x1A00 then
    let w := (m.rwin.toList[(o - 0x1800) / 16]?).getD {}
    if o % 16 = 0 then regOf [(12, 0), (36, w.base.toNat), (16, w.job.toNat)]
    else regOf [(28, w.pages.toNat), (1, b2n w.r), (1, b2n w.w), (1, b2n w.bell), (1, b2n w.v)]
  else match o with
    | 0x1000 => some 0
    | 0x1008 => regOf [(32, m.tlbiIssued.toNat), (32, m.tlbiDone.toNat)]
    | 0x1100 => regOf [(8, m.dramHours.toNat), (6, m.sramMin.toNat), (1, b2n m.scrubOn), (17, 0), (32, m.passes.toNat)]
    | _ => none

/-! ### Task Market and context records (R244, R248, R267–R272) -/

def Dev.ctxBytes (d : Dev) (c : BitVec 12) : List Byte :=
  let x := d.ctx c
  le 1 x.code ++ le 1 (b2n x.orphaned + 2 * b2n x.bound + 4 * b2n x.insnPreempt) ++ le 1 x.cls.toNat ++ le 1 x.weight.toNat
    ++ le 2 x.job.toNat ++ le 2 (if x.bound then x.stall.toNat else 0xFFFF) ++ le 8 x.ptRoot.toNat ++ le 8 x.saveArea.toNat
    ++ le 8 x.faultArea.toNat ++ le 4 x.maxTasks.toNat ++ le 2 x.minFrames.toNat ++ le 2 x.maxFrames.toNat
    ++ le 4 x.preemptWait.toNat ++ le 4 (d.liveOf c) ++ le 8 x.fmtFlags.toNat ++ le 8 x.saveGen.toNat
    ++ le 8 x.frameCycles.toNat ++ le 8 (x.deficit % 2 ^ 64).toNat ++ le 4 x.semFirst.toNat ++ le 4 x.semCount.toNat
    ++ le 8 (b2n x.needW128) ++ zeros 160

def Dev.readMkt (d : Dev) (o : Nat) : Option Word :=
  let m := d.mkt
  if 0x1000 ≤ o ∧ o < 0x1C00 then
    let fr := d.frameAt ((o - 0x1000) / 8)
    regOf [(9, fr.stall.toNat), (1, b2n fr.stallV)]
  else match o with
    | 0x000 => regOf [(21, d.liveAll), (21, countOf (·.state == .offered) (m.graphs.flatMap (·.tasks))), (19, m.watchers.length)]
    | 0x008 => some m.takes
    | 0x010 => regOf [(1, b2n m.dispatchRefused), (1, b2n m.bellRefused), (1, b2n m.imageInvalid), (13, 0), (16, m.refusals.toNat)]
    | 0x040 => regOf [(12, m.ctxSel.toNat)]
    | 0x048 =>
      let x := d.ctx m.ctxSel
      regOf [(4, x.code), (1, b2n x.orphaned), (1, b2n x.bound), (2, x.cls.toNat),
        (9, if x.bound then x.stall.toNat else 0), (7, x.mktFault.toNat), (8, 0), (17, d.liveOf m.ctxSel)]
    | 0x080 => regOf [(12, m.crdSel.toNat)]
    | 0x088 =>
      let c := d.credit m.crdSel.toNat
      regOf [(17, c.sem.toNat), (1, b2n c.v), (14, 0), (16, c.waiters.length)]
    | 0x090 => some (d.credit m.crdSel.toNat).cycles
    | 0x0A0 => regOf [(9, m.stallSel.toNat)]
    | 0x0A8 => some ((m.stallIdle.get? m.stallSel.toNat).getD 0)
    | _ => none

/-! ### Exchange (R305, R347–R350) -/

def Job.bytes (j : Job) : List Byte :=
  le 1 j.state.code ++ le 1 (b2n j.policy) ++ le 1 j.attempt ++ le 1 (b2n j.bank) ++ le 4 j.step.toNat ++ le 2 j.job.toNat
    ++ le 2 j.ctx.toNat ++ le 2 j.queue.toNat ++ le 2 j.barrier.toNat ++ le 2 j.nrank ++ le 2 j.rank ++ le 2 j.nboard
    ++ le 2 j.pos ++ le 1 j.slotmask.toNat ++ le 1 j.nplane ++ zeros 2 ++ le 4 j.timeout ++ le 8 j.rankmapA.toNat
    ++ le 8 j.ringplanA.toNat ++ le 8 j.cring.toNat ++ le 8 j.chead.toNat ++ le 4 j.csem.toNat ++ le 4 j.stepSem.toNat
    ++ le 1 j.clog2 ++ zeros 3 ++ le 4 j.cfg.toNat ++ le 8 j.stale.toNat ++ le 4 j.aborts.toNat ++ le 4 j.redos.toNat
    ++ le 4 j.resends.toNat ++ le 4 j.mismatches.toNat ++ le 8 j.head ++ zeros 16

def Dev.bktSelected (d : Dev) : Option Bucket :=
  let e := d.xch.bktSel.toNat
  d.xch.bkts.find? fun b => b.ents.contains (e % 16, e / 16)

def Dev.readXch (d : Dev) (o : Nat) : Option Word :=
  let x := d.xch
  let ents := x.bkts.flatMap (·.ents)
  if 0x100 ≤ o ∧ o < 0x180 then
    let i := (o - 0x100) / 8
    regOf [(9, countOf (·.1 == i) ents), (7, 0), (12, ceilDiv (d.earlyUse i) 1024), (4, 0), (13, ceilDiv (d.resendUse i) 1024)]
  else if 0x10000 ≤ o ∧ o < 0x18000 then wordAt (d.job ((o - 0x10000) / 128)).bytes (o % 128)
  else match o with
    | 0x000 => regOf [(9, countOf (fun j => j.state != .free) x.jobs.toList), (7, 0), (13, ents.length)]
    | 0x008 => regOf [(1, b2n x.unknownJob), (1, b2n x.cfgMismatch), (1, b2n x.resultMismatch), (1, b2n x.resendFail), (12, 0),
        (16, x.unknownCount.toNat)]
    | 0x040 => regOf [(12, x.bktSel.toNat)]
    | 0x048 => match d.bktSelected with
      | none => some 0
      | some b =>
        let w := d.segsAwaited b
        regOf [(3, b.state.code), (5, 0), (16, (d.job b.job).job.toNat), (16, b.bucket.toNat), (2, b.attempt), (3, b.redo),
          (3, (w.map (·.1)).foldl min ((w.head?.map (·.1)).getD 0)), (16, min 65535 (w.map (·.2)).sum)]
    | 0x050 => regOf [(32, (d.bktSelected.map (·.step.toNat)).getD 0)]
    | _ => none

/-! ### Links and Waggle time (R379–R382, R398, R407, R408) -/

def Dev.portsIn (d : Dev) (st : PState) : Word :=
  BitVec.ofNat 64 (fields ((List.finRange 32).map fun p => (1, b2n ((d.port p).state == st))))

/-- LNK_STATUS. -/
def Dev.lnkStatus (d : Dev) : Nat := (d.portsIn .active).toNat + (d.portsIn .quarantined).toNat * 2 ^ 32

def Dev.readPort (d : Dev) (p : Port) (o : Nat) : Option Word :=
  let x := d.port p
  match o with
  | 0x00 => regOf [(4, x.state.code), (4, x.lanes), (8, x.laneMask.toNat), (3, x.qcause.toNat), (1, b2n x.hintUsed), (12, 0),
      (16, x.retrains.toNat)]
  | 0x08 =>
    let e := d.planEntry p
    regOf [(15, x.peerId.toNat), (1, b2n x.peerV), (5, x.peerPort.toNat), (11, 0), (15, (e.map (·.peerId.toNat)).getD 0),
      (1, b2n d.lnk.plan.isSome), (5, (e.map (·.peerPort.toNat)).getD 0)]
  | 0x10 => regOf [(16, x.crcErr.toNat), (16, x.replays.toNat), (16, x.fecUncorr.toNat), (16, x.laneDrops.toNat)]
  | 0x18 => regOf [(8, x.malformed.toNat), (8, x.unsupported.toNat), (8, x.creditOvr.toNat), (8, x.violRetrains.toNat)]
  | _ => none

def Dev.readLnk (d : Dev) (o : Nat) : Option Word :=
  if h : 0x1000 ≤ o ∧ o < 0x1800 then d.readPort ⟨(o - 0x1000) / 0x40, by omega⟩ (o % 0x40)
  else if 0x4000 ≤ o ∧ o < 0x4200 then d.lnk.rtb.toList[(o - 0x4000) / 8]?
  else if 0x5000 ≤ o ∧ o < 0x6000 then some ((d.lnk.rtr.get? ((o - 0x5000) / 8)).getD 0)
  else match o with
    | 0x000 => regOf [(15, d.lnk.devId.toNat), (1, b2n d.lnk.devV)]
    | 0x008 => regOf [(8, d.lnk.cWeight.toNat), (8, d.lnk.bWeight.toNat)]
    | 0x010 => some (BitVec.ofNat 64 d.lnkStatus)
    | _ => none

def GState.code : GState → Nat
  | .free => 0 | .idle => 1 | .arrived => 2 | .broken => 3

def Group.bytes (g : Group) : List Byte :=
  le 1 g.state.code ++ le 1 (b2n g.tagged) ++ le 1 g.nIn ++ le 1 g.rounds ++ le 2 g.nOut ++ le 2 g.member ++ le 4 g.key.toNat
    ++ le 2 g.ctx.toNat ++ le 2 g.job.toNat ++ le 8 g.membersA.toNat ++ le 8 g.episode.toNat ++ le 4 g.relSem.toNat
    ++ le 1 g.round ++ zeros 3 ++ le 8 g.completions.toNat ++ le 4 g.stale.toNat ++ zeros 12

/-- WAG_STATUS. -/
def Dev.wagStatus (d : Dev) : Nat :=
  let w := d.wag
  fields [(3, w.state.code), (1, b2n w.valid), (2, w.role.toNat), (5, w.parentPort.toNat), (1, b2n w.fallback), (4, 0),
    (16, w.earlyRel.toNat)]

def Dev.readWag (d : Dev) (o : Nat) : Option Word :=
  let w := d.wag
  if 0x10000 ≤ o ∧ o < 0x20000 then wordAt (d.group ((o - 0x10000) / 64)).bytes (o % 64)
  else match o with
    | 0x000 => some (BitVec.ofNat 64 d.waggle)
    | 0x008 => some (BitVec.ofNat 64 d.wagStatus)
    | 0x010 => regOf [(32, w.offset.toNat), (24, (w.rate % 2 ^ 24).toNat)]
    | 0x018 => regOf [(15, w.root.toNat), (1, b2n w.rootV)]
    | 0x020 => regOf [(6, w.slot.toNat), (10, 0), (16, w.heldCnt.toNat)]
    | _ => none

/-! ### Tallies, guard, power, security and debug (R417, R437, R461, R466, R484, R499) -/

/-- The selected channel's place in its table. -/
def Tally.key (t : Tally) : Nat := t.unit.toNat * 64 + t.ch.toNat

/-- The selected DRAM-controller channel; a link die's has no scan registers of its own (R417). -/
def Tally.chan (t : Tally) : UChan := if t.kind = 0 then {} else (t.dram.get? t.key).getD {}

/-- A segment sent: its channel holds the value over the whole of it, not finished (R410, R414). -/
def SentSeg.chan (s : SentSeg) (x : Job) (own : BitVec 15) : Chan :=
  let k : BKey := { job := s.job, step := s.step, bucket := s.bucket, attempt := s.attempt, redo := s.redo }
  let data := (s.pkts.filter (·.pkt.kind == 1#8)).flatMap (·.pkt.data)
  { v := ~~~(segTally x k s.stage s.seg own data), poison := s.pkts.any (·.pkt.poison) }

/-- A segment received: the value over the packets that have come in INDEX order, not finished. -/
def Dev.rxChan (d : Dev) (b : Bucket) (c : CDesc) (r : Rx) (seg : Nat) : Chan :=
  let x := Coll.mk' (d.job b.job) c r.probe
  let got : List (Option (List Byte)) := match (x.segs r.stage r.src x.j.rank)[seg]? with
    | none => []
    | some s => ((List.range s.pkts.length).map fun i => (r.pkts.get? (s.first + i)).map RxPkt.data).takeWhile Option.isSome
  { v := ~~~(segTally x.j b.key r.stage seg (x.j.devOf r.src) (got.flatMap fun (p : Option (List Byte)) => p.getD [])), poison := b.bad }

/-- The link-die channel that serves an Exchange segment (R414). -/
def Dev.ldChan (d : Dev) (key : Nat) : Option Chan :=
  match d.xch.sent.find? (·.ch == key) with
  | some s => some (s.chan (d.job s.job) d.lnk.devId)
  | none => d.xch.bkts.findSome? fun b => b.desc.bind fun c => b.rx.findSome? fun r =>
      (r.chs.find? fun x => x.2 == key && !r.good.contains x.1).map fun x => d.rxChan b c r x.1

def Dev.readTly (d : Dev) (o : Nat) : Option Word :=
  let t := d.tly
  let ld := if t.kind = 0 then d.ldChan t.key else none
  let c := ld.getD t.chan.c
  match o with
  | 0x000 => regOf [(6, t.ch.toNat), (2, t.kind.toNat), (6, t.unit.toNat)]
  | 0x008 => some c.v
  | 0x010 => regOf [(1, b2n c.crc32), (1, b2n c.poison), (1, b2n (t.chan.scan.isSome || ld.isSome))]
  | 0x018 => regOf [(48, t.chan.base.toNat)]
  | 0x020 => regOf [(39, t.chan.len.toNat)]
  | 0x028 => some 0
  | 0x030 => regOf [(1, b2n t.chan.err), (31, 0), (32, t.chan.kibDone.toNat)]
  | _ => none

def Dev.readGrd (d : Dev) (o : Nat) : Option Word :=
  let g := d.grd
  match o with
  | 0x000 => regOf [(1, b2n g.enable), (3, 0), (4, g.rateLog2.toNat), (8, 0), (14, g.waitMs.toNat)]
  | 0x008 => regOf [(32, g.sampled.toNat), (16, countOf (fun t => !t.unver) g.tiles), (16, g.mismatch.toNat)]
  | 0x010 => regOf [(32, g.poisonSkip.toNat), (32, g.unverified.toNat)]
  | 0x040 => regOf [(9, g.fsel.toNat)]
  | 0x048 =>
    let s := (d.frameAt g.fsel.toNat).svc
    regOf [(2, s.susp.toNat), (1, b2n s.flagged), (13, 0), (32, s.sampled.toNat), (8, s.lost.toNat)]
  | 0x050 => regOf [(12, g.csel.toNat)]
  | 0x058 => regOf [(1, b2n (d.ctx g.csel).taint), (1, b2n (d.ctx g.csel).waiting), (14, 0), (16, (d.pendingTiles g.csel).length)]
  | 0x080 => regOf [(48, g.ledgerBase.toNat)]
  | 0x088 => regOf [(32, g.written.toNat), (32, g.exported.toNat)]
  | 0x090 => regOf [(32, g.lost.toNat), (32, g.suppressed.toNat)]
  | _ => none

def Dev.readPwr (d : Dev) (o : Nat) : Option Word :=
  let p := d.pwr
  if 0x100 ≤ o ∧ o < 0x180 then
    let i := (o - 0x100) / 8
    regOf [(10, (d.die i).mv), (4, d.capOf i), (2, 0), (8, (d.die i).tj.toNat)]
  else match o with
    | 0x000 => regOf [(12, p.watts.toNat), (8, p.tThrottle.toNat)]
    | 0x008 => regOf [(12, p.pkgW.toNat), (8, p.tjMax.toNat), (1, b2n p.capped), (1, b2n p.thermal)]
    | _ => none

def Dev.readSec (d : Dev) (o : Nat) : Option Word :=
  let x := d.sec
  if 0x040 ≤ o ∧ o < 0x0C0 then x.traceMask.toList[(o - 0x040) / 8]?
  else match o with
    | 0x000 => some x.fwId
    | 0x008 => regOf [(16, x.svn.toNat), (16, x.fuses.minSvn.toNat), (1, b2n x.fuses.owner.isSome), (1, b2n x.key.isSome), (6, 0),
        (8, x.loadTries.toNat)]
    | 0x010 => wordAt (x.serial ++ zeros 16) 0
    | 0x018 => wordAt (x.serial ++ zeros 16) 8
    | 0x020 => regOf [(48, x.logBase.toNat)]
    | 0x028 => regOf [(2, x.logLevel.toNat), (30, 0), (32, x.logHead.toNat)]
    | 0x030 => regOf [(48, x.traceBase.toNat), (5, x.traceLog2.toNat)]
    | 0x038 => regOf [(32, x.traceWritten.toNat), (32, x.traceDropped.toNat)]
    | 0x0C0 => regOf [(16, x.wdog.toNat)]
    | 0x0C8 => regOf [(32, x.apyDropped.toNat)]
    | _ => none

def Dev.readDbg (d : Dev) (o : Nat) : Option Word :=
  let x := d.dbg
  match o with
  | 0x000 => some 0
  | 0x008 => regOf [(3, x.level.toNat), (5, x.cause.toNat), (5, x.rail.toNat), (3, 0), (16, x.count.toNat), (8, x.tjTrip.toNat)]
  | 0x010 => regOf [(9, x.node0.toNat), (1, b2n x.en0), (6, 0), (9, x.node1.toNat), (1, b2n x.en1)]
  | _ => none

/-! ### The whole map -/

/-- The blocks of the MMIO region: first address, bytes, and what the register at an offset reads as. -/
def Dev.readReg (d : Dev) (a : Nat) : Option Word :=
  let at_ (base size : Nat) : Bool := decide (base ≤ a) && decide (a < base + size)
  if a % 8 ≠ 0 then none
  else if at_ 0x0F0000000000 0x400000 then d.readHif (a - 0x0F0000000000)
  else if at_ 0x0F0001000000 0x100000 then d.readInsvc (a - 0x0F0001000000)
  else if at_ 0x0F0001100000 0x1800000 then
    (d.frameAt ((a - 0x0F0001100000) / 0x10000)).readReg ((a - 0x0F0001100000) % 0x10000)
  else if at_ 0x0F0004000000 0x400000 then d.readMem (a - 0x0F0004000000)
  else if at_ 0x0F0005000000 0x400000 then d.readMkt (a - 0x0F0005000000)
  else if at_ 0x0F0005800000 0x100000 then
    wordAt (d.ctxBytes (BitVec.ofNat 12 ((a - 0x0F0005800000) / 256))) (a % 256)
  else if at_ semBase 0x100000 then some (d.sem ((a - semBase) / 8))
  else if at_ 0x0F0007000000 0x400000 then d.readXch (a - 0x0F0007000000)
  else if at_ 0x0F0007400000 0x400000 then d.readLnk (a - 0x0F0007400000)
  else if at_ 0x0F0007800000 0x400000 then d.readWag (a - 0x0F0007800000)
  else if at_ 0x0F0007C00000 0x80000 then d.readTly (a - 0x0F0007C00000)
  else if at_ 0x0F0007C80000 0x80000 then d.readGrd (a - 0x0F0007C80000)
  else if at_ 0x0F0007D00000 0x100000 then d.readPwr (a - 0x0F0007D00000)
  else if at_ 0x0F0007E00000 0x100000 then d.readSec (a - 0x0F0007E00000)
  else if at_ 0x0F0007F00000 0x100000 then d.readDbg (a - 0x0F0007F00000)
  else none

end Sys2Proof.Machine
end

