-- ==== Sys2Proof/Machine/Remote.lean ====
section
/-! DEFINITION. Bells and class B accesses of other devices, and the answers to this device's own (R210, R211, R245,
R354). -/

namespace Sys2Proof.Machine

/-- A right a remote window grants (R210). -/
inductive WinRight where
  | read | write | bell
  deriving DecidableEq, Repr

/-- One remote window covers every byte, matches the job and grants the right (R210, R211). -/
def RWin.grants (w : RWin) (job : BitVec 16) (right : WinRight) (pa len : Nat) : Bool :=
  let ok := match right with | .read => w.r | .write => w.w | .bell => w.bell
  w.v && ok && w.job == job && decide (w.base.toNat * 4096 ≤ pa)
    && decide (pa + len ≤ w.base.toNat * 4096 + w.pages.toNat * 4096)

/-- The access lies on this device and a window grants it. -/
def Dev.remoteMay (d : Dev) (job : BitVec 16) (right : WinRight) (addr : Word) (len : Nat) : Bool :=
  fabDev addr == d.lnk.devId && !addr.getLsbD 63
    && d.mem.rwin.toList.any fun w => w.grants job right (addr.toNat % 2 ^ 48) len

/-- The answer to a bell or write: its tag and the bytes made visible (R354). -/
def Dev.sendAck (d : Dev) (job : BitVec 16) (dst : BitVec 15) (tag : BitVec 32) (n : Nat) : Dev :=
  d.forward (d.mkFlit classB 0x08 job dst (le 4 tag.toNat ++ le 4 n))

/-- An error response to another device's request. -/
def Dev.refuse (d : Dev) (cls : BitVec 2) (job : BitVec 16) (dst : BitVec 15) (tag : BitVec 32) : Dev :=
  d.sendError cls job dst tag 0x07

/-- A bell of another device (R210, R245). -/
def Dev.bellFlit (d : Dev) (m : BellMsg) : Dev :=
  let d := d.consume 0x02 m.job
  let addr := m.addr &&& ~~~7#64
  if d.remoteMay m.job .bell addr 8 then
    match d.bellHere addr m.value m.add m.job m.src.toNat with
    | (d, none) => d.sendAck m.job m.src m.tag 8
    | (d, some _) => d.refuse classC m.job m.src m.tag
  else
    let d := { d with mkt := { d.mkt with refusals := satAdd d.mkt.refusals } }
    (d.ledger 0x07 0x02 { addr := addr.toNat, aux0 := m.src.toNat }).refuse classC m.job m.src m.tag

/-- A class B access was refused (R210): the count, which no register shows (assumption 72), the ledger record and the error
response. -/
def Dev.refuseAccess (d : Dev) (addr : Word) (job : BitVec 16) (src : BitVec 15) (tag : BitVec 32) : Dev :=
  (({ d with lnk := { d.lnk with refusedB := satAdd d.lnk.refusedB } } : Dev).ledger 0x07 0x01 { addr := addr.toNat, aux0 := src.toNat }).refuse classB job src tag

/-- A class B read: its data in flits of up to 224 bytes (R354). It reaches DRAM and comb stores; a local store is reached
through BAR2 alone (R191). -/
def Dev.remoteRead (d : Dev) (m : BReadMsg) : Dev :=
  let d := d.consume 0x05 m.job
  let pa := m.addr.toNat % 2 ^ 48
  if m.len = 0 ∨ 4096 < m.len ∨ m.len % 64 ≠ 0 ∨ d.remoteMay m.job .read m.addr m.len = false ∨ inDramOrComb pa m.len = false
  then d.refuseAccess m.addr m.job m.src m.tag
  else
    (List.range (ceilDiv m.len 224)).foldl (fun d i =>
      let off := 224 * i
      let n := min 224 (m.len - off)
      d.forward (d.mkFlit classB 0x06 m.job m.src (le 4 m.tag.toNat ++ le 4 off ++ d.read (pa + off) n)
        (d.mem.readPoison (pa + off) n))) d

/-- A class B write, acknowledged once its bytes are visible (R220, R354). -/
def Dev.remoteWrite (d : Dev) (m : BWriteMsg) : Dev :=
  let d := d.consume 0x07 m.job
  let pa := m.addr.toNat % 2 ^ 48
  let n := m.data.length
  if 224 < n ∨ d.remoteMay m.job .write m.addr n = false ∨ inDramOrComb pa n = false then
    d.refuseAccess m.addr m.job m.src m.tag
  else ((d.demandRead (partLines pa n) m.errs).write pa m.data m.poison).sendAck m.job m.src m.tag n

/-- The bytes of a read request, once its pieces follow one another from byte 0 to its end. -/
def Req.whole (r : Req) : Option (List Byte) :=
  let ends := r.got.foldl (fun (n : Option Nat) p => n.bind fun n => if p.1 = n then some (n + p.2.length) else none) (some 0)
  if ends = some r.bytes then some (r.got.flatMap (·.2)) else none

/-- Read data for a request of this device: a piece at its byte offset, and with the last piece the answer (R354). -/
def Dev.dataArrived (d : Dev) (m : BDataMsg) : Dev :=
  let d := d.consumeTag 0x06 m.tag
  match d.lnk.reqs.find? fun r => r.tag == m.tag with
  | none => d
  | some r =>
    let r := { r with got := SMap.put r.got m.off m.data, psn := r.psn || m.poison }
    match r.whole, r.origin with
    | some bs, .load f => (d.dropReq m.tag).loadArrived f m.tag bs r.psn
    | some bs, .moveRead f => (d.dropReq m.tag).moveRead f m.tag bs r.psn
    | _, _ => { d with lnk := { d.lnk with reqs := d.lnk.reqs.map fun x => if x.tag == m.tag then r else x } }

/-- An acknowledgement for a request of this device: a store, a line of a move, or a bell that was applied. -/
def Dev.ackArrived (d : Dev) (tag : BitVec 32) (n : Nat) : Dev :=
  let d := d.consumeTag 0x08 tag
  match d.lnk.reqs.find? fun r => r.tag == tag with
  | none => d
  | some r =>
    match r.origin with
    | .store f => if n = r.bytes then (d.dropReq tag).storeAcked f tag else d
    | .moveWrite f => if n = r.bytes then ((d.dropReq tag).moveWritten f tag).pumpTally f 16 else d
    | .taskBell _ _ _ _ _ _ _ => d.dropReq tag
    | .graphBell _ _ _ _ => d.dropReq tag
    | .entryBell q seq =>
      let d := d.dropReq tag
      match d.entry? q seq with
      | some e => (d.complete q e .ok).1
      | none => d
    | _ => d

/-- BELL_FLIT (R210). -/
def execBellFlit (m : BellMsg) (s : State) : Host.Outcome State Fault Refusal :=
  s.stepDev (if s.toDev.up then s.toDev.bellFlit m else s.toDev)

/-- B_READ_REQUEST (R210). -/
def execBReadRequest (m : BReadMsg) (s : State) : Host.Outcome State Fault Refusal :=
  s.stepDev (if s.toDev.up then s.toDev.remoteRead m else s.toDev)

/-- B_READ_DATA (R354). -/
def execBReadData (m : BDataMsg) (s : State) : Host.Outcome State Fault Refusal := s.stepDev (s.toDev.dataArrived m)

/-- B_WRITE (R210). -/
def execBWrite (m : BWriteMsg) (s : State) : Host.Outcome State Fault Refusal :=
  s.stepDev (if s.toDev.up then s.toDev.remoteWrite m else s.toDev)

/-- B_WRITE_ACKNOWLEDGEMENT (R354). -/
def execBWriteAcknowledgement (tag : BitVec 32) (n : Nat) (s : State) : Host.Outcome State Fault Refusal :=
  s.stepDev (s.toDev.ackArrived tag n)

/-- ERROR_RESPONSE (R210). -/
def execErrorResponse (tag : BitVec 32) (cause : Byte) (s : State) : Host.Outcome State Fault Refusal :=
  s.stepDev ((s.toDev.consumeTag 0x09 tag).errorArrived tag cause.toNat)

/-- REMOTE_REQUEST_TIMEOUT (R354). -/
def execRemoteRequestTimeout (tag : BitVec 32) (s : State) : Host.Outcome State Fault Refusal :=
  s.stepDev (if s.lnk.reqs.any (·.tag == tag) then s.toDev.errorArrived tag 0x08 else s.toDev)

end Sys2Proof.Machine
end

