-- ==== Sys2Proof/Machine/Reset.lean ====
section
/-! DEFINITION. Commands that reset the device or change its pins and rails (R470–R478, R483, R497). -/

namespace Sys2Proof.Machine

/-- A level 5 reset raised while none is held. -/
def Dev.coldNow (d : Dev) (cause : Nat) (rail tj : Nat := 0) : Dev :=
  if d.sec.phase == .off || d.sec.phase == .reset then d else d.levelFive cause rail tj

/-- DBG_RESET (R484): a request needs CONFIRM 0xA5 in the same write, and firmware that runs answers the host. -/
def resetAsked (v : Word) (level : Nat) : Bool := field (le 8 v.toNat) 1 1 == 0xA5 && v.toNat % 8 == level

/-- DBG_RESET_WARM (R476). -/
def execDbgResetWarm (v : Word) (s : State) : Host.Outcome State Fault Refusal :=
  s.stepDev (if s.toDev.fwRuns && resetAsked v 4 then s.toDev.warmByRegister else s.toDev)

/-- DBG_RESET_COLD (R484). -/
def execDbgResetCold (v : Word) (s : State) : Host.Outcome State Fault Refusal :=
  s.stepDev (if s.toDev.fwRuns && resetAsked v 5 then (s.toDev.levelFive 4).resume else s.toDev)

/-- THERMAL_TRIP (R483, R495): a level 5 reset, THERM_N low, and the ROM holds until the device is cool. -/
def execThermalTrip (celsius : Nat) (s : State) : Host.Outcome State Fault Refusal :=
  s.stepDev (if s.sec.phase == .off || s.sec.phase == .reset || s.sec.phase == .thermalHold || celsius < 105 then s.toDev
    else
      let d := (s.toDev.levelFive 6 0 celsius).emit (.thermN true)
      ({ d with dbg := { d.dbg with thermN := true } } : Dev).resume)

/-- THERMAL_HOLD_END (R483, R495). -/
def execThermalHoldEnd (celsius : Nat) (s : State) : Host.Outcome State Fault Refusal :=
  s.stepDev (if s.sec.phase == .thermalHold && decide (celsius ≤ 85) then
    let d := s.toDev.emit (.thermN false)
    ({ d with dbg := { d.dbg with thermN := false } } : Dev).selfChecked else s.toDev)

/-- RAIL_FAULT (R470). -/
def execRailFault (rail : Fin 20) (s : State) : Host.Outcome State Fault Refusal :=
  s.stepDev (if s.sec.phase == .off || s.sec.phase == .reset then s.toDev
    else
      let d := s.toDev.levelFive 5 rail.val
      { d with dbg := { d.dbg with railHold := true } })

/-- RAIL_RECOVERY (R470). -/
def execRailRecovery (s : State) : Host.Outcome State Fault Refusal :=
  s.stepDev (if s.dbg.railHold then
    ({ s.toDev with dbg := { s.dbg with railHold := false } } : Dev).resume else s.toDev)

/-- POWER_REMOVED (R471): the device holds no state; only its fuses remain. -/
def execPowerRemoved (s : State) : Host.Outcome State Fault Refusal :=
  s.stepDev {
    sec := { phase := .off, fuses := s.sec.fuses, boots := s.sec.boots }
    dbg := { power := false }, out := s.out, fresh := s.fresh, ns := s.ns }

/-- POWER_UP (R468, R472): the rails are good and PERST_N is still low. -/
def execPowerUp (s : State) : Host.Outcome State Fault Refusal :=
  s.stepDev (if s.sec.phase != .off then s.toDev
    else {
      sec := { phase := .reset, fuses := s.sec.fuses, boots := s.sec.boots }
      out := s.out, fresh := s.fresh, ns := s.ns })

/-- PERST_N_ASSERT (R472). -/
def execPerstNAssert (s : State) : Host.Outcome State Fault Refusal :=
  s.stepDev (if s.sec.phase == .off || s.dbg.perst then s.toDev
    else
      let d := s.toDev.coldNow 1
      { d with dbg := { d.dbg with perst := true } })

/-- PERST_N_RELEASE (R478, R491): the straps are sampled and the ROM starts. -/
def execPerstNRelease (board slot : BitVec 3) (boot : BootPins) (s : State) : Host.Outcome State Fault Refusal :=
  s.stepDev (if s.sec.phase == .off || !s.dbg.perst then s.toDev
    else ({ s.toDev with
      dbg := { s.dbg with perst := false, board := board, slot := slot, test := boot.test }
      sec := { s.sec with bist := boot.found.filter s.mem.knows } } : Dev).resume)

/-- Configuration space answers: PCI Express is up, firmware or not, and nothing holds the device in a reset or in the ROM
(R447, R483, R492). -/
def Dev.configAnswers (d : Dev) : Bool :=
  match d.sec.phase with
  | .off | .reset | .thermalHold | .testHold => false
  | .apiaryUp | .fetching | .backoff | .started | .ready => true

/-- FUNCTION_LEVEL_RESET (R475), which configuration space takes (R447). -/
def execFunctionLevelReset (s : State) : Host.Outcome State Fault Refusal :=
  s.stepDev (if s.toDev.configAnswers then s.toDev.levelThree else s.toDev)

/-- WARM_RESET (R443, R473): the level 4 reset that follows the watchdog of the security core. -/
def execWarmReset (s : State) : Host.Outcome State Fault Refusal :=
  s.stepDev (if s.sec.restarting.contains .security then s.toDev.levelFour 3 else s.toDev)

/-- WATCHDOG_EXPIRY (R443). -/
def execWatchdogExpiry (core : CoreId) (s : State) : Host.Outcome State Fault Refusal :=
  s.stepDev (s.toDev.watchdog core)

/-- IDCODE (R496). -/
def idcode : BitVec 32 := Config.stepping ++ 0xD4C4#16 ++ Config.jep106 ++ 1#1

/-- What the TAP shifts out of the device identification register, when its instruction is current (R496). -/
def Pins.tapId (x : Pins) : Option (BitVec 32) := if x.ir == .idcode then some idcode else none

/-- JTAG_PIN_TAKEOVER (R497): whichever of the five instructions it is, it takes the pins. -/
def execJtagPinTakeover (i : JtagInsn) (s : State) : Host.Outcome State Fault Refusal :=
  s.stepDev (if s.sec.phase == .off then s.toDev
    else
      let d := s.toDev.coldNow 7
      { d with dbg := { d.dbg with jtagHold := true, ir := .takes i } })

/-- TAP_RESET (R496, R497): IDCODE becomes the current instruction. -/
def execTapReset (s : State) : Host.Outcome State Fault Refusal :=
  let d : Dev := { s.toDev with dbg := { s.dbg with jtagHold := false, ir := .idcode } }
  s.stepDev (if s.dbg.jtagHold then d.resume else if s.sec.phase == .off then s.toDev else d)

/-- ATB_INSTRUMENT_WRITE (R498, R499): a reserved node code leaves its field; the old switch opens first. -/
def execAtbInstrumentWrite (node0 : BitVec 9) (en0 : Bool) (node1 : BitVec 9) (en1 : Bool) (s : State) :
    Host.Outcome State Fault Refusal :=
  let ok (n : BitVec 9) : Bool := decide (n.toNat < 0x126)
  s.stepDev (if s.sec.phase == .off then s.toDev
    else { s.toDev with dbg := { s.dbg with
      node0 := if ok node0 then node0 else s.dbg.node0, en0 := en0
      node1 := if ok node1 then node1 else s.dbg.node1, en1 := en1 } })

end Sys2Proof.Machine
end

