-- ==== Sys2Proof/Machine/HostOps.lean ====
section
/-! DEFINITION. The host's accesses: mailbox, heartbeat, invalidations, scans, registers and BAR2 (R3, R4, R207,
R209, R223, R273–R275, R299–R301, R415, R417, R437, R457, R461, R505). -/

namespace Sys2Proof.Machine

/-! ### Mailbox (R300, R457) -/

def fwFeat : BitVec 256 := 0xFF
def fwReq : BitVec 256 := 1

/-- Lowest set bit of a word. -/
def lowestBit (w : BitVec 256) : Nat := ((List.range 256).find? fun i => w.getLsbD i).getD 0

def Hif.request (h : Hif) : List Byte := bytesOf (fun i => (h.mbxReq.get? i).getD 0) 128

/-- What BAD_REQUEST refuses. -/
def badAttach (b : List Byte) : Bool :=
  let l0 := field b 0x78 1
  let l1 := field b 0x79 1
  let bad (a size al : Nat) : Bool := a % al != 0 || !inDramOrComb a size
  l0 < 6 || l0 > 20 || l1 < 6 || l1 > 20
    || bad (field b 0x08 8) (64 * 2 ^ l0) (64 * 2 ^ l0) || bad (field b 0x60 8) (64 * 2 ^ l1) (64 * 2 ^ l1)
    || bad (field b 0x50 8) 8 8 || bad (field b 0x58 8) 8 8 || bad (field b 0x68 8) 8 8 || bad (field b 0x70 8) 0x1000 0x1000

/-- The refusal of an ATTACH, with its DETAIL. -/
def Hif.refusal (h : Hif) (b : List Byte) : Option (Nat × Nat) :=
  let drvFeat := BitVec.ofNat 256 (field b 0x10 32)
  let drvReq := BitVec.ofNat 256 (field b 0x30 32)
  let lacks := drvReq &&& ~~~fwFeat
  let drvLacks := fwReq &&& ~~~drvFeat
  if h.attached then some (3, 0)
  else if lacks != 0 then some (1, lowestBit lacks)
  else if drvLacks != 0 then some (2, lowestBit drvLacks)
  else if badAttach b then some (4, 0)
  else none

def Dev.orphans (d : Dev) : Nat := countOf (·.2.orphaned) d.mkt.ctxs

/-- The firmware answers: HIF_MBX_RSP, SEQ, BUSY clear, MBX raised. -/
def Dev.answerMailbox (d : Dev) (seq : BitVec 16) (status reason detail : Nat) : Dev :=
  let bs := le 2 status ++ le 2 reason ++ le 4 detail ++ le 4 Config.fwVer.toNat ++ le 4 d.orphans ++ le 32 fwFeat.toNat
    ++ le 32 fwReq.toNat ++ le 32 d.hif.agreed.toNat ++ zeros 16
  let rsp := (List.zip (List.range 128) bs).filter fun c => c.2 != 0
  ({ d with hif := { d.hif with mbxRsp := rsp, mbxSeq := seq, mbxBusy := false, mbxHeld := none } } : Dev).irq 0

/-- A driver attaches: what was agreed, the attach fault area, queue 0 and completion ring 0. Entries of an earlier
driver's queue 0 are no longer answered. -/
def Dev.attachDriver (d : Dev) (b : List Byte) : Dev :=
  let addr (o : Nat) : Word := BitVec.ofNat 64 (field b o 8)
  let d : Dev := { d with
    mkt := { d.mkt with ctxs := d.mkt.ctxs.map fun c => (c.1, { c.2 with disc := { c.2.disc with entry := none } }) }
    hif := { d.hif with
      attached := true, misses := 0, beat := false, agreed := BitVec.ofNat 256 (field b 0x10 32) &&& fwFeat
      faultArea := BitVec.ofNat 48 (field b 0x70 8)
      queues := d.hif.queues.map fun q => (q.1, { q.2 with disc := { q.2.disc with entry := none } })
      waiting := d.hif.waiting.filter fun w => w.ctx != 0xFFFF } }
  let d := d.setQueue 0 {
    state := .idle, admin := true, ctx := 0xFFFF, log2 := field b 0x78 1, ring := addr 0x08, headA := addr 0x50
    tailA := addr 0x58, hangMs := 10000 }
  d.setCring 0 {
    active := true, ctx := 0xFFFF, log2 := field b 0x79 1, vector := BitVec.ofNat 16 (field b 0x7A 2), ring := addr 0x60
    headA := addr 0x68 }

/-- The firmware serves the request that is held, once it runs and the scheduler core is up. -/
def Dev.serveMailbox (d : Dev) : Dev :=
  match d.hif.mbxHeld with
  | none => d
  | some (op, seq) =>
    if !(d.hif.fwReady && d.schedUp) then d
    else if op == 1 then
      let b := d.hif.request
      match d.hif.refusal b with
      | some (r, x) => d.answerMailbox seq 1 r x
      | none => (d.attachDriver b).answerMailbox seq 0 0 0
    else if d.mkt.ctxs.any (·.2.state != .free) then d.answerMailbox seq 1 5 0
    else ({ d with hif := { d.hif with attached := false } } : Dev).answerMailbox seq 0 0 0

/-- A write of HIF_MBX_CMD with a known OP: the request is held for the firmware; one while BUSY is ignored (R299). -/
def Dev.holdMailbox (d : Dev) (op : Byte) (seq : BitVec 16) : Dev :=
  if d.hif.mbxBusy then { d with hif := { d.hif with mbxOverrun := true } }
  else { d with hif := { d.hif with mbxBusy := true, mbxHeld := some (op, seq) } }

/-- The mailbox command: the request that a register write left held, or one written now, is served. -/
def Dev.mailbox (d : Dev) (op : Byte) (seq : BitVec 16) : Dev :=
  if !d.fwRuns then d
  else if d.hif.mbxHeld == some (op, seq) then d.serveMailbox
  else if d.hif.mbxBusy then d.holdMailbox op seq
  else (d.holdMailbox op seq).serveMailbox

/-! ### Heartbeat and driver loss (R299, R301) -/

def Dev.heartbeat (d : Dev) (v : Word) : Dev :=
  if d.fwRuns then { d with hif := { d.hif with heartbeat := v, beat := true, misses := 0 } } else d

/-- The driver is lost: its contexts are destroyed, or orphaned when ADOPT was agreed. -/
def Dev.driverLost (d : Dev) : Dev :=
  let d : Dev := { d with hif := { d.hif with attached := false, misses := 0 } }
  if d.hif.agreed.getLsbD 3 then
    { d with mkt := { d.mkt with ctxs := d.mkt.ctxs.map fun c =>
        if c.2.state == .free || c.2.state == .destroying then c
        else (c.1, { c.2 with orphaned := true, orphanStop := c.2.orphanStop || d.hif.orphanLimit == 0 }) } }
  else
    let cs := (d.mkt.ctxs.filter fun c => c.2.state != .free && c.2.state != .destroying && !c.2.destroyWait).map (·.1)
    cs.foldl (fun d c => d.destroyCtx (BitVec.ofNat 12 c) none) d

def Dev.sampleHeartbeat (d : Dev) : Dev :=
  if !(d.fwRuns && d.hif.attached && d.schedUp) then d
  else if d.hif.beat then { d with hif := { d.hif with beat := false, misses := 0 } }
  else if 2 ≤ d.hif.misses then d.driverLost
  else { d with hif := { d.hif with misses := d.hif.misses + 1 } }

/-- A context has been orphaned for HIF_ORPHAN_LIMIT seconds: it stops at its next commit point. -/
def Dev.orphanLimit (d : Dev) (c : BitVec 12) : Dev :=
  if d.fwRuns && (d.ctx c).orphaned && d.hif.orphanLimit != 0xFFFFFFFF then
    d.updCtx c fun x => { x with orphanStop := true }
  else d

/-! ### Invalidations (R207, R209) -/

def Dev.invalidate (d : Dev) (t : Tlbi) : Dev := if d.fwRuns then d.tlbi t else d

/-! ### Scans (R415, R417) -/

/-- Bytes of DRAM or of the comb stores from an address on. A scan reaches no local store, which only BAR2 does, and stops there
as at a hole (R191, R195). -/
def memoryRun (pa : Nat) : Nat :=
  if pa < dramEnd then dramEnd - pa
  else if combBase ≤ pa ∧ pa < combEnd then combEnd - pa
  else 0

def Dev.setDram (d : Dev) (key : Nat) (c : UChan) : Dev :=
  { d with tly := { d.tly with dram := d.tly.dram.putD {} key c } }

/-- A scan starts on the selected DRAM controller channel. -/
def Dev.startScan (d : Dev) (v : Word) : Dev :=
  let t := d.tly
  if !d.fwRuns || !v.getLsbD 0 || t.kind != 1 || t.chan.scan.isSome then d
  else
    let c := t.chan
    let s : Scan := { pa := c.base.toNat / 64 * 64, len := c.len.toNat / 64 * 64 }
    d.setDram t.key { c with scan := some s, err := false, kibDone := 0 }

/-- The scan of a channel ends: its range, up to the first hole, has been fed. -/
def Dev.finishScan (d : Dev) (die ch : Nat) : Dev :=
  let key := die * 64 + ch
  let c := (d.tly.dram.get? key).getD {}
  match c.scan with
  | none => d
  | some s =>
    let n := min s.len (memoryRun s.pa)
    let fed := c.c.feed (d.read s.pa n) (d.mem.readPoison s.pa n)
    d.setDram key { c with
      c := fed, scan := none, err := c.err || decide (n < s.len), kibDone := BitVec.ofNat 32 (min (2 ^ 32 - 1) (n / 1024)) }

/-! ### Completions to the host (R274) -/

/-- A completion to the host. -/
def Dev.answerHost (d : Dev) (bs : List Byte) (p : Bool := false) : Dev :=
  ({ d with hostRead := some bs } : Dev).emit (.completion bs p)

def Dev.aerLog (d : Dev) : Dev := { d with hif := { d.hif with aer := d.hif.aer + 1 } }

/-- Completer Abort, logged under Advanced Error Reporting. -/
def Dev.abortHost (d : Dev) : Dev := d.aerLog.emit .completerAbort

/-! ### Register writes (R3, R4, R505) -/

/-- Write a byte table with a default, byte by byte. -/
def putBytes (m : SMap Byte) (dflt : Nat → Byte) (i : Nat) : List Byte → SMap Byte
  | [] => m
  | b :: bs => putBytes (SMap.putD (dflt i) m i b) dflt (i + 1) bs

/-- A write of the MSI-X table; a vector unmasked while its pending bit is set is sent (R297). -/
def Dev.writeMsix (d : Dev) (i : Nat) (bs : List Byte) : Dev :=
  let d := { d with hif := { d.hif with
    msixTable := putBytes d.hif.msixTable (fun k => if k % 16 = 12 then 1 else 0) i bs } }
  let v := i / 16
  if (d.hif.msixPending.get? v).getD false && !(d.hif.msixByte (16 * v + 12)).getLsbD 0 then
    ({ d with hif := { d.hif with msixPending := d.hif.msixPending.del v } } : Dev).emit (.msix v)
  else d

def Dev.writeHif (d : Dev) (o : Nat) (v : Word) : Dev :=
  let h := d.hif
  match o with
  | 0x010 => { d with hif := { h with bar2Map := v.setWidth 48 } }
  | 0x018 => d.heartbeat v
  | 0x020 => { d with hif := { h with orphanLimit := v.setWidth 32 } }
  | 0x028 => { d with hif := { h with irqCause := h.irqCause &&& ~~~(v.setWidth 4) } }
  | 0x040 =>
    let op : Byte := v.setWidth 8
    if op == 1 || op == 2 then d.holdMailbox op (v.extractLsb' 8 16) else d
  | 0x048 => { d with hif := { h with mbxOverrun := h.mbxOverrun && !v.getLsbD 1 } }
  | _ => d

/-- FRM_CTRL, which the control core of the frame's cluster alone writes (R145). -/
def Dev.writeFrmCtrl (d : Dev) (f : FrameId) (v : Word) : Dev :=
  let d := if v.getLsbD 0 then d.setPreempt f else d
  d.updFrame f fun fr => { fr with step := v.getLsbD 1, stepWait := false }

def Dev.writeFrame (d : Dev) (f : FrameId) (o : Nat) (v : Word) : Dev :=
  match o with
  | 0x100 => d.updFrame f fun fr => { fr with fmtFlags := fr.fmtFlags &&& ~~~(v.setWidth 10) }
  | _ => d

/-- MEM_TLBI: its scopes (R207, R209). -/
def Dev.writeTlbi (d : Dev) (v : Word) : Dev :=
  let c : BitVec 12 := v.setWidth 12
  let va := bits v.toNat 51 16 * 2 ^ 16
  match bits v.toNat 13 12 with
  | 0 => d.invalidate (.va c va)
  | 1 => d.invalidate (.ctx c)
  | 2 => d.invalidate .all
  | _ => d

def Dev.writeMem (d : Dev) (o : Nat) (v : Word) : Dev :=
  let m := d.mem
  match o with
  | 0x1000 => d.writeTlbi v
  | 0x1100 =>
    let hours := bits v.toNat 7 0
    let mins := bits v.toNat 13 8
    { d with mem := { m with
      dramHours := if 1 ≤ hours ∧ hours ≤ 168 then BitVec.ofNat 8 hours else m.dramHours
      sramMin := if 1 ≤ mins ∧ mins ≤ 60 then BitVec.ofNat 6 mins else m.sramMin
      scrubOn := v.getLsbD 14 } }
  | _ => d

def Dev.writeMkt (d : Dev) (o : Nat) (v : Word) : Dev :=
  let m := d.mkt
  match o with
  | 0x010 => { d with mkt := { m with
      dispatchRefused := m.dispatchRefused && !v.getLsbD 0, bellRefused := m.bellRefused && !v.getLsbD 1
      imageInvalid := m.imageInvalid && !v.getLsbD 2 } }
  | 0x040 => { d with mkt := { m with ctxSel := v.setWidth 12 } }
  | 0x080 => { d with mkt := { m with crdSel := v.setWidth 12 } }
  | 0x0A0 => { d with mkt := { m with stallSel := v.setWidth 9 } }
  | _ => d

def Dev.writeXch (d : Dev) (o : Nat) (v : Word) : Dev :=
  let x := d.xch
  match o with
  | 0x008 => { d with xch := { x with
      unknownJob := x.unknownJob && !v.getLsbD 0, cfgMismatch := x.cfgMismatch && !v.getLsbD 1
      resultMismatch := x.resultMismatch && !v.getLsbD 2, resendFail := x.resendFail && !v.getLsbD 3 } }
  | 0x040 => { d with xch := { x with bktSel := v.setWidth 12 } }
  | _ => d

def Dev.writeLnk (d : Dev) (o : Nat) (v : Word) : Dev :=
  match o with
  | 0x008 =>
    let c : Byte := v.setWidth 8
    let b : Byte := v.extractLsb' 8 8
    { d with lnk := { d.lnk with
      cWeight := if c == 0 then d.lnk.cWeight else c, bWeight := if b == 0 then d.lnk.bWeight else b } }
  | _ => d

/-- A channel under CRC-32C keeps bits [63:32] zero. -/
def Chan.masked (c : Chan) : Chan := if c.crc32 then { c with v := c.v &&& 0xFFFFFFFF } else c

def Dev.writeTly (d : Dev) (o : Nat) (v : Word) : Dev :=
  let t := d.tly
  let c := t.chan
  match o with
  | 0x000 =>
    let k : BitVec 2 := v.extractLsb' 6 2
    { d with tly := { t with ch := v.setWidth 6, kind := if k.toNat ≤ 1 then k else t.kind, unit := v.extractLsb' 8 6 } }
  | 0x008 => if t.kind = 0 ∨ c.scan.isSome = true then d else d.setDram t.key { c with c := ({ c.c with v := v } : Chan).masked }
  | 0x010 =>
    if t.kind = 0 then d
    else d.setDram t.key { c with c := ({ c.c with crc32 := v.getLsbD 0, poison := c.c.poison && !v.getLsbD 1 } : Chan).masked }
  | 0x018 => if t.kind = 0 then d else d.setDram t.key { c with base := v.setWidth 48 }
  | 0x020 => if t.kind = 0 then d else d.setDram t.key { c with len := v.setWidth 39 }
  | 0x028 => d.startScan v
  | 0x030 => if t.kind = 0 then d else d.setDram t.key { c with err := c.err && !v.getLsbD 0 }
  | _ => d

/-- GRD_ registers (R437). RATE_LOG2 and WAIT_MS keep their value on a reserved encoding (R4); WAIT_MS does so above 10,000
too (DESIGN CHOICE, assumption 123). -/
def Dev.writeGrd (d : Dev) (o : Nat) (v : Word) : Dev :=
  let g := d.grd
  match o with
  | 0x000 =>
    let r := bits v.toNat 7 4
    let w := bits v.toNat 29 16
    { d with grd := { g with
      enable := v.getLsbD 0, rateLog2 := if 3 ≤ r ∧ r ≤ 12 then BitVec.ofNat 4 r else g.rateLog2
      waitMs := if 1 ≤ w ∧ w ≤ 10000 then BitVec.ofNat 14 w else g.waitMs } }
  | 0x040 => if bits v.toNat 8 0 < 384 then { d with grd := { g with fsel := v.setWidth 9 } } else d
  | 0x048 => if h : g.fsel.toNat < 384 then d.setSusp ⟨g.fsel.toNat, h⟩ (v.toNat % 4) else d
  | 0x050 => { d with grd := { g with csel := v.setWidth 12 } }
  | _ => d

def Dev.writeSec (d : Dev) (o : Nat) (v : Word) : Dev :=
  let x := d.sec
  if o = 0x028 then { d with sec := { x with logLevel := v.setWidth 2 } }
  else if !d.hif.agreed.getLsbD 7 then d
  else if 0x040 ≤ o ∧ o < 0x0C0 then
    { d with sec := { x with traceMask := x.traceMask.setIfInBounds ((o - 0x040) / 8) v } }
  else if o = 0x030 then
    let l := bits v.toNat 52 48
    { d with sec := { x with
      traceBase := v.setWidth 48, traceLog2 := if 16 ≤ l ∧ l ≤ 24 then BitVec.ofNat 5 l else x.traceLog2 } }
  else d

/-- DBG_RESET and DBG_ATB (R484, R499). -/
def Dev.writeDbg (d : Dev) (o : Nat) (v : Word) : Dev :=
  let x := d.dbg
  match o with
  | 0x000 =>
    if resetAsked v 4 then d.warmByRegister
    else if resetAsked v 5 then (d.levelFive 4).resume
    else d
  | 0x010 =>
    let n0 : BitVec 9 := v.setWidth 9
    let n1 : BitVec 9 := v.extractLsb' 16 9
    { d with dbg := { x with
      node0 := if n0.toNat < 0x126 then n0 else x.node0, en0 := v.getLsbD 9
      node1 := if n1.toNat < 0x126 then n1 else x.node1, en1 := v.getLsbD 25 } }
  | _ => d

/-- A whole register written by software. -/
def Dev.writeReg (d : Dev) (a : Nat) (v : Word) : Dev :=
  let at_ (base size : Nat) : Bool := decide (base ≤ a) && decide (a < base + size)
  if at_ 0x0F0000000000 0x10000 then d.writeHif (a - 0x0F0000000000) v
  else if a = 0x0F0001000040 then
    if bits v.toNat 8 0 < 384 then { d with insvc := { d.insvc with causeSel := v.setWidth 9 } } else d
  else if at_ 0x0F0001100000 0x1800000 then
    if h : (a - 0x0F0001100000) / 0x10000 < 384 then
      d.writeFrame ⟨(a - 0x0F0001100000) / 0x10000, h⟩ ((a - 0x0F0001100000) % 0x10000) v else d
  else if at_ 0x0F0004000000 0x400000 then d.writeMem (a - 0x0F0004000000) v
  else if at_ 0x0F0005000000 0x400000 then d.writeMkt (a - 0x0F0005000000) v
  else if at_ 0x0F0007000000 0x400000 then d.writeXch (a - 0x0F0007000000) v
  else if at_ 0x0F0007400000 0x400000 then d.writeLnk (a - 0x0F0007400000) v
  else if at_ 0x0F0007C00000 0x80000 then d.writeTly (a - 0x0F0007C00000) v
  else if at_ 0x0F0007C80000 0x80000 then d.writeGrd (a - 0x0F0007C80000) v
  else if at_ 0x0F0007E00000 0x100000 then d.writeSec (a - 0x0F0007E00000) v
  else if at_ 0x0F0007F00000 0x100000 then d.writeDbg (a - 0x0F0007F00000) v
  else d

/-- A MEM_REGION entry changes: the region's contents become undefined (R199). -/
def Dev.moveRegion (d : Dev) (n : Nat) (r : Region) : Dev :=
  if d.mem.region.toList[n]? == some r then d
  else
    let m := d.mem.clearRange (n * 2 ^ 30) ((n + 1) * 2 ^ 30)
    { d with
      mem := { m with region := m.region.setIfInBounds n r, lost := SMap.put m.lost n d.fresh }
      fresh := d.fresh + 1 }

/-- The frame whose FRM_CTRL is at an address. -/
def frmCtrlAt (a : Nat) : Option FrameId :=
  if h : 0x0F0001100000 ≤ a ∧ (a - 0x0F0001100000) / 0x10000 < 384 ∧ (a - 0x0F0001100000) % 0x10000 = 0x040 then
    some ⟨(a - 0x0F0001100000) / 0x10000, h.2.1⟩
  else none

/-- What the scheduler core writes through its own path: regions, remote windows and credit channels (R199, R211,
R256, R271). -/
def Dev.coreWrite (d : Dev) (a : Nat) (v : Word) : Dev :=
  let o := a - 0x0F0004000000
  if 0x0F0004000000 ≤ a ∧ o < 0xC00 then
    d.moveRegion (o / 8) { pinned := v.getLsbD 0, cd := v.extractLsb' 1 4, slot := v.extractLsb' 8 9 }
  else if 0x0F0004000000 ≤ a ∧ 0x1800 ≤ o ∧ o < 0x1A00 then
    let i := (o - 0x1800) / 16
    let w := (d.mem.rwin.toList[i]?).getD {}
    let w : RWin := if o % 16 = 0 then { w with base := v.extractLsb' 12 36, job := v.extractLsb' 48 16 }
      else { w with pages := v.setWidth 28, r := v.getLsbD 28, w := v.getLsbD 29, bell := v.getLsbD 30, v := v.getLsbD 31 }
    { d with mem := { d.mem with rwin := d.mem.rwin.setIfInBounds i w } }
  else if a = 0x0F0005000088 then
    let ch := d.mkt.crdSel.toNat
    (d.setCredit ch { d.credit ch with sem := v.setWidth 17, v := v.getLsbD 17 }).serveChannel ch
  else d

/-- An access that R505 permits: its size and place. -/
def goodAccess (a n : Nat) : Bool := (n == 1 || n == 2 || n == 4 || n == 8) && a % n == 0

/-- REGISTER_WRITE: by the host, or by a core through its own path. -/
def Dev.registerWrite (d : Dev) (core : Bool) (a n : Nat) (v : Word) : Dev :=
  if !d.fwRuns then d
  else if core then
    if n ≠ 8 ∨ a % 8 ≠ 0 then d
    else match frmCtrlAt a with
      | some f => d.writeFrmCtrl f v
      | none => if d.schedUp then d.coreWrite a v else d
  else if !goodAccess a n || (d.readReg (a / 8 * 8)).isNone then d.aerLog
  else
    let o := a - 0x0F0000000000
    if 0x0F0000000100 ≤ a ∧ a < 0x0F0000000180 then
      if 4 ≤ n then { d with hif := { d.hif with mbxReq := putBytes d.hif.mbxReq (fun _ => 0) (o - 0x100) (le n v.toNat) } }
      else d.aerLog
    else if 0x0F0000010000 ≤ a ∧ a < 0x0F0000018000 then
      if 4 ≤ n then d.writeMsix (o - 0x10000) (le n v.toNat) else d.aerLog
    else if n = 8 then d.writeReg a v
    else d.aerLog

/-! ### Register reads (R3, R505) -/

/-- A counter is cleared by a read of bytes [lo, hi) when the read covers its bytes [b, e). -/
def Covers (lo hi b e : Nat) : Bool := decide (lo ≤ b) && decide (e ≤ hi)

/-- The RC fields of a register after a read of its bytes [lo, hi). -/
def Dev.clearRead (d : Dev) (a lo hi : Nat) : Dev :=
  let c := Covers lo hi
  let o := a - 0x0F0004000000
  if 0x0F0004000000 ≤ a ∧ 0x1200 ≤ o ∧ o < 0x1400 then
    d.updMErr false ((o - 0x1200) / 8) fun e => { e with
      inner := if c 0 2 then 0 else e.inner, outer := if c 2 4 then 0 else e.outer, ue := if c 4 6 then 0 else e.ue }
  else if 0x0F0004000000 ≤ a ∧ 0x1400 ≤ o ∧ o < 0x1600 then
    d.updMErr true ((o - 0x1400) / 8) fun e => { e with
      inner := if c 0 2 then 0 else e.inner, ue := if c 2 4 then 0 else e.ue }
  else if h : 0x0F0007401000 ≤ a ∧ a < 0x0F0007401800 then
    let p : Port := ⟨(a - 0x0F0007401000) / 0x40, by omega⟩
    match (a - 0x0F0007401000) % 0x40 with
    | 0x10 => d.updPort p fun x => { x with
        crcErr := if c 0 2 then 0 else x.crcErr, replays := if c 2 4 then 0 else x.replays
        fecUncorr := if c 4 6 then 0 else x.fecUncorr, laneDrops := if c 6 8 then 0 else x.laneDrops }
    | 0x18 => d.updPort p fun x => { x with
        malformed := if c 0 1 then 0 else x.malformed, unsupported := if c 1 2 then 0 else x.unsupported
        creditOvr := if c 2 3 then 0 else x.creditOvr, violRetrains := if c 3 4 then 0 else x.violRetrains }
    | _ => d
  else match a with
    | 0x0F0005000010 => if c 2 4 then { d with mkt := { d.mkt with refusals := 0 } } else d
    | 0x0F0007000008 => if c 2 4 then { d with xch := { d.xch with unknownCount := 0 } } else d
    | 0x0F0007800008 => if c 2 4 then { d with wag := { d.wag with earlyRel := 0 } } else d
    | 0x0F0007800020 => if c 2 4 then { d with wag := { d.wag with heldCnt := 0 } } else d
    | 0x0F0007C80010 => { d with grd := { d.grd with
        poisonSkip := if c 0 4 then 0 else d.grd.poisonSkip, unverified := if c 4 8 then 0 else d.grd.unverified } }
    | 0x0F0007C80090 => { d with grd := { d.grd with
        lost := if c 0 4 then 0 else d.grd.lost, suppressed := if c 4 8 then 0 else d.grd.suppressed } }
    | 0x0F0007E00038 => if c 4 8 then { d with sec := { d.sec with traceDropped := 0 } } else d
    | 0x0F0007E000C0 => if c 0 2 then { d with sec := { d.sec with wdog := 0 } } else d
    | 0x0F0007E000C8 => if c 0 4 then { d with sec := { d.sec with apyDropped := 0 } } else d
    | _ => d

/-- A register of a doorbell page, by BAR0 offset (R283): QUE_DBSTAT; QUE_DB and every other offset read zero. -/
def Dev.doorbellReg (d : Dev) (off : Nat) : Word :=
  let r := d.queue ((off - 0x4000000) / 0x1000)
  if off % 0x1000 = 0x008 then BitVec.ofNat 64 (r.state.code + 8 * b2n r.rung + 2 ^ 32 * (r.head % 2 ^ 32)) else 0

/-- Doorbell pages have no MMIO address: the command names one by 2^48 plus its BAR0 offset. -/
def doorbellBase : Nat := 2 ^ 48

/-- A read of a register: the bytes it covers, and the RC fields it covers whole are cleared. -/
def Dev.readClear (d : Dev) (a n : Nat) : Dev :=
  if !d.fwRuns then d
  else if !goodAccess a n then d.abortHost
  else if doorbellBase + 0x4000000 ≤ a ∧ a < doorbellBase + 0x8000000 then
    d.answerHost (slice (le 8 (d.doorbellReg ((a - doorbellBase) / 8 * 8)).toNat) (a % 8) n)
  else match d.readReg (a / 8 * 8) with
    | none => d.abortHost
    | some v =>
      (d.clearRead (a / 8 * 8) (a % 8) (a % 8 + n)).answerHost (slice (le 8 v.toNat) (a % 8) n)

/-! ### BAR2 (R223, R275) -/

/-- The Device Serial Number capability: the low 64 bits of the serial digest (R297). -/
def Dev.serialNumber (d : Dev) : Word := BitVec.ofNat 64 (field d.sec.serial 0 8)

/-- The register space of R3. -/
def isMmio (pa : Nat) : Bool := match regionOf pa with | .mmio => true | _ => false

def Dev.bar2Base (d : Dev) : Nat := d.hif.bar2Map.toNat / 2 ^ d.hif.bar2Log2 * 2 ^ d.hif.bar2Log2

/-- Accesses through BAR2, and its size (R275). A write reads the lines that it covers in part (R220). -/
def Dev.bar2 (d : Dev) (op : Bar2Op) : Dev :=
  if !d.fwRuns then d
  else
    let size := 2 ^ d.hif.bar2Log2
    match op with
    | .read off len errs =>
      let pa := d.bar2Base + off
      if len = 0 ∨ size < off + len then d
      else if isMmio pa then d.readClear pa len
      else if !d.isMem pa len then d.abortHost
      else
        let d := d.demandRead (linesOf pa len) errs
        if d.mem.readPoison pa len then
          (d.answerHost (List.replicate len 0xFF) true).ledger 0x02 0x02 { addr := pa }
        else d.answerHost (d.read pa len)
    | .write off bs p errs =>
      let pa := d.bar2Base + off
      if bs.isEmpty ∨ size < off + bs.length then d
      else if isMmio pa then d.registerWrite false pa bs.length (BitVec.ofNat 64 (unle bs))
      else if !d.isMem pa bs.length then d.aerLog
      else (d.demandRead (partLines pa bs.length) errs).write pa bs p
    | .resize l => if 28 ≤ l ∧ l ≤ 36 then { d with hif := { d.hif with bar2Log2 := l } } else d

/-! ### BAR0 (R273, R274, R283) -/

/-- The MMIO address of a BAR0 offset below the doorbell pages. -/
def bar0Addr (off : Nat) : Nat :=
  let w := off / 0x400000 % 16
  let base := if w = 0 then 0x0F0000000000
    else if w ≤ 7 then 0x0F0001000000 + (w - 1) * 0x400000
    else if w = 8 then 0x0F0004000000
    else if w = 9 then 0x0F0005000000
    else if w = 10 then 0x0F0005800000
    else if w = 11 then 0x0F0006000000
    else 0x0F0007000000 + (w - 12) * 0x400000
  base + off % 0x400000

/-- A write of a register of a doorbell page that is narrower than the register takes: QUE_DB takes 4 or 8 bytes, QUE_DBSTAT 8
(R283, R505). -/
def narrowDb (off n : Nat) : Bool :=
  decide (0x4000000 ≤ off) && ((decide (off % 0x1000 < 8) && decide (n < 4))
    || (decide (off % 0x1000 / 8 = 1) && decide (n < 8)))

/-- A BAR0 access that no register answers, that is not naturally aligned, or that writes too few bytes of a doorbell page's
register. -/
def Dev.badBar0 (d : Dev) (off n : Nat) (write : Bool) : Bool :=
  !goodAccess off n || (decide (off < 0x4000000) && (d.readReg (bar0Addr off / 8 * 8)).isNone) || (write && narrowDb off n)

def Dev.abortAccess (d : Dev) (off n : Nat) (write : Bool) : Dev :=
  if !d.fwRuns || decide (0x8000000 ≤ off) || !d.badBar0 off n write then d
  else if write then d.aerLog
  else d.abortHost

end Sys2Proof.Machine
end

