-- ==== Sys2Proof/Machine/FirmwareOps.lean ====
section
/-! DEFINITION. What the commands of the Apiary port do once they are accepted (R306–R308, R373, R376, R393, R398,
R421, R435, R450–R458, R464, R465). -/

namespace Sys2Proof.Machine

/-- What a command answers: the device, the status of RESULT, its reason. -/
abbrev Ran := Dev × Nat × Nat

def Dev.ran (d : Dev) : Ran := (d, 0, 0)

/-- BAD_BODY; the manual gives it no reason code (DESIGN CHOICE, assumption 8). -/
def Dev.badBody (d : Dev) : Ran := let (d, r) := d.draw; (d, 1, r.toNat % 256)

/-- REFUSED; R454 numbers the reasons of JOB_ADMIT only, any other is free (DESIGN CHOICE, assumption 8). -/
def Dev.refused (d : Dev) (reason : Option Nat := none) : Ran :=
  match reason with
  | some n => (d, 2, n)
  | none => let (d, r) := d.draw; (d, 2, r.toNat % 256)

/-! ### The management key (R452) -/

/-- A key that this device may take: its digest is the fused owner's, or none is fused and the session has none yet. -/
def Dev.mayOwn (d : Dev) (key : List Byte) : Bool :=
  match d.sec.fuses.owner with
  | some dg => decide (shake256 key 32 = dg)
  | none => d.sec.key.isNone

def Dev.runKey (d : Dev) (key : List Byte) : Ran :=
  if d.mayOwn key then ({ d with sec := { d.sec with key := some key } } : Dev).ran else d.refused

/-! ### Links (R366, R373, R376, R378, R393) -/

/-- A port after a new wiring plan: an ACTIVE one goes on, or is quarantined with cause 2 (R454); the peer of a board port out
of ACTIVE gets its detour (R377). -/
def Dev.recheckPort (d : Dev) (p : Port) : Dev :=
  let x := d.port p
  match x.state, d.planEntry p with
  | .active, some e =>
    if e.peerId = x.peerId ∧ e.peerPort = x.peerPort then
      if p.val < 8 then d.setRtb (d.boardIx p) (BitVec.ofNat 64 (1 + p.val * 4)) else d
    else (d.quarantine p 2).ledger 0x06 0x03 (ledPort p x.peerId)
  | .hello, some _ => if x.peerV then d.comparePeer p else d
  | _, _ => if p.val < 8 && p.val != d.ownSlot && d.expected p then d.detour p else d

/-- A port in training that may train no longer goes OFFLINE (R366, R376). -/
def Dev.stopTraining (d : Dev) (p : Port) : Dev :=
  let x := d.port p
  if d.mayTrain p then d
  else if x.state == .detect || x.state == .hello || x.state.inTraining then d.portDown p .offline
  else d.setPort p { x with noPlace := false }

/-- The lowest device ID a plan names, with the device's own (R393). -/
def lowestId (own : BitVec 15) (es : List PlanEntry) : BitVec 15 :=
  (es.filter fun e => e.peerId != 0xFFFF).foldl (fun m e =>
    if e.peerId.toNat < m.toNat then e.peerId.setWidth 15 else m) own

/-- WIRING_PLAN (R366, R376, R393, R454). -/
def Dev.runPlan (d : Dev) (dev : BitVec 16) (gen : BitVec 32) (es : List PlanEntry) : Ran :=
  if es.length ≠ 32 ∨ dev.getLsbD 15 = true then d.badBody
  else
    let ok := dev.toNat / 8 % 8 == d.dbg.board.toNat && dev.toNat % 8 == d.dbg.slot.toNat
    let d := { d with
      lnk := { d.lnk with devId := dev.setWidth 15, devV := ok, plan := some es, planGen := gen }
      wag := { d.wag with slot := dev.setWidth 6 } }
    let d := { d with lnk := { d.lnk with rtr := d.lnk.rtr.putD 0 (dev.toNat / 64) 0 } }
    let d := if ok then d else d.ledger 0x06 0x07 { unit := 0 }
    let d := (List.finRange 32).foldl (fun d p => (d.recheckPort p).stopTraining p) d
    let d := d.setRtb (dev.toNat % 64) 0
    (if d.wag.rootNamed then d.reform else d.setRoot (lowestId d.lnk.devId es) false).fillPlaces.ran

/-- EQ_HINTS: the records go to the ports of the mask, in order. -/
def Dev.runHints (d : Dev) (mask : BitVec 32) (hs : List EqHint) : Ran :=
  let ps := (List.range 32).filter fun i => mask.getLsbD i
  if hs.length > 16 ∨ ps.length ≠ hs.length then d.badBody
  else
    let kept := d.lnk.hints.filter fun h => !ps.contains h.1
    ({ d with lnk := { d.lnk with hints := kept ++ List.zip ps hs } } : Dev).ran

/-- PORT_CTRL action 0: the port trains again (R378). -/
def Dev.runLeave (d : Dev) (p : Port) : Ran :=
  if (d.port p).state == .quarantined && d.mayTrain p then (d.startDetect p).ran else d.refused

/-- PORT_CTRL action 1: QUARANTINED with QCAUSE 4. -/
def Dev.runQuarantine (d : Dev) (p : Port) : Ran :=
  let id := (d.port p).peerId
  let d := if (d.port p).state == .active then d.sendControl p [6, 4] else d
  ((d.quarantine p 4).fillPlaces.ledger 0x06 0x06 { ledPort p id with sub := 4 }).ran

/-- PORT_CTRL action 2: the port trains again from DETECT. -/
def Dev.runRetrain (d : Dev) (p : Port) : Ran :=
  let st := (d.port p).state
  if st == .active then ((d.sendControl p [5, 3]).retrainPort p 3).fillPlaces.ran
  else if !d.mayTrain p || st == .quarantined || st == .notReady then d.refused
  else (d.startDetect p).fillPlaces.ran

/-! ### Repairs, suspicion, frames and power (R22, R25, R225–R227, R421, R464, R465) -/

/-- FW_READY is set, and a held mailbox command is answered, once the frames are tested and the repair list has been applied or
has not come in time (R444 step 5, R457). -/
def Dev.readyIfDone (d : Dev) : Dev :=
  if d.sec.phase == .started && d.sec.tested && (d.sec.repairDone || d.sec.listLate) then
    ({ d with sec := { d.sec with phase := .ready }, hif := { d.hif with fwReady := true } } : Dev).serveMailbox
  else d

/-- REPAIR_LIST: merged with what the ROM found and applied with its last fragment, while no context exists (R227, R444, R454). -/
def Dev.runRepairs (d : Dev) (more : Bool) (es : List RepairEntry) : Ran :=
  if d.mkt.ctxs.any fun c => c.2.state != .free then d.refused
  else if !es.all d.mem.knows then d.badBody
  else
    let all := d.sec.repairFrags ++ es
    if more then ({ d with sec := { d.sec with repairFrags := all } } : Dev).ran
    else (({ d with sec := { d.sec with repairFrags := [], repairDone := true } } : Dev).applyRepairs
      (d.sec.bist ++ all)).readyIfDone.ran

def Dev.runSuspicion (d : Dev) (ls : List (BitVec 2)) : Ran :=
  if ls.length ≠ 384 then d.badBody
  else (allFrames.foldl (fun d f => d.setSusp f ((ls[f.val]?).getD 0).toNat)
    ({ d with sec := { d.sec with suspLoaded := true } } : Dev)).ran

/-- FRAME_EXCLUDE: a frame of a stall leaves at the next reallocation, another one at once (R22, R25). -/
def Dev.runExclude (d : Dev) (mask : BitVec 384) : Ran :=
  let fs := allFrames.filter fun f => mask.getLsbD f.val
  let d := fs.foldl (fun d f => d.updFrame f fun fr => { fr with svc := { fr.svc with excluded := true } }) d
  if d.up then
    let now := fs.filter fun f => (d.frame f).svc.insvc && !(d.frame f).stallV && (d.frame f).free
    (d.leaveService (now.map fun f => (f, if (d.frame f).svc.flagged then 2 else 4))).ran
  else d.ran

/-- POWER_CFG: it waits for the next control interval (R454, R464, R465). -/
def Dev.runPower (d : Dev) (watts celsius : Nat) : Ran :=
  if watts < 600 ∨ 1800 < watts ∨ celsius < 80 ∨ 100 < celsius then d.badBody
  else ({ d with pwr := { d.pwr with next := some (BitVec.ofNat 12 watts, BitVec.ofNat 8 celsius) } } : Dev).ran

/-! ### Jobs (R305–R308, R339, R345, R377) -/

/-- Slots of a mask, lowest first. -/
def slotsOf (m : Byte) : List Nat := (List.range 8).filter fun s => m.getLsbD s

/-- The layout of R306. -/
def JobReq.laidOut (r : JobReq) (own : BitVec 15) : Bool :=
  let ss := slotsOf r.slotmask
  let n := ss.length
  let dev (i : Nat) : Nat := ((r.rankmap[i]?).getD 0).toNat
  decide (0 < n) && (List.range r.nrank.toNat).all (fun i =>
      dev i % 8 == (ss[i % n]?).getD 8 && dev i / 8 == dev (i / n * n) / 8 && dev i < 2 ^ 15)
    && (List.range r.nboard.toNat).all (fun g => (r.ring.filter fun x => x.toNat == g).length == 1)
    && dev r.rank.toNat == own.toNat

/-- POS (R305): the position of this device's board in the ring plan. -/
def JobReq.position (r : JobReq) : Nat :=
  (r.ring.findIdx? fun x => x.toNat == r.rank.toNat / (slotsOf r.slotmask).length).getD 0

/-- Field ranges of R305 and lists of the right length. -/
def JobReq.wellSized (r : JobReq) : Bool :=
  decide (r.policy.toNat ≤ 1) && decide (r.barrier.toNat < 1024) && decide (1 ≤ r.nrank.toNat)
    && decide (r.nrank.toNat ≤ 32768) && decide (r.rank.toNat < r.nrank.toNat) && decide (1 ≤ r.nboard.toNat)
    && (r.defTimeout || (decide (1 ≤ r.timeout.toNat) && decide (r.timeout.toNat ≤ 60000)))
    && decide (6 ≤ r.clog2.toNat) && decide (r.clog2.toNat ≤ 16) && decide (r.ctx.toNat < 4096)
    && decide (r.queue.toNat < 16384) && decide (r.csem.toNat < semCount) && decide (r.stepSem.toNat < semCount)
    && (if r.nboard = 1 then r.nplane == 0 else decide (1 ≤ r.nplane.toNat) && decide (r.nplane.toNat ≤ 24))
    && r.rankmap.length == r.nrank.toNat && r.ring.length == r.nboard.toNat && r.planes.length == r.nplane.toNat
    && r.planes.all (fun q => decide (q.toNat < 24))
    && inDramOrComb r.rankmapA.toNat (2 * r.nrank.toNat) && inDramOrComb r.ringplanA.toNat (2 * r.nboard.toNat + r.nplane.toNat)

/-- POLICY and TIMEOUT_MS with the defaults of R339 filled in. -/
def JobReq.withDefaults (r : JobReq) : JobReq :=
  let pol : Byte := if r.defPolicy then (if r.nrank.toNat ≤ 512 then 0 else 1) else r.policy
  { r with policy := pol, timeout := if r.defTimeout then (if pol = 0 then 50 else 2000) else r.timeout }

def JobReq.mapBytes (r : JobReq) : List Byte := r.rankmap.flatMap fun x => le 2 x.toNat

def JobReq.ringBytes (r : JobReq) : List Byte := (r.ring.flatMap fun x => le 2 x.toNat) ++ r.planes

/-- CFG (R307). -/
def JobReq.cfg (r : JobReq) : BitVec 32 :=
  crc32c (le 1 r.policy.toNat ++ le 2 r.job.toNat ++ le 2 r.nrank.toNat ++ le 2 r.nboard.toNat ++ le 1 r.slotmask.toNat
    ++ le 1 r.nplane.toNat ++ le 4 r.timeout.toNat ++ JobReq.mapBytes r ++ JobReq.ringBytes r)

/-- The first refusal of R308 and R454 that holds, by its number. -/
def Dev.jobRefusal (d : Dev) (r : JobReq) : Option Nat :=
  let ss := slotsOf r.slotmask
  let c := r.ctx.setWidth 12
  let cx := d.ctx c
  let q := d.queue r.queue.toNat
  let checks : List (Nat × Bool) := [
    (1, (List.range 256).all fun j => (d.job j).state != .free),
    (2, (d.jobOfCtx c).isSome),
    (3, !JobReq.laidOut r d.lnk.devId),
    (4, r.nrank.toNat != r.nboard.toNat * ss.length),
    (5, r.policy == 0 && decide (4096 < r.nrank.toNat)),
    (6, r.planes.any fun x => !d.portActive (8 + x.toNat)),
    (7, ss.contains d.ownSlot && ss.any fun s => s != d.ownSlot && !d.portActive s),
    (8, cx.state != .active || cx.job != r.job || q.state == .free || q.ctx != r.ctx)]
  (checks.find? (·.2)).map (·.1)

/-- The descriptor of the job's barrier group takes the commit's mode, the job and its context, when BARRIER_SETUP wrote one that
is idle (R398; DESIGN CHOICE, assumption 149). -/
def Dev.bindBarrier (d : Dev) (r : JobReq) : Dev :=
  let g := d.group r.barrier.toNat
  if g.state == .idle then d.setGroup r.barrier.toNat { g with tagged := true, job := r.job, ctx := r.ctx } else d

/-- JOB_ADMIT: the lowest free record, the tables in memory, STEP_SEM, and JOB_HELLO to the peers (R305–R308, R343). -/
def Dev.runAdmit (d : Dev) (r0 : JobReq) : Ran :=
  if !JobReq.wellSized r0 then d.badBody
  else
    let r := JobReq.withDefaults r0
    match d.jobRefusal r with
    | some n => d.refused (some n)
    | none =>
      match (List.range 256).find? fun j => (d.job j).state == .free with
      | none => d.refused (some 1)
      | some j =>
        let x : Job := {
          state := .open, policy := r.policy == 1, bank := r.bank, step := r.step, job := r.job, ctx := r.ctx
          queue := r.queue, barrier := r.barrier, nrank := r.nrank.toNat, rank := r.rank.toNat
          nboard := r.nboard.toNat, pos := JobReq.position r, slotmask := r.slotmask, nplane := r.nplane.toNat
          timeout := r.timeout.toNat, rankmapA := r.rankmapA, ringplanA := r.ringplanA, cring := r.cring
          chead := r.chead, csem := r.csem, stepSem := r.stepSem, clog2 := r.clog2.toNat, cfg := JobReq.cfg r
          rankmap := r.rankmap, ring := r.ring.map (·.toNat), planes := r.planes.map (·.toNat) }
        let d := (d.write r.rankmapA.toNat (JobReq.mapBytes r)).write r.ringplanA.toNat (JobReq.ringBytes r)
        let d := ((d.setJob j x).storeStepSem j).bindBarrier r
        (d.sendPeers x (x.ctl 0x10 (le 4 x.cfg.toNat) x.step 0)).ran

/-- JOB_KILL: at once, or after the commit barrier in progress (R454). -/
def Dev.runKill (d : Dev) (job : BitVec 16) : Ran :=
  match d.jobById job with
  | none => d.refused
  | some j =>
    match (d.job j).state with
    | .committing => (d.updJob j fun x => { x with killWaits := true }).ran
    | .faulted => d.refused
    | _ => (d.jobFault j 0x06).progressAll.ran

/-! ### Barriers (R398) -/

def BarReq.wellSized (r : BarReq) : Bool :=
  let n := r.nIn.toNat * r.nOut.toNat
  decide (r.mode.toNat ≤ 1) && decide (1 ≤ r.nIn.toNat) && decide (r.nIn.toNat ≤ 64) && decide (1 ≤ r.nOut.toNat)
    && decide (n ≤ 32768) && decide (r.member.toNat < n) && decide (r.ctx.toNat < 4096)
    && (r.relSem == 0xFFFFFFFF || decide (r.relSem.toNat < semCount)) && r.members.length == n
    && inDramOrComb r.membersA.toNat (2 * n)

/-- BARRIER_SETUP: the descriptor and the member list; refused while the group has an arrival in progress. -/
def Dev.runBarrier (d : Dev) (r : BarReq) : Ran :=
  if !BarReq.wellSized r then d.badBody
  else if (d.group r.group.val).state == .arrived then d.refused
  else
    let g : Group := {
      state := .idle, tagged := r.mode == 1, nIn := r.nIn.toNat, nOut := r.nOut.toNat, member := r.member.toNat
      key := r.key, ctx := r.ctx, job := r.job, membersA := r.membersA, relSem := r.relSem, members := r.members
      episode := r.episode }
    ((d.write r.membersA.toNat (r.members.flatMap fun m => le 2 m.toNat)).setGroup r.group.val g).ran

/-! ### Reports (R433–R435, R450, R453, R458) -/

/-- LEDGER_ACK: records up to SEQ are acknowledged, in order. -/
def Dev.runLedgerAck (d : Dev) (seq : BitVec 32) : Ran :=
  let n := min (seq.toNat + 1) d.grd.written.toNat
  if n ≤ d.grd.exported.toNat then d.ran
  else ({ d with
    grd := { d.grd with exported := BitVec.ofNat 32 n }
    sec := { d.sec with reports := d.sec.reports.filter fun r => r.type != 0x30 } } : Dev).ran

/-- LEDGER_EXPORT: up to 9 records from the first that is not acknowledged and not overwritten, in SEQ order, when no
report of them is outstanding. -/
def Dev.ledgerExport (d : Dev) : Dev :=
  let w := d.grd.written.toNat
  let lo := max d.grd.exported.toNat (w - 4096)
  if !d.fwRuns || w ≤ lo || d.sec.reports.any (·.type == 0x30) then d
  else d.report 0x30 ((List.range (min 9 (w - lo))).flatMap fun i =>
    d.read (d.grd.ledgerBase.toNat + 128 * ((lo + i) % 4096)) 128)

/-- LOG_REQ: the entries asked for that the ring still holds (R458). -/
def Dev.runLog (d : Dev) (first : BitVec 32) (n : Nat) : Ran :=
  if 20 < n then d.badBody
  else
    let h := d.sec.logHead.toNat
    let ks := ((List.range n).map (first.toNat + ·)).filter fun k => decide (k < h) && decide (h ≤ k + 16384)
    (d.apiaryTx 0x34 (ks.flatMap fun k => d.read (d.sec.logBase.toNat + 64 * (k % 16384)) 64)).ran

/-- Frames in service. -/
def Dev.frameCount (d : Dev) : Nat := (allFrames.filter fun f => (d.frame f).svc.insvc).length

/-- The body the identity engine signs (R450). -/
def Dev.attestBody (d : Dev) (nonce : List Byte) : List Byte :=
  let x := d.sec
  let own := x.fuses.owner
  le 4 0x41545354 ++ zeros 4 ++ nonce ++ (x.serial ++ zeros 16).take 16 ++ (x.fuses.identityKey ++ zeros 57).take 57
    ++ zeros 7 ++ le 8 x.fwId.toNat ++ (x.imageDigest ++ zeros 64).take 64 ++ le 2 x.svn.toNat ++ le 2 x.fuses.minSvn.toNat
    ++ le 1 x.keyIndex.toNat ++ le 1 (b2n own.isSome) ++ le 2 d.frameCount ++ le 8 d.waggle
    ++ (own.getD [] ++ zeros 32).take 32 ++ zeros 16

/-- ATTEST_REQ: the report and the identity engine's signature (R450); the engine holds a key once the ROM has loaded it. -/
def Dev.runAttest (d : Dev) (nonce : List Byte) : Ran :=
  if nonce.length ≠ 32 then d.badBody
  else
    let b := d.attestBody nonce
    match d.sec.engineKey with
    | none => d.refused
    | some k => (d.report 0x36 (b ++ ed448Sign k b)).ran

end Sys2Proof.Machine
end

