-- ==== Sys2Proof/Machine/Firmware.lean ====
section
/-! DEFINITION. Acceptance of Apiary commands, the boot, the restart of cores, reports and the wall clock
(R443–R458). -/

namespace Sys2Proof.Machine

/-! ### Acceptance (R452, R454) -/

/-- Execute an accepted command. -/
def Dev.runCmd (d : Dev) : ApiaryCmd → Ran
  | .mgmtKey key => d.runKey key
  | .leaveQuarantine p => d.runLeave p
  | .quarantine p => d.runQuarantine p
  | .retrain p => d.runRetrain p
  | .wiringPlan dev gen es => d.runPlan dev gen es
  | .eqHints mask hs => d.runHints mask hs
  | .repairList more es => d.runRepairs more es
  | .suspicion ls => d.runSuspicion ls
  | .waggleRoot root => (d.setRoot root).ran
  | .frameExclude mask => d.runExclude mask
  | .powerCfg w c => d.runPower w c
  | .jobAdmit r => d.runAdmit r
  | .barrierSetup r => d.runBarrier r
  | .jobKill job => d.runKill job
  | .ledgerAck seq => d.runLedgerAck seq
  | .logReq first n => d.runLog first n
  | .attestReq nonce => d.runAttest nonce

/-- The body of a RESULT (R453). -/
def resultBody (seq : Word) (status reason : Nat) : List Byte := le 8 seq.toNat ++ le 1 status ++ le 1 reason

/-- The message type of a command (R453). -/
def ApiaryCmd.type : ApiaryCmd → Nat
  | .mgmtKey _ => 0x11 | .wiringPlan _ _ _ => 0x20 | .eqHints _ _ => 0x21 | .repairList _ _ => 0x22
  | .suspicion _ => 0x23 | .waggleRoot _ => 0x24 | .frameExclude _ => 0x25
  | .leaveQuarantine _ | .quarantine _ | .retrain _ => 0x26
  | .powerCfg _ _ => 0x27 | .jobAdmit _ => 0x28 | .barrierSetup _ => 0x29 | .jobKill _ => 0x2A
  | .ledgerAck _ => 0x31 | .logReq _ _ => 0x33 | .attestReq _ => 0x35

/-- Another fragment of the message follows (R451). -/
def ApiaryCmd.more : ApiaryCmd → Bool
  | .repairList more _ => more
  | _ => false

/-- Run one command, keep its RESULT when it is the last accepted, and send it. -/
def Dev.runAndAnswer (d : Dev) (seq : Word) (i : ApiaryCmd) : Dev :=
  let r := d.runCmd i
  let b := resultBody seq r.2.1 r.2.2
  let d : Dev := if d.sec.lastSeq == some seq then { r.1 with sec := { r.1.sec with lastResult := b } } else r.1
  d.apiaryTx 0x12 b

/-- A command that is not executed is dropped and counted in SEC_APY. -/
def Dev.dropCmd (d : Dev) : Dev := { d with sec := { d.sec with apyDropped := satAdd d.sec.apyDropped } }

/-- The fragments of a message: flags, body and signature. -/
def Auth.parts (au : Auth) : List (BitVec 16 × List Byte × List Byte) :=
  au.before.map (fun x => (au.flags ||| 2, x.1, x.2)) ++ [(au.flags, au.body, au.sig)]

/-- Every fragment has SIGNED set, a body of at most 1,280 bytes, its index first where there are several, and a signature over
header and body that verifies under the key (R451–R453). -/
def Auth.signedBy (au : Auth) (type : Nat) (more : Bool) (key : List Byte) : Bool :=
  au.flags.getLsbD 0 && au.flags.getLsbD 1 == more && (Auth.parts au).zipIdx.all fun x =>
    decide (x.1.2.1.length ≤ 1280) && (au.before.isEmpty || field x.1.2.1 0 2 == x.2)
      && ed448Verify key (apiaryHeader type x.1.2.1.length x.1.1.toNat au.session au.seq ++ x.1.2.1) x.1.2.2

/-- Signed, by the accepted key, in this session. -/
def Dev.authentic (d : Dev) (au : Auth) (i : ApiaryCmd) : Bool :=
  match d.sec.key with
  | none => false
  | some k => au.session == d.sec.session && Auth.signedBy au (ApiaryCmd.type i) (ApiaryCmd.more i) k

/-- A command that is accepted runs, or waits for the scheduler core; a ninth gets BUSY (R443, R454). `next` is the state of
acceptance once it is taken. -/
def Dev.accept (d : Dev) (seq : Word) (i : ApiaryCmd) (next : Firmware) : Dev :=
  if d.schedUp && d.sec.cmdWait.isEmpty then ({ d with sec := next } : Dev).runAndAnswer seq i
  else if 8 ≤ d.sec.cmdWait.length then d.apiaryTx 0x12 (resultBody seq 3 0)
  else { d with sec := { next with cmdWait := d.sec.cmdWait ++ [(seq, i)] } }

/-- The stored RESULT of the last accepted command, again. -/
def Dev.sayAgain (d : Dev) : Dev := if d.sec.lastResult.isEmpty then d else d.apiaryTx 0x12 d.sec.lastResult

/-- A SEQ below the last accepted one. -/
def Firmware.isOld (x : Firmware) (seq : Word) : Bool :=
  match x.lastSeq with
  | some n => decide (seq.toNat < n.toNat)
  | none => false

def Firmware.took (x : Firmware) (seq : Word) : Firmware := { x with lastSeq := some seq, lastResult := [] }

/-- A command comes in over the Apiary port (R452, R454, R443). -/
def Dev.command (d : Dev) (au : Auth) (i : ApiaryCmd) : Dev :=
  if !d.fwRuns then d
  else if !d.authentic au i then d.dropCmd
  else if d.sec.lastSeq == some au.seq then d.sayAgain
  else if d.sec.isOld au.seq then d.dropCmd
  else d.accept au.seq i (d.sec.took au.seq)

/-- MGMT_KEY (R452): signed by the key it carries; the last accepted one again gets its RESULT again. -/
def Dev.offerKey (d : Dev) (au : Auth) (key : List Byte) : Dev :=
  if !d.fwRuns then d
  else if !Auth.signedBy au 0x11 false key then d.dropCmd
  else if d.sec.lastSeq == some au.seq && d.sec.key == some key then d.sayAgain
  else if !d.mayOwn key then d.dropCmd
  else d.accept au.seq (.mgmtKey key) (if d.sec.isOld au.seq then d.sec else d.sec.took au.seq)

/-- HELLO, until a key is accepted (R452, R453). -/
def Dev.sayHello (d : Dev) : Dev :=
  if d.fwRuns && d.sec.key.isNone then
    d.apiaryTx 0x10 (le 8 d.sec.fwId.toNat ++ le 2 d.sec.svn.toNat ++ le 2 (if d.lnk.devV then d.lnk.devId.toNat else 0)
      ++ le 1 (b2n d.lnk.plan.isSome))
  else d

/-! ### Boot and cores (R443, R444) -/

/-- 100 ms after HELLO without a list: the self-test results alone, and a log entry (R444). -/
def Dev.noRepairs (d : Dev) : Dev :=
  if d.fwRuns && !d.sec.repairDone && !d.sec.listLate then
    (({ d with sec := { d.sec with listLate := true } } : Dev).applyRepairs d.sec.bist |>.logEntry 0 1).readyIfDone
  else d

/-- The frame self-test ends (R444). -/
def Dev.bootDone (d : Dev) (rs : List (FrameId × SelfTest)) : Dev :=
  if d.sec.phase == .started && !d.sec.tested then (d.selfTested rs).readyIfDone else d

/-- A restarted core enters its image and resumes: the caps, or what waited for the scheduler core (R443). -/
def Dev.coreBack (d : Dev) (c : CoreId) : Dev :=
  if !(d.fwRuns && d.sec.restarting.contains c) || c == .security then d
  else
    let d := { d with sec := { d.sec with restarting := d.sec.restarting.filter (· != c) } }
    let d := d.enterCore c
    match c with
    | .power => d.withCaps fun p => { p with held4 := false }
    | .scheduler =>
      let cmds := d.sec.cmdWait
      let d := { d with sec := { d.sec with cmdWait := [] } }
      (cmds.foldl (fun d i => d.runAndAnswer i.1 i.2) d).serveMailbox
    | .control cl => d.assignWaiting cl.val
    | .security => d

/-! ### Reports (R453) -/

/-- Every 100 ms: reports without their acknowledgement again. -/
def Dev.resendReports (d : Dev) : Dev :=
  if d.fwRuns then d.sec.reports.foldl (fun d r => d.emit (.apiary (d.datagram none r.type.toNat r.seq r.body))) d else d

/-- A RESULT-type echo of the SEQ of an EQ_REPORT or ATTEST_RSP. -/
def Dev.echoed (d : Dev) (seq : Word) : Dev :=
  { d with sec := { d.sec with reports := d.sec.reports.filter fun r =>
      !(r.seq == seq && (r.type == 0x32 || r.type == 0x36)) } }

/-! ### Wall clock and addresses (R451, R456) -/

/-- A Sync exchange gives an offset of the local clock (ns) and the PTP time; the clock is stepped to it. -/
def Dev.ptpSync (d : Dev) (offset : Int) (t : Nat) : Dev :=
  if !d.fwRuns then d
  else
    let n := if offset.natAbs ≤ 10000 then d.sec.ptpGood + 1 else 0
    { d with sec := { d.sec with
      ptpGood := n, wallOff := (t : Int) - d.ns, wallV := d.sec.wallV || (decide (4 ≤ n) && d.sec.utcValid) } }

/-- The leap second that an Announce message gives for the end of the UTC day: the PTP second from which its offset is in force,
and that offset. One that has passed and is announced still, stays. -/
def Dev.announcedLeap (d : Dev) (off : Int) (u : UtcFlags) : Option (Int × Int) :=
  if u.leap61 == u.leap59 then none
  else
    let now := d.ptpSecond
    let mid := ((now - off) / 86400 + 1) * 86400 + off
    let new : Int × Int := if u.leap61 then (mid, off + 1) else (mid - 1, off - 1)
    match d.sec.leap with
    | some old => if old.2 = new.2 ∧ old.1 ≤ now then some old else some new
    | none => some new

/-- An Announce message: the current UTC offset in seconds, whether it is valid, and a leap second to come. -/
def Dev.ptpAnnounce (d : Dev) (off : Int) (u : UtcFlags) : Dev :=
  if !d.fwRuns then d
  else { d with sec := { d.sec with
    utcOffset := off, utcValid := u.valid, wallV := u.valid && (d.sec.wallV || decide (4 ≤ d.sec.ptpGood))
    leap := d.announcedLeap off u } }

/-- 10 s without a Sync message. -/
def Dev.ptpLost (d : Dev) : Dev := { d with sec := { d.sec with ptpGood := 0, wallV := false } }

/-! ### Meanings -/

/-- BOOT_REQ (R447). -/
def execBootReq (s : State) : Host.Outcome State Fault Refusal := s.stepDev s.toDev.bootRequest

/-- BOOT_OFFER (R453). -/
def execBootOffer (len nchunk : Nat) (server : BitVec 128) (s : State) : Host.Outcome State Fault Refusal :=
  s.stepDev (s.toDev.bootOffered len nchunk server)

/-- CHUNK_DATA (R446). -/
def execChunkData (region : Byte) (piece frag : Nat) (bytes : List Byte) (s : State) : Host.Outcome State Fault Refusal :=
  s.stepDev (s.toDev.chunkData region.toNat piece frag bytes)

/-- BOOT_LOAD_ABANDON (R447): 2 s without progress. -/
def execBootLoadAbandon (s : State) : Host.Outcome State Fault Refusal :=
  s.stepDev (if s.sec.phase == .fetching then s.toDev.abandonLoad .noProgress else s.toDev)

/-- BOOT_RETRY (R447). -/
def execBootRetry (s : State) : Host.Outcome State Fault Refusal :=
  s.stepDev (if s.sec.phase == .backoff then
    ({ s.toDev with sec := { s.sec with phase := .apiaryUp } } : Dev).bootRequest else s.toDev)

/-- REPAIR_LIST_TIMEOUT (R444). -/
def execRepairListTimeout (s : State) : Host.Outcome State Fault Refusal := s.stepDev s.toDev.noRepairs

/-- FRAME_SELF_TEST_COMPLETE (R444). -/
def execFrameSelfTestComplete (res : List (FrameId × SelfTest)) (s : State) : Host.Outcome State Fault Refusal :=
  s.stepDev (s.toDev.bootDone res)

/-- CORE_RESTART_COMPLETE (R443). -/
def execCoreRestartComplete (core : CoreId) (s : State) : Host.Outcome State Fault Refusal :=
  s.stepDev (s.toDev.coreBack core)

/-- APIARY_HELLO (R452). -/
def execApiaryHello (s : State) : Host.Outcome State Fault Refusal := s.stepDev s.toDev.sayHello

/-- MGMT_KEY (R452). -/
def execMgmtKey (au : Auth) (key : List Byte) (s : State) : Host.Outcome State Fault Refusal :=
  s.stepDev (s.toDev.offerKey au key)

/-- PORT_LEAVE_QUARANTINE (R454). -/
def execPortLeaveQuarantine (au : Auth) (p : Port) (s : State) : Host.Outcome State Fault Refusal :=
  s.stepDev (s.toDev.command au (.leaveQuarantine p))

/-- PORT_QUARANTINE (R454). -/
def execPortQuarantine (au : Auth) (p : Port) (s : State) : Host.Outcome State Fault Refusal :=
  s.stepDev (s.toDev.command au (.quarantine p))

/-- PORT_RETRAIN (R454). -/
def execPortRetrain (au : Auth) (p : Port) (s : State) : Host.Outcome State Fault Refusal :=
  s.stepDev (s.toDev.command au (.retrain p))

/-- WIRING_PLAN (R454). -/
def execWiringPlan (au : Auth) (dev : BitVec 16) (gen : BitVec 32) (entries : List PlanEntry) (s : State) :
    Host.Outcome State Fault Refusal := s.stepDev (s.toDev.command au (.wiringPlan dev gen entries))

/-- EQ_HINTS (R373). -/
def execEqHints (au : Auth) (mask : BitVec 32) (hints : List EqHint) (s : State) : Host.Outcome State Fault Refusal :=
  s.stepDev (s.toDev.command au (.eqHints mask hints))

/-- REPAIR_LIST (R227). -/
def execRepairList (au : Auth) (more : Bool) (entries : List RepairEntry) (s : State) :
    Host.Outcome State Fault Refusal := s.stepDev (s.toDev.command au (.repairList more entries))

/-- SUSPICION (R421). -/
def execSuspicion (au : Auth) (levels : List (BitVec 2)) (s : State) : Host.Outcome State Fault Refusal :=
  s.stepDev (s.toDev.command au (.suspicion levels))

/-- WAGGLE_ROOT (R393). -/
def execWaggleRoot (au : Auth) (root : BitVec 15) (s : State) : Host.Outcome State Fault Refusal :=
  s.stepDev (s.toDev.command au (.waggleRoot root))

/-- FRAME_EXCLUDE (R454). -/
def execFrameExclude (au : Auth) (mask : BitVec 384) (s : State) : Host.Outcome State Fault Refusal :=
  s.stepDev (s.toDev.command au (.frameExclude mask))

/-- POWER_CFG (R464). -/
def execPowerCfg (au : Auth) (watts celsius : Nat) (s : State) : Host.Outcome State Fault Refusal :=
  s.stepDev (s.toDev.command au (.powerCfg watts celsius))

/-- JOB_ADMIT (R308). -/
def execJobAdmit (au : Auth) (r : JobReq) (s : State) : Host.Outcome State Fault Refusal :=
  s.stepDev (s.toDev.command au (.jobAdmit r))

/-- BARRIER_SETUP (R398). -/
def execBarrierSetup (au : Auth) (r : BarReq) (s : State) : Host.Outcome State Fault Refusal :=
  s.stepDev (s.toDev.command au (.barrierSetup r))

/-- JOB_KILL (R454). -/
def execJobKill (au : Auth) (job : BitVec 16) (s : State) : Host.Outcome State Fault Refusal :=
  s.stepDev (s.toDev.command au (.jobKill job))

/-- LEDGER_EXPORT (R435). -/
def execLedgerExport (s : State) : Host.Outcome State Fault Refusal := s.stepDev s.toDev.ledgerExport

/-- LEDGER_ACK (R453). -/
def execLedgerAck (au : Auth) (seq : BitVec 32) (s : State) : Host.Outcome State Fault Refusal :=
  s.stepDev (s.toDev.command au (.ledgerAck seq))

/-- REPORT_RESEND (R453). -/
def execReportResend (s : State) : Host.Outcome State Fault Refusal := s.stepDev s.toDev.resendReports

/-- RESULT_ECHO (R453). -/
def execResultEcho (seq : Word) (s : State) : Host.Outcome State Fault Refusal := s.stepDev (s.toDev.echoed seq)

/-- LOG_REQ (R453). -/
def execLogReq (au : Auth) (first : BitVec 32) (count : Nat) (s : State) : Host.Outcome State Fault Refusal :=
  s.stepDev (s.toDev.command au (.logReq first count))

/-- ATTEST_REQ (R450). -/
def execAttestReq (au : Auth) (nonce : List Byte) (s : State) : Host.Outcome State Fault Refusal :=
  s.stepDev (s.toDev.command au (.attestReq nonce))

/-- STATUS_REPORT (R453): frames in service, package power, hottest sensor, LNK_STATUS, WAG_STATUS. -/
def execStatusReport (s : State) : Host.Outcome State Fault Refusal :=
  s.stepDev (if s.toDev.fwRuns then
    s.toDev.apiaryTx 0x37 (le 2 s.toDev.frameCount ++ le 2 s.pwr.pkgW.toNat ++ le 1 s.pwr.tjMax.toNat
      ++ le 8 s.toDev.lnkStatus ++ le 8 s.toDev.wagStatus)
    else s.toDev)

/-- PTP_SYNC (R456). -/
def execPtpSync (offset : Int) (ptpNs : Nat) (s : State) : Host.Outcome State Fault Refusal :=
  s.stepDev (s.toDev.ptpSync offset ptpNs)

/-- PTP_ANNOUNCE (R456). -/
def execPtpAnnounce (utcOffset : Int) (utc : UtcFlags) (s : State) : Host.Outcome State Fault Refusal :=
  s.stepDev (s.toDev.ptpAnnounce utcOffset utc)

/-- PTP_SYNC_LOSS (R456). -/
def execPtpSyncLoss (s : State) : Host.Outcome State Fault Refusal := s.stepDev s.toDev.ptpLost

/-- The address of a prefix and the device's interface identifier (R451). -/
def Dev.slaac (d : Dev) (pfx : BitVec 64) : List Byte := (le 8 pfx.toNat).reverse ++ interfaceId d.sec.serial

/-- ROUTER_ADVERTISEMENT (R451): the firmware forms an address with the prefix. -/
def execRouterAdvertisement (pfx : BitVec 64) (s : State) : Host.Outcome State Fault Refusal :=
  s.stepDev (if s.toDev.fwRuns && !s.sec.addrs.contains (s.toDev.slaac pfx) then
    { s.toDev with sec := { s.sec with addrs := s.sec.addrs ++ [s.toDev.slaac pfx] } } else s.toDev)

end Sys2Proof.Machine
end

