-- ==== Sys2Proof/Machine/Host.lean ====
section
/-! DEFINITION. Commands of the host (R207, R223, R273–R275, R299–R301, R415, R505). -/

namespace Sys2Proof.Machine

/-- ATTACH (R300). -/
def execAttach (seq : BitVec 16) (s : State) : Host.Outcome State Fault Refusal := s.stepDev (s.toDev.mailbox 1 seq)

/-- DETACH (R300). -/
def execDetach (seq : BitVec 16) (s : State) : Host.Outcome State Fault Refusal := s.stepDev (s.toDev.mailbox 2 seq)

/-- HEARTBEAT (R299). -/
def execHeartbeat (v : Word) (s : State) : Host.Outcome State Fault Refusal := s.stepDev (s.toDev.heartbeat v)

/-- HEARTBEAT_SAMPLE (R301). -/
def execHeartbeatSample (s : State) : Host.Outcome State Fault Refusal := s.stepDev s.toDev.sampleHeartbeat

/-- ORPHAN_LIMIT_EXPIRY (R301). -/
def execOrphanLimitExpiry (ctx : BitVec 12) (s : State) : Host.Outcome State Fault Refusal :=
  s.stepDev (s.toDev.orphanLimit ctx)

/-- MEM_TLBI_VA (R207): every page of any size that covers the address. -/
def execMemTlbiVa (ctx : BitVec 12) (va : BitVec 52) (s : State) : Host.Outcome State Fault Refusal :=
  s.stepDev (s.toDev.invalidate (.va ctx va.toNat))

/-- MEM_TLBI_CTX (R207). -/
def execMemTlbiCtx (ctx : BitVec 12) (s : State) : Host.Outcome State Fault Refusal :=
  s.stepDev (s.toDev.invalidate (.ctx ctx))

/-- MEM_TLBI_ALL (R207). -/
def execMemTlbiAll (s : State) : Host.Outcome State Fault Refusal := s.stepDev (s.toDev.invalidate .all)

/-- TLBI_DONE (R207). -/
def execTlbiDone (s : State) : Host.Outcome State Fault Refusal := s.stepDev s.toDev.invalidated

/-- SCAN_GO (R415). -/
def execScanGo (v : Word) (s : State) : Host.Outcome State Fault Refusal := s.stepDev (s.toDev.startScan v)

/-- SCAN_COMPLETE (R415). -/
def execScanComplete (die ch : Fin 64) (s : State) : Host.Outcome State Fault Refusal :=
  s.stepDev (s.toDev.finishScan die.val ch.val)

/-- REGISTER_WRITE (R505). -/
def execRegisterWrite (core : Bool) (addr size : Nat) (v : Word) (s : State) : Host.Outcome State Fault Refusal :=
  s.stepDev (s.toDev.registerWrite core addr size v)

/-- REGISTER_READ_CLEAR (R505). -/
def execRegisterReadClear (addr size : Nat) (s : State) : Host.Outcome State Fault Refusal :=
  s.stepDev (s.toDev.readClear addr size)

/-- HOST_ACCESS_ABORT (R274). -/
def execHostAccessAbort (off size : Nat) (write : Bool) (s : State) : Host.Outcome State Fault Refusal :=
  s.stepDev (s.toDev.abortAccess off size write)

/-- BAR2_ACCESS (R275). -/
def execBar2Access (op : Bar2Op) (s : State) : Host.Outcome State Fault Refusal := s.stepDev (s.toDev.bar2 op)

end Sys2Proof.Machine
end

