-- ==== Sys2Proof/Machine/Power.lean ====
section
/-! DEFINITION. Commands of the power-management core and of the thermal hardware (R462–R466, R483, R493, R494). -/

namespace Sys2Proof.Machine

/-- POWER_CONTROL_INTERVAL (R463). -/
def execPowerControlInterval (watts : Nat) (temps : List Nat) (s : State) : Host.Outcome State Fault Refusal :=
  s.stepDev (s.toDev.controlInterval watts temps)

/-- POWER_FAST_CHECK (R463). -/
def execPowerFastCheck (watts : Nat) (s : State) : Host.Outcome State Fault Refusal :=
  s.stepDev (s.toDev.fastCheck watts)

/-- VOLTAGE_STEP (R493). -/
def execVoltageStep (die : Fin 16) (up : Bool) (s : State) : Host.Outcome State Fault Refusal :=
  s.stepDev (s.toDev.voltageStep die up)

/-- VR_ALERT (R494). -/
def execVrAlert (s : State) : Host.Outcome State Fault Refusal := s.stepDev s.toDev.vrAlert

/-- THERMAL_FORCE (R483): hardware forces CAP 1 on every frame. -/
def execThermalForce (celsius : Nat) (s : State) : Host.Outcome State Fault Refusal :=
  s.stepDev (if s.sec.phase != .off && decide (105 ≤ celsius) then
    s.toDev.withCaps fun p => { p with forced := true } else s.toDev)

/-- THERMAL_FORCE_RELEASE (R483). -/
def execThermalForceRelease (celsius : Nat) (s : State) : Host.Outcome State Fault Refusal :=
  s.stepDev (if s.sec.phase != .off && decide (celsius ≤ 100) then
    s.toDev.withCaps fun p => { p with forced := false } else s.toDev)

end Sys2Proof.Machine
end

