-- ==== Sys2Proof/Machine/Waggle.lean ====
section
/-! DEFINITION. Commands of Waggle time, timed bells, the power frame and barrier messages (R386–R405). -/

namespace Sys2Proof.Machine

/-- A timed bell whose time is reached goes out; with VALID = 0 at once (R394, R395). -/
def Dev.releaseBell (d : Dev) (i : Nat) : Dev :=
  match d.wag.tbells[i]? with
  | none => d
  | some b =>
    if d.wag.valid && decide (d.waggle < b.time.toNat) then d
    else
      let early := if d.wag.valid then d.wag.earlyRel else satAdd d.wag.earlyRel
      let d := { d with wag := { d.wag with tbells := d.wag.tbells.eraseIdx i, earlyRel := early } }
      d.ringTaskBell b.addr b.value b.add b.job b.origin

/-- Release a frame's held start; the start counts, and what waited for it presents its first vector (R397). -/
def Dev.releaseStart (d : Dev) (f : FrameId) : Dev :=
  let fr := d.frame f
  if !fr.ramp.startHold then d
  else
    (({ d with wag := { d.wag with starts := d.wag.starts ++ [d.waggle] } } : Dev).setFrame f { fr with
      ramp := { fr.ramp with startHold := false, level := min 1 fr.ramp.cap }
      mmaQ := fr.mmaQ.map fun j => { j with startHold := false } }).pumpMma f 8

/-- The slot of the power frame that a Waggle time falls in (R396). -/
def slotAt (t : Nat) : Nat := t / 16 % 64

/-- The device's own slot (R396). -/
def Dev.ownPowerSlot (d : Dev) : Nat := d.lnk.devId.toNat % 64

/-- The device's slot of the power frame begins (R396, R397): in no other slot is a start released. -/
def Dev.slotStart (d : Dev) : Dev :=
  if slotAt d.waggle != d.ownPowerSlot then d
  else
  let d := { d with wag := { d.wag with starts := d.wag.starts.filter fun t => decide (d.waggle < t + 1024) } }
  allFrames.foldl (fun d f => d.releaseStart f) d

/-- A barrier message finds its group by KEY, and its job must match (R400, R401). -/
def Dev.barrierMsg (d : Dev) (m : BarMsg) : Dev :=
  let d := d.consume 0x04 m.job
  match d.wag.groups.find? fun g => g.2.state != .free && g.2.key == m.key && g.2.job == m.job with
  | none => d.ledger 0x08 0x03 { job := m.job.toNat, aux0 := m.key.toNat }
  | some (gi, g) => (d.setGroup gi (g.place m.episode m.round.toNat m.member.toNat)).stirGroup gi

/-- A BROKEN group sends its failed messages again; once each is delivered the episode goes on (R405). -/
def Dev.resendBarrier (d : Dev) (gi : Nat) : Dev :=
  let g := d.group gi
  if g.state != .broken then d
  else
    let d := d.setGroup gi { g with failed := [] }
    let d := g.failed.foldl (fun d x => match d.sendBar gi x.1 x.2.1 x.2.2 with
      | (d, true) => d
      | (d, false) => d.setGroup gi { d.group gi with failed := (d.group gi).failed ++ [x] }) d
    if !(d.group gi).failed.isEmpty then d
    else if (d.group gi).open_ then (d.setGroup gi { d.group gi with state := .arrived }).stirGroup gi
    else
      match (d.setGroup gi { d.group gi with state := .idle }).nextArrival gi with
      | (d, true) => d.commitGroup gi (d.commitsFuel gi)
      | (d, false) => d

/-- WAGGLE_EXCHANGE_TIMER (R386). -/
def execWaggleExchangeTimer (s : State) : Host.Outcome State Fault Refusal := s.stepDev s.toDev.exchangeTimer

/-- WAGGLE_REQ (R389): the response leaves by the route to the requester, whatever port the request came in on. -/
def execWaggleReq (p : Port) (src : BitVec 15) (m : WagMsg) (s : State) : Host.Outcome State Fault Refusal :=
  s.stepDev (if s.toDev.up then (s.toDev.takeWag p src).waggleAnswer src m (s.toDev.wagStamp p src) else s.toDev)

/-- WAGGLE_RSP (R390). -/
def execWaggleRsp (p : Port) (src : BitVec 15) (m : WagMsg) (s : State) : Host.Outcome State Fault Refusal :=
  s.stepDev (if s.toDev.up then (s.toDev.takeWag p src).waggleResponse src m (s.toDev.wagStamp p src) else s.toDev)

/-- PARENT_LOST (R387). -/
def execParentLost (s : State) : Host.Outcome State Fault Refusal := s.stepDev s.toDev.loseParent

/-- TIMED_BELL_RELEASE (R394). -/
def execTimedBellRelease (i : Nat) (s : State) : Host.Outcome State Fault Refusal := s.stepDev (s.toDev.releaseBell i)

/-- POWER_SLOT_START (R397). -/
def execPowerSlotStart (s : State) : Host.Outcome State Fault Refusal :=
  s.stepDev (if s.toDev.up then s.toDev.slotStart else s.toDev)

/-- BARRIER_MESSAGE (R402). -/
def execBarrierMessage (m : BarMsg) (s : State) : Host.Outcome State Fault Refusal :=
  s.stepDev (if s.toDev.up then s.toDev.barrierMsg m else s.toDev)

/-- BARRIER_RESEND (R405). -/
def execBarrierResend (g : Fin 1024) (s : State) : Host.Outcome State Fault Refusal :=
  s.stepDev (if s.toDev.up then s.toDev.resendBarrier g.val else s.toDev)

end Sys2Proof.Machine
end

