-- ==== Sys2Proof/Machine/Dispatch.lean ====
section
/-! DEFINITION. The dispatcher: one arm for each command. -/

namespace Sys2Proof.Machine

/-- What a command does to everything but the queue of commands. -/
def exec (i : Instr) (s : State) : Host.Outcome State Fault Refusal :=
  match i with
  | .nop f x => Sys2Proof.Machine.execNop f x s
  | .add f x => Sys2Proof.Machine.execAdd f x s
  | .sub f x => Sys2Proof.Machine.execSub f x s
  | .mul f x => Sys2Proof.Machine.execMul f x s
  | .andS f x => Sys2Proof.Machine.execAndS f x s
  | .orS f x => Sys2Proof.Machine.execOrS f x s
  | .xorS f x => Sys2Proof.Machine.execXorS f x s
  | .shl f x => Sys2Proof.Machine.execShl f x s
  | .shr f x => Sys2Proof.Machine.execShr f x s
  | .sra f x => Sys2Proof.Machine.execSra f x s
  | .addi f x => Sys2Proof.Machine.execAddi f x s
  | .andi f x => Sys2Proof.Machine.execAndi f x s
  | .shli f x => Sys2Proof.Machine.execShli f x s
  | .shri f x => Sys2Proof.Machine.execShri f x s
  | .cmp f x => Sys2Proof.Machine.execCmp f x s
  | .cmpi f x => Sys2Proof.Machine.execCmpi f x s
  | .amov f x => Sys2Proof.Machine.execAmov f x s
  | .aadd f x => Sys2Proof.Machine.execAadd f x s
  | .smova f x => Sys2Proof.Machine.execSmova f x s
  | .kand f x => Sys2Proof.Machine.execKand f x s
  | .kor f x => Sys2Proof.Machine.execKor f x s
  | .knot f x => Sys2Proof.Machine.execKnot f x s
  | .b f x => Sys2Proof.Machine.execB f x s
  | .bz f x => Sys2Proof.Machine.execBz f x s
  | .bnz f x => Sys2Proof.Machine.execBnz f x s
  | .bk f x => Sys2Proof.Machine.execBk f x s
  | .br f x => Sys2Proof.Machine.execBr f x s
  | .li64 f x imm => Sys2Proof.Machine.execLi64 f x imm s
  | .ai64 f x imm => Sys2Proof.Machine.execAi64 f x imm s
  | .mmaF f x => Sys2Proof.Machine.execMmaF f x s
  | .mmaH2 f x => Sys2Proof.Machine.execMmaH2 f x s
  | .mmaQ4 f x => Sys2Proof.Machine.execMmaQ4 f x s
  | .weightPlaneLoaded f => Sys2Proof.Machine.execWeightPlaneLoaded f s
  | .mmaComplete f => Sys2Proof.Machine.execMmaComplete f s
  | .vadd f x => Sys2Proof.Machine.execVadd f x s
  | .vsub f x => Sys2Proof.Machine.execVsub f x s
  | .vmul f x => Sys2Proof.Machine.execVmul f x s
  | .vfma f x => Sys2Proof.Machine.execVfma f x s
  | .vmax f x => Sys2Proof.Machine.execVmax f x s
  | .vmin f x => Sys2Proof.Machine.execVmin f x s
  | .vabs f x => Sys2Proof.Machine.execVabs f x s
  | .vneg f x => Sys2Proof.Machine.execVneg f x s
  | .vcmp f x => Sys2Proof.Machine.execVcmp f x s
  | .vsel f x => Sys2Proof.Machine.execVsel f x s
  | .vand f x => Sys2Proof.Machine.execVand f x s
  | .vor f x => Sys2Proof.Machine.execVor f x s
  | .vxor f x => Sys2Proof.Machine.execVxor f x s
  | .vshl f x => Sys2Proof.Machine.execVshl f x s
  | .vshr f x => Sys2Proof.Machine.execVshr f x s
  | .vexp2 f x => Sys2Proof.Machine.execVexp2 f x s
  | .vlog2 f x => Sys2Proof.Machine.execVlog2 f x s
  | .vrcp f x => Sys2Proof.Machine.execVrcp f x s
  | .vrsqrt f x => Sys2Proof.Machine.execVrsqrt f x s
  | .vsqrt f x => Sys2Proof.Machine.execVsqrt f x s
  | .vexp f x => Sys2Proof.Machine.execVexp f x s
  | .vtanh f x => Sys2Proof.Machine.execVtanh f x s
  | .vsigm f x => Sys2Proof.Machine.execVsigm f x s
  | .vrsum f x => Sys2Proof.Machine.execVrsum f x s
  | .vrmax f x => Sys2Proof.Machine.execVrmax f x s
  | .vrmin f x => Sys2Proof.Machine.execVrmin f x s
  | .cvt f x => Sys2Proof.Machine.execCvt f x s
  | .cvtg f x => Sys2Proof.Machine.execCvtg f x s
  | .gadd f x => Sys2Proof.Machine.execGadd f x s
  | .cvtx f x => Sys2Proof.Machine.execCvtx f x s
  | .vectorComplete f => Sys2Proof.Machine.execVectorComplete f s
  | .mov f x => Sys2Proof.Machine.execMov f x s
  | .moveLineLanded f k line host hostPoison => Sys2Proof.Machine.execMoveLineLanded f k line host hostPoison s
  | .moveAcknowledged f k => Sys2Proof.Machine.execMoveAcknowledged f k s
  | .tld f x => Sys2Proof.Machine.execTld f x s
  | .tldl f x => Sys2Proof.Machine.execTldl f x s
  | .tst f x => Sys2Proof.Machine.execTst f x s
  | .twr f x => Sys2Proof.Machine.execTwr f x s
  | .trd f x => Sys2Proof.Machine.execTrd f x s
  | .taddb f x => Sys2Proof.Machine.execTaddb f x s
  | .text f x => Sys2Proof.Machine.execText f x s
  | .lds f x => Sys2Proof.Machine.execLds f x s
  | .sts f x => Sys2Proof.Machine.execSts f x s
  | .ldsl f x => Sys2Proof.Machine.execLdsl f x s
  | .stsl f x => Sys2Proof.Machine.execStsl f x s
  | .lda f x => Sys2Proof.Machine.execLda f x s
  | .sta f x => Sys2Proof.Machine.execSta f x s
  | .lockedRegisterUnlock f k => Sys2Proof.Machine.execLockedRegisterUnlock f k s
  | .storeAcknowledged f k => Sys2Proof.Machine.execStoreAcknowledged f k s
  | .tyinit f x => Sys2Proof.Machine.execTyinit f x s
  | .tydata f x => Sys2Proof.Machine.execTydata f x s
  | .tyrd f x => Sys2Proof.Machine.execTyrd f x s
  | .tywr f x => Sys2Proof.Machine.execTywr f x s
  | .waitAc f x => Sys2Proof.Machine.execWaitAc f x s
  | .waitMc f x => Sys2Proof.Machine.execWaitMc f x s
  | .waitAcr f x => Sys2Proof.Machine.execWaitAcr f x s
  | .waitMcr f x => Sys2Proof.Machine.execWaitMcr f x s
  | .waitAll f x => Sys2Proof.Machine.execWaitAll f x s
  | .issueHoldRelease f => Sys2Proof.Machine.execIssueHoldRelease f s
  | .done f x => Sys2Proof.Machine.execDone f x s
  | .bell f x => Sys2Proof.Machine.execBell f x s
  | .taskDoneSignal f => Sys2Proof.Machine.execTaskDoneSignal f s
  | .taskFaultSignal f => Sys2Proof.Machine.execTaskFaultSignal f s
  | .memoryErrorResponse f acc => Sys2Proof.Machine.execMemoryErrorResponse f acc s
  | .fetchFault f => Sys2Proof.Machine.execFetchFault f s
  | .rampRiseInterval f demand => Sys2Proof.Machine.execRampRiseInterval f demand s
  | .rampFallInterval f demand => Sys2Proof.Machine.execRampFallInterval f demand s
  | .guardBufferFreed f => Sys2Proof.Machine.execGuardBufferFreed f s
  | .guardTake f => Sys2Proof.Machine.execGuardTake f s
  | .guardRunComplete f tally => Sys2Proof.Machine.execGuardRunComplete f tally s
  | .guardWaitExpiry ctx => Sys2Proof.Machine.execGuardWaitExpiry ctx s
  | .flaggedFrameRemoval f => Sys2Proof.Machine.execFlaggedFrameRemoval f s
  | .takeRequest f => Sys2Proof.Machine.execTakeRequest f s
  | .takeGrant f req => Sys2Proof.Machine.execTakeGrant f req s
  | .takeComplete f => Sys2Proof.Machine.execTakeComplete f s
  | .successorDecrement => Sys2Proof.Machine.execSuccessorDecrement s
  | .semaphoreUpdate => Sys2Proof.Machine.execSemaphoreUpdate s
  | .launchHoldRelease q => Sys2Proof.Machine.execLaunchHoldRelease q s
  | .graphHang g => Sys2Proof.Machine.execGraphHang g s
  | .contextBind ctx stall => Sys2Proof.Machine.execContextBind ctx stall s
  | .contextUnbind ctx => Sys2Proof.Machine.execContextUnbind ctx s
  | .preemptWaitExpiry ctx => Sys2Proof.Machine.execPreemptWaitExpiry ctx s
  | .stallReallocation moves => Sys2Proof.Machine.execStallReallocation moves s
  | .saveImageWritten ctx => Sys2Proof.Machine.execSaveImageWritten ctx s
  | .restoreComplete ctx => Sys2Proof.Machine.execRestoreComplete ctx s
  | .contextDestroyComplete ctx => Sys2Proof.Machine.execContextDestroyComplete ctx s
  | .stallReset stall => Sys2Proof.Machine.execStallReset stall s
  | .saveResetWaitExpiry ctx => Sys2Proof.Machine.execSaveResetWaitExpiry ctx s
  | .frmCtrlPreempt f => Sys2Proof.Machine.execFrmCtrlPreempt f s
  | .frmCtrlStep f on => Sys2Proof.Machine.execFrmCtrlStep f on s
  | .doorbell q => Sys2Proof.Machine.execDoorbell q s
  | .entryFetch q => Sys2Proof.Machine.execEntryFetch q s
  | .queueHoldEnd q => Sys2Proof.Machine.execQueueHoldEnd q s
  | .graphLaunch q => Sys2Proof.Machine.execGraphLaunch q s
  | .taskBatch q => Sys2Proof.Machine.execTaskBatch q s
  | .copy q => Sys2Proof.Machine.execCopy q s
  | .waitSem q => Sys2Proof.Machine.execWaitSem q s
  | .waitSemTimeout q => Sys2Proof.Machine.execWaitSemTimeout q s
  | .signalSem q => Sys2Proof.Machine.execSignalSem q s
  | .barrier q => Sys2Proof.Machine.execBarrier q s
  | .nopEntry q => Sys2Proof.Machine.execNopEntry q s
  | .createCtx semFirst => Sys2Proof.Machine.execCreateCtx semFirst s
  | .destroyCtx => Sys2Proof.Machine.execDestroyCtx s
  | .resumeCtx => Sys2Proof.Machine.execResumeCtx s
  | .createQueue => Sys2Proof.Machine.execCreateQueue s
  | .destroyQueue => Sys2Proof.Machine.execDestroyQueue s
  | .adoptCtx => Sys2Proof.Machine.execAdoptCtx s
  | .createCring => Sys2Proof.Machine.execCreateCring s
  | .destroyCring => Sys2Proof.Machine.execDestroyCring s
  | .setSched => Sys2Proof.Machine.execSetSched s
  | .queueQuiesced q => Sys2Proof.Machine.execQueueQuiesced q s
  | .quiesceTimeout q => Sys2Proof.Machine.execQuiesceTimeout q s
  | .cringHeadPoll r => Sys2Proof.Machine.execCringHeadPoll r s
  | .irqModerationExpiry r => Sys2Proof.Machine.execIrqModerationExpiry r s
  | .hostReadFailure f => Sys2Proof.Machine.execHostReadFailure f s
  | .attach seq => Sys2Proof.Machine.execAttach seq s
  | .detach seq => Sys2Proof.Machine.execDetach seq s
  | .heartbeat v => Sys2Proof.Machine.execHeartbeat v s
  | .heartbeatSample => Sys2Proof.Machine.execHeartbeatSample s
  | .orphanLimitExpiry ctx => Sys2Proof.Machine.execOrphanLimitExpiry ctx s
  | .memTlbiVa ctx va => Sys2Proof.Machine.execMemTlbiVa ctx va s
  | .memTlbiCtx ctx => Sys2Proof.Machine.execMemTlbiCtx ctx s
  | .memTlbiAll => Sys2Proof.Machine.execMemTlbiAll s
  | .tlbiDone => Sys2Proof.Machine.execTlbiDone s
  | .scanGo v => Sys2Proof.Machine.execScanGo v s
  | .scanComplete die ch => Sys2Proof.Machine.execScanComplete die ch s
  | .dbgResetWarm v => Sys2Proof.Machine.execDbgResetWarm v s
  | .dbgResetCold v => Sys2Proof.Machine.execDbgResetCold v s
  | .registerWrite core addr size v => Sys2Proof.Machine.execRegisterWrite core addr size v s
  | .registerReadClear addr size => Sys2Proof.Machine.execRegisterReadClear addr size s
  | .hostAccessAbort off size write => Sys2Proof.Machine.execHostAccessAbort off size write s
  | .bar2Access op => Sys2Proof.Machine.execBar2Access op s
  | .allReduce j => Sys2Proof.Machine.execAllReduce j s
  | .reduceScatter j => Sys2Proof.Machine.execReduceScatter j s
  | .allGather j => Sys2Proof.Machine.execAllGather j s
  | .broadcast j => Sys2Proof.Machine.execBroadcast j s
  | .allToAll j => Sys2Proof.Machine.execAllToAll j s
  | .maxIdx j => Sys2Proof.Machine.execMaxIdx j s
  | .minIdx j => Sys2Proof.Machine.execMinIdx j s
  | .commit j => Sys2Proof.Machine.execCommit j s
  | .timedCollectiveStart j bucket => Sys2Proof.Machine.execTimedCollectiveStart j bucket s
  | .collectiveComplete j bucket => Sys2Proof.Machine.execCollectiveComplete j bucket s
  | .collectiveTimeout j bucket => Sys2Proof.Machine.execCollectiveTimeout j bucket s
  | .resendRepeat j bucket => Sys2Proof.Machine.execResendRepeat j bucket s
  | .data p => Sys2Proof.Machine.execData p s
  | .tally p => Sys2Proof.Machine.execTally p s
  | .segAck p => Sys2Proof.Machine.execSegAck p s
  | .resend p => Sys2Proof.Machine.execResend p s
  | .jobHello p => Sys2Proof.Machine.execJobHello p s
  | .stepAbort p => Sys2Proof.Machine.execStepAbort p s
  | .jobAbort p => Sys2Proof.Machine.execJobAbort p s
  | .resultTally p => Sys2Proof.Machine.execResultTally p s
  | .dataFlit p bytes => Sys2Proof.Machine.execDataFlit p bytes s
  | .linkControlFlit p bytes => Sys2Proof.Machine.execLinkControlFlit p bytes s
  | .linkHello p id peerPort gen => Sys2Proof.Machine.execLinkHello p id peerPort gen s
  | .unsupported p hdr => Sys2Proof.Machine.execUnsupported p hdr s
  | .creditViolation p cls n => Sys2Proof.Machine.execCreditViolation p cls n s
  | .laneDrop p mask count => Sys2Proof.Machine.execLaneDrop p mask count s
  | .retrain p cause => Sys2Proof.Machine.execRetrain p cause s
  | .quarantine p cause => Sys2Proof.Machine.execQuarantine p cause s
  | .bellFlit m => Sys2Proof.Machine.execBellFlit m s
  | .bReadRequest m => Sys2Proof.Machine.execBReadRequest m s
  | .bReadData m => Sys2Proof.Machine.execBReadData m s
  | .bWrite m => Sys2Proof.Machine.execBWrite m s
  | .bWriteAcknowledgement tag n => Sys2Proof.Machine.execBWriteAcknowledgement tag n s
  | .errorResponse tag cause => Sys2Proof.Machine.execErrorResponse tag cause s
  | .remoteRequestTimeout tag => Sys2Proof.Machine.execRemoteRequestTimeout tag s
  | .laneFailure p lane => Sys2Proof.Machine.execLaneFailure p lane s
  | .routeChange ops => Sys2Proof.Machine.execRouteChange ops s
  | .trainingWaveStart wave => Sys2Proof.Machine.execTrainingWaveStart wave s
  | .trainingStateComplete p o => Sys2Proof.Machine.execTrainingStateComplete p o s
  | .trainingTimeout p => Sys2Proof.Machine.execTrainingTimeout p s
  | .trainingRetry p => Sys2Proof.Machine.execTrainingRetry p s
  | .parkedPortRelease p => Sys2Proof.Machine.execParkedPortRelease p s
  | .portLeaveQuarantine au p => Sys2Proof.Machine.execPortLeaveQuarantine au p s
  | .portQuarantine au p => Sys2Proof.Machine.execPortQuarantine au p s
  | .portRetrain au p => Sys2Proof.Machine.execPortRetrain au p s
  | .waggleExchangeTimer => Sys2Proof.Machine.execWaggleExchangeTimer s
  | .waggleReq p src m => Sys2Proof.Machine.execWaggleReq p src m s
  | .waggleRsp p src m => Sys2Proof.Machine.execWaggleRsp p src m s
  | .parentLost => Sys2Proof.Machine.execParentLost s
  | .timedBellRelease k => Sys2Proof.Machine.execTimedBellRelease k s
  | .powerSlotStart => Sys2Proof.Machine.execPowerSlotStart s
  | .barrierMessage m => Sys2Proof.Machine.execBarrierMessage m s
  | .barrierResend g => Sys2Proof.Machine.execBarrierResend g s
  | .scrubRead line o => Sys2Proof.Machine.execScrubRead line o s
  | .correctionWriteBack k => Sys2Proof.Machine.execCorrectionWriteBack k s
  | .rowSpareComplete k => Sys2Proof.Machine.execRowSpareComplete k s
  | .ledgerWindowEnd => Sys2Proof.Machine.execLedgerWindowEnd s
  | .powerControlInterval watts temps => Sys2Proof.Machine.execPowerControlInterval watts temps s
  | .powerFastCheck watts => Sys2Proof.Machine.execPowerFastCheck watts s
  | .voltageStep die up => Sys2Proof.Machine.execVoltageStep die up s
  | .vrAlert => Sys2Proof.Machine.execVrAlert s
  | .thermalForce celsius => Sys2Proof.Machine.execThermalForce celsius s
  | .thermalForceRelease celsius => Sys2Proof.Machine.execThermalForceRelease celsius s
  | .thermalTrip celsius => Sys2Proof.Machine.execThermalTrip celsius s
  | .thermalHoldEnd celsius => Sys2Proof.Machine.execThermalHoldEnd celsius s
  | .railFault rail => Sys2Proof.Machine.execRailFault rail s
  | .railRecovery => Sys2Proof.Machine.execRailRecovery s
  | .powerRemoved => Sys2Proof.Machine.execPowerRemoved s
  | .perstNAssert => Sys2Proof.Machine.execPerstNAssert s
  | .perstNRelease board slot test => Sys2Proof.Machine.execPerstNRelease board slot test s
  | .functionLevelReset => Sys2Proof.Machine.execFunctionLevelReset s
  | .warmReset => Sys2Proof.Machine.execWarmReset s
  | .watchdogExpiry core => Sys2Proof.Machine.execWatchdogExpiry core s
  | .coreRestartComplete core => Sys2Proof.Machine.execCoreRestartComplete core s
  | .jtagPinTakeover k => Sys2Proof.Machine.execJtagPinTakeover k s
  | .tapReset => Sys2Proof.Machine.execTapReset s
  | .bootReq => Sys2Proof.Machine.execBootReq s
  | .bootOffer len nchunk server => Sys2Proof.Machine.execBootOffer len nchunk server s
  | .chunkData region piece frag bytes => Sys2Proof.Machine.execChunkData region piece frag bytes s
  | .bootLoadAbandon => Sys2Proof.Machine.execBootLoadAbandon s
  | .bootRetry => Sys2Proof.Machine.execBootRetry s
  | .repairListTimeout => Sys2Proof.Machine.execRepairListTimeout s
  | .apiaryHello => Sys2Proof.Machine.execApiaryHello s
  | .mgmtKey au key => Sys2Proof.Machine.execMgmtKey au key s
  | .wiringPlan au dev gen entries => Sys2Proof.Machine.execWiringPlan au dev gen entries s
  | .eqHints au mask hints => Sys2Proof.Machine.execEqHints au mask hints s
  | .repairList au more entries => Sys2Proof.Machine.execRepairList au more entries s
  | .suspicion au levels => Sys2Proof.Machine.execSuspicion au levels s
  | .waggleRoot au root => Sys2Proof.Machine.execWaggleRoot au root s
  | .frameExclude au mask => Sys2Proof.Machine.execFrameExclude au mask s
  | .powerCfg au watts celsius => Sys2Proof.Machine.execPowerCfg au watts celsius s
  | .jobAdmit au r => Sys2Proof.Machine.execJobAdmit au r s
  | .barrierSetup au r => Sys2Proof.Machine.execBarrierSetup au r s
  | .jobKill au job => Sys2Proof.Machine.execJobKill au job s
  | .ledgerExport => Sys2Proof.Machine.execLedgerExport s
  | .ledgerAck au seq => Sys2Proof.Machine.execLedgerAck au seq s
  | .reportResend => Sys2Proof.Machine.execReportResend s
  | .logReq au first count => Sys2Proof.Machine.execLogReq au first count s
  | .attestReq au nonce => Sys2Proof.Machine.execAttestReq au nonce s
  | .statusReport => Sys2Proof.Machine.execStatusReport s
  | .ptpSync offset ptpNs => Sys2Proof.Machine.execPtpSync offset ptpNs s
  | .ptpAnnounce utcOffset utc => Sys2Proof.Machine.execPtpAnnounce utcOffset utc s
  | .ptpSyncLoss => Sys2Proof.Machine.execPtpSyncLoss s
  | .powerUp => Sys2Proof.Machine.execPowerUp s
  | .flitSlot p => Sys2Proof.Machine.execFlitSlot p s
  | .frameSelfTestComplete res => Sys2Proof.Machine.execFrameSelfTestComplete res s
  | .atbInstrumentWrite node0 en0 node1 en1 => Sys2Proof.Machine.execAtbInstrumentWrite node0 en0 node1 en1 s
  | .routerAdvertisement pfx => Sys2Proof.Machine.execRouterAdvertisement pfx s
  | .resultEcho seq => Sys2Proof.Machine.execResultEcho seq s

end Sys2Proof.Machine
end

