-- ==== Sys2Proof/Machine/Time.lean ====
section
/-! DEFINITION. The passing of time: the clocks, and the counters of the Task Market that count cycles (R257, R383,
R391; DESIGN CHOICE, assumption 2). -/

namespace Sys2Proof.Machine

/-- A frame of a stall that is idle and has no task it could take (R257). -/
def Dev.idleFrame (d : Dev) (fr : Frame) : Bool :=
  fr.stallV && fr.state == .idle && fr.task.isNone && fr.granted.isNone && fr.guardRun.isNone
    && (d.boundTo fr.stall).all fun c => (d.candidate fr c).isNone

/-- Some cycles pass on the counters of R257. -/
def Dev.countIdle (d : Dev) (n : Nat) : Dev :=
  let idle := (d.fr.toList.filter d.idleFrame).map (·.stall.toNat)
  let credits := d.mkt.credits.map fun c =>
    if c.2.waiters.isEmpty then c else (c.1, { c.2 with cycles := c.2.cycles + BitVec.ofNat 64 n })
  let counts := idle.foldl (fun (m : SMap Word) s =>
    m.putD 0 s ((m.get? s).getD 0 + BitVec.ofNat 64 n)) d.mkt.stallIdle
  { d with mkt := { d.mkt with credits := credits, stallIdle := counts } }

/-- The Waggle counter advances by 1 ns at its rate. -/
def Waggle.tick (w : Waggle) : Waggle :=
  let t : Int := w.ctr.toNat * 2 ^ 16 + w.sub.toNat + 2 ^ 32 + w.rate
  { w with ctr := BitVec.ofInt 80 (t / 2 ^ 16), sub := BitVec.ofInt 16 t }

/-- Some cycles pass on RAMP_HOLD of a frame whose start is held (R85, R101, R397). -/
def Frame.countStart (fr : Frame) (n : Nat) : Frame :=
  if fr.ramp.startHold then { fr with ramp := { fr.ramp with rampHold := fr.ramp.rampHold + BitVec.ofNat 16 n } } else fr

/-- One nanosecond of the reference clock passes. -/
def Dev.tick (d : Dev) : Dev :=
  let n := cyclesAt (d.ns + 1) - cyclesAt d.ns
  { d.countIdle n with ns := d.ns + 1, wag := d.wag.tick, fr := d.fr.map (·.countStart n) }

end Sys2Proof.Machine
end

