-- ==== Sys2Proof/WellFormed.lean ====
section
/-! DEFINITION. The commands that can come over the device's interfaces: sizes and index ranges that the form of a
message, a flit or an access fixes. What a body may say wrongly is answered by the command itself. -/

namespace Sys2Proof

/-- Bytes of one host access to a register (R505). -/
def goodSize (n : Nat) : Bool := decide (1 ≤ n) && decide (n ≤ 8)

/-- Errors name one of the 68 stored symbols of a DRAM line with a difference that is not 0 (R216), or one of the eight words
of an SRAM line with a syndrome that is not 0 (R219). -/
def goodObs (o : ScrubObs) : Bool :=
  (o.errs.all fun e => decide (e.1 < 68) && e.2 != 0) && o.words.all fun w => decide (w.1 < 8) && w.2 != some 0

/-- Errors of the lines that one command reads: of DRAM or SRAM lines. -/
def goodErrs (es : LineErrs) : Bool := es.all fun e => decide (e.1 < 0x40C000000) && goodObs e.2

/-- A BAR2 access moves at least one byte, inside the largest aperture of 64 GiB (R275). -/
def goodBar2 : Bar2Op → Bool
  | .read off len errs => decide (1 ≤ len) && decide (off + len ≤ 2 ^ 36) && goodErrs errs
  | .write off data _ errs => decide (1 ≤ data.length) && decide (off + data.length ≤ 2 ^ 36) && goodErrs errs
  | .resize n => decide (28 ≤ n) && decide (n ≤ 36)

/-- A self-test names physical rows 0–129 and column groups 0–15 (R86–R90). -/
def goodTest (r : FrameId × SelfTest) : Bool :=
  r.2.rows.all (fun x => decide (x < 130)) && r.2.grps.all (fun x => decide (x < 16))
    && r.2.cells.all fun x => decide (x.1 < 130) && decide (x.2 < 128)

/-- A command that the interfaces can bring. -/
def Instr.wellFormed : Instr → Bool
  | .nop _ _ => true
  | .add _ _ => true
  | .sub _ _ => true
  | .mul _ _ => true
  | .andS _ _ => true
  | .orS _ _ => true
  | .xorS _ _ => true
  | .shl _ _ => true
  | .shr _ _ => true
  | .sra _ _ => true
  | .addi _ _ => true
  | .andi _ _ => true
  | .shli _ _ => true
  | .shri _ _ => true
  | .cmp _ _ => true
  | .cmpi _ _ => true
  | .amov _ _ => true
  | .aadd _ _ => true
  | .smova _ _ => true
  | .kand _ _ => true
  | .kor _ _ => true
  | .knot _ _ => true
  | .b _ _ => true
  | .bz _ _ => true
  | .bnz _ _ => true
  | .bk _ _ => true
  | .br _ _ => true
  | .li64 _ _ _ => true
  | .ai64 _ _ _ => true
  | .mmaF _ _ => true
  | .mmaH2 _ _ => true
  | .mmaQ4 _ _ => true
  | .weightPlaneLoaded _ => true
  | .mmaComplete m => goodErrs m.errs
  | .vadd _ _ => true
  | .vsub _ _ => true
  | .vmul _ _ => true
  | .vfma _ _ => true
  | .vmax _ _ => true
  | .vmin _ _ => true
  | .vabs _ _ => true
  | .vneg _ _ => true
  | .vcmp _ _ => true
  | .vsel _ _ => true
  | .vand _ _ => true
  | .vor _ _ => true
  | .vxor _ _ => true
  | .vshl _ _ => true
  | .vshr _ _ => true
  | .vexp2 _ _ => true
  | .vlog2 _ _ => true
  | .vrcp _ _ => true
  | .vrsqrt _ _ => true
  | .vsqrt _ _ => true
  | .vexp _ _ => true
  | .vtanh _ _ => true
  | .vsigm _ _ => true
  | .vrsum _ _ => true
  | .vrmax _ _ => true
  | .vrmin _ _ => true
  | .cvt _ _ => true
  | .cvtg _ _ => true
  | .gadd _ _ => true
  | .cvtx _ _ => true
  | .vectorComplete _ => true
  | .mov _ _ => true
  | .moveLineLanded _ _ l host _ => decide (host.length ≤ 64) && goodErrs l.errs
  | .moveAcknowledged _ _ => true
  | .tld _ _ => true
  | .tldl _ _ => true
  | .tst _ _ => true
  | .twr _ _ => true
  | .trd _ _ => true
  | .taddb _ _ => true
  | .text _ _ => true
  | .lds _ _ => true
  | .sts _ _ => true
  | .ldsl _ _ => true
  | .stsl _ _ => true
  | .lda _ _ => true
  | .sta _ _ => true
  | .lockedRegisterUnlock _ l => goodErrs l.errs
  | .storeAcknowledged _ _ => true
  | .tyinit _ _ => true
  | .tydata _ _ => true
  | .tyrd _ _ => true
  | .tywr _ _ => true
  | .waitAc _ _ => true
  | .waitMc _ _ => true
  | .waitAcr _ _ => true
  | .waitMcr _ _ => true
  | .waitAll _ _ => true
  | .issueHoldRelease _ => true
  | .done _ _ => true
  | .bell _ _ => true
  | .taskDoneSignal _ => true
  | .taskFaultSignal _ => true
  | .memoryErrorResponse _ _ => true
  | .fetchFault _ => true
  | .rampRiseInterval _ r => decide (r.demand ≤ 16384) && decide (r.held ≤ 6)
  | .rampFallInterval _ demand => decide (demand ≤ 16384)
  | .guardBufferFreed _ => true
  | .guardTake _ => true
  | .guardRunComplete _ _ => true
  | .guardWaitExpiry _ => true
  | .flaggedFrameRemoval _ => true
  | .takeRequest _ => true
  | .takeGrant _ _ => true
  | .takeComplete _ => true
  | .successorDecrement => true
  | .semaphoreUpdate => true
  | .launchHoldRelease _ => true
  | .graphHang _ => true
  | .contextBind _ stall => decide (stall < 384)
  | .contextUnbind _ => true
  | .preemptWaitExpiry _ => true
  | .stallReallocation moves => moves.all (fun m => match m.2 with | some n => decide (n < 384) | none => true)
  | .saveImageWritten _ => true
  | .restoreComplete _ => true
  | .contextDestroyComplete _ => true
  | .stallReset stall => decide (stall < 384)
  | .saveResetWaitExpiry _ => true
  | .frmCtrlPreempt _ => true
  | .frmCtrlStep _ _ => true
  | .doorbell _ => true
  | .entryFetch _ => true
  | .queueHoldEnd _ => true
  | .graphLaunch _ => true
  | .taskBatch _ => true
  | .copy _ => true
  | .waitSem _ => true
  | .waitSemTimeout _ => true
  | .signalSem _ => true
  | .barrier _ => true
  | .nopEntry _ => true
  | .createCtx semFirst => decide (semFirst < 131072)
  | .destroyCtx => true
  | .resumeCtx => true
  | .createQueue => true
  | .destroyQueue => true
  | .adoptCtx => true
  | .createCring => true
  | .destroyCring => true
  | .setSched => true
  | .queueQuiesced _ => true
  | .quiesceTimeout _ => true
  | .cringHeadPoll _ => true
  | .irqModerationExpiry _ => true
  | .hostReadFailure _ => true
  | .attach _ => true
  | .detach _ => true
  | .heartbeat _ => true
  | .heartbeatSample => true
  | .orphanLimitExpiry _ => true
  | .memTlbiVa _ _ => true
  | .memTlbiCtx _ => true
  | .memTlbiAll => true
  | .tlbiDone => true
  | .scanGo _ => true
  | .scanComplete _ _ => true
  | .dbgResetWarm _ => true
  | .dbgResetCold _ => true
  | .registerWrite _ _ size _ => goodSize size
  | .registerReadClear _ size => goodSize size
  | .hostAccessAbort off size _ => decide (off + size ≤ 0x8000000)
  | .bar2Access op => goodBar2 op
  | .allReduce _ => true
  | .reduceScatter _ => true
  | .allGather _ => true
  | .broadcast _ => true
  | .allToAll _ => true
  | .maxIdx _ => true
  | .minIdx _ => true
  | .commit _ => true
  | .timedCollectiveStart _ _ => true
  | .collectiveComplete _ _ => true
  | .collectiveTimeout _ _ => true
  | .resendRepeat _ _ => true
  | .data p => decide (p.data.length ≤ 224)
  | .tally p => decide (p.data.length ≤ 224)
  | .segAck p => decide (p.data.length ≤ 224)
  | .resend p => decide (p.data.length ≤ 224)
  | .jobHello p => decide (p.data.length ≤ 224)
  | .stepAbort p => decide (p.data.length ≤ 224)
  | .jobAbort p => decide (p.data.length ≤ 224)
  | .resultTally p => decide (p.data.length ≤ 224)
  | .dataFlit _ fl => fl.bytes.length == 256
  | .linkControlFlit _ fl => fl.bytes.length == 256
  | .linkHello _ _ _ _ => true
  | .unsupported _ hdr => hdr.length == 12
  | .creditViolation _ _ _ => true
  | .laneDrop _ _ count => decide (count.toNat ≤ 8)
  | .retrain _ _ => true
  | .quarantine _ _ => true
  | .bellFlit _ => true
  | .bReadRequest m => decide (1 ≤ m.len) && decide (m.len ≤ 4096)
  | .bReadData m => decide (m.data.length ≤ 224)
  | .bWrite m => decide (m.data.length ≤ 224) && goodErrs m.errs
  | .bWriteAcknowledgement _ _ => true
  | .errorResponse _ _ => true
  | .remoteRequestTimeout _ => true
  | .laneFailure _ _ => true
  | .routeChange _ => true
  | .trainingWaveStart _ => true
  | .trainingStateComplete _ _ => true
  | .trainingTimeout _ => true
  | .trainingRetry _ => true
  | .parkedPortRelease _ => true
  | .portLeaveQuarantine _ _ => true
  | .portQuarantine _ _ => true
  | .portRetrain _ _ => true
  | .waggleExchangeTimer => true
  | .waggleReq _ _ _ => true
  | .waggleRsp _ _ _ => true
  | .parentLost => true
  | .timedBellRelease _ => true
  | .powerSlotStart => true
  | .barrierMessage _ => true
  | .barrierResend _ => true
  | .scrubRead line o => decide (line < 0x40C000000) && goodObs o
  | .correctionWriteBack _ => true
  | .rowSpareComplete _ => true
  | .ledgerWindowEnd => true
  | .powerControlInterval _ _ => true
  | .powerFastCheck _ => true
  | .voltageStep _ _ => true
  | .vrAlert => true
  | .thermalForce _ => true
  | .thermalForceRelease _ => true
  | .thermalTrip _ => true
  | .thermalHoldEnd _ => true
  | .railFault _ => true
  | .railRecovery => true
  | .powerRemoved => true
  | .perstNAssert => true
  | .perstNRelease _ _ _ => true
  | .functionLevelReset => true
  | .warmReset => true
  | .watchdogExpiry _ => true
  | .coreRestartComplete _ => true
  | .jtagPinTakeover _ => true
  | .tapReset => true
  | .bootReq => true
  | .bootOffer _ _ _ => true
  | .chunkData region _ frag bytes => decide (region.toNat ≤ 2) && decide (frag < 64) && decide (bytes.length ≤ 1024)
  | .bootLoadAbandon => true
  | .bootRetry => true
  | .repairListTimeout => true
  | .apiaryHello => true
  | .mgmtKey _ key => key.length == 57
  | .wiringPlan _ _ _ _ => true
  | .eqHints _ _ _ => true
  | .repairList _ _ _ => true
  | .suspicion _ _ => true
  | .waggleRoot _ _ => true
  | .frameExclude _ _ => true
  | .powerCfg _ _ _ => true
  | .jobAdmit _ _ => true
  | .barrierSetup _ _ => true
  | .jobKill _ _ => true
  | .ledgerExport => true
  | .ledgerAck _ _ => true
  | .reportResend => true
  | .logReq _ _ _ => true
  | .attestReq _ _ => true
  | .statusReport => true
  | .ptpSync _ _ => true
  | .ptpAnnounce _ _ => true
  | .ptpSyncLoss => true
  | .powerUp => true
  | .flitSlot _ => true
  | .frameSelfTestComplete res => res.all goodTest
  | .atbInstrumentWrite _ _ _ _ => true
  | .routerAdvertisement _ => true
  | .resultEcho _ => true

end Sys2Proof
end

