-- ==== Sys2Proof/Certificates/Slice0/Obligations.lean ====
section
/-! DEFINITION. The statements of this model for the provers. -/

namespace Sys2Proof.Machine.Claim

/-- Frame `f` may issue an instruction now: firmware is up, a task runs, nothing is held or asked to stop, and no
register of `ds` is locked (R104, R145, R150). -/
def Ready (s : State) (f : FrameId) (ds : List Dest) : Prop :=
  s.up = true ∧ (s.frame f).mayIssue = true ∧ (s.frame f).held = none ∧ (s.frame f).locked ds = false

/-- The state after an instruction issued on frame `f` whose effect on the frame is `g`: the program counter is past
its `n` bytes, and a frame in step mode waits (R104, R145). Nothing else of the device differs. -/
def issued (s : State) (f : FrameId) (g : Frame → Frame) (n : BitVec 52 := 8) : State :=
  { s with toDev := s.toDev.updFrame f fun fr => { g fr with pc := fr.pc + n, held := none, stepWait := fr.step } }

/-- The state with another device and the same queue. -/
def withDev (s : State) (d : Dev) : State := { s with toDev := d }

/-- The state after a fault of a frame's task: nothing later issues, matrix instructions that have not begun to stream are
discarded, a start held for one of them with it, and the fault is recorded once what had issued is over (R97, R134). -/
def stopped (s : State) (f : FrameId) (r : FaultRec) : State :=
  withDev s (s.toDev.updFrame f fun fr => { fr.keepMma (fr.mmaQ.filter (·.streaming)) with
    state := .faulted, held := none, pend := some r })

/-- A frame's program counter moves past the 8 bytes of an instruction that issued. -/
def past (fr : Frame) : Frame := { fr with pc := fr.pc + 8, held := none, stepWait := fr.step }

/-- The unit that R144 names for a fault of an instruction. -/
def unitOf : Op → BitVec 4
  | .mmaF | .mmaH2 | .mmaQ4 => 1
  | .mov => 4
  | .tyinit | .tydata | .tyrd | .tywr => 5
  | .vadd | .vsub | .vmul | .vfma | .vmax | .vmin | .vabs | .vneg | .vcmp | .vsel | .vand | .vor | .vxor | .vshl
  | .vshr | .vexp2 | .vlog2 | .vrcp | .vrsqrt | .vsqrt | .vexp | .vtanh | .vsigm | .vrsum | .vrmax | .vrmin | .cvt
  | .cvtg | .gadd | .cvtx => 3
  | _ => 0

/-- Writing registers only. -/
def regs (g : Regs → Regs) (fr : Frame) : Frame := { fr with regs := g fr.regs }

/-- The state after a branch to an address. -/
def jumped (s : State) (f : FrameId) (pc : BitVec 52) : State :=
  { s with toDev := s.toDev.updFrame f fun fr => { fr with pc := pc, held := none, stepWait := fr.step } }

/-- The comparison a code of R152 names, between two words. -/
def holds (code : Nat) (a b : Word) : Prop :=
  match code with
  | 0 => a = b | 1 => a ≠ b | 2 => a.toInt < b.toInt | 3 => b.toInt ≤ a.toInt | 4 => a.toNat < b.toNat
  | _ => b.toNat ≤ a.toNat

end Sys2Proof.Machine.Claim

section
open Sys2Proof Sys2Proof.Machine Sys2Proof.Machine.Claim


/-! ### The queue and the device as a whole -/

/-- Step takes the command at the front of the queue and runs it with the rest of the queue. -/
def Obligations.StepRunsFront : Prop :=
  ∀ (c : Instr) (cs : List Instr) (s : State), step { s with pending := c :: cs } = exec c { s with pending := cs }

/-- With no command waiting, one nanosecond passes (the model's choice, assumption 2). The Waggle counter advances by 1 ns
at its rate; each credit channel with a task in its queue counts the engine clock's cycles for MKT_CRD_WAIT; MKT_STALL_IDLE
of a stall counts them once for each of its frames that is idle with no task to take; RAMP_HOLD counts them where a start is
held. Nothing else of the device changes, and the queue stays empty. -/
def Obligations.EmptyQueueTicks : Prop :=
  ∀ s : State, s.pending = [] → SMap.rising s.mkt.stallIdle = true →
    let n := (s.ns + 1) * 17 / 10 - s.ns * 17 / 10
    ∃ d : Dev, step s = .next { s with toDev := d }
      ∧ ((d.wag.ctr.toNat * 2 ^ 16 + d.wag.sub.toNat : Nat) : Int)
          = (s.wag.ctr.toNat * 2 ^ 16 + s.wag.sub.toNat + 2 ^ 32 + s.wag.rate) % 2 ^ 96
      ∧ (∀ i, SMap.get? d.mkt.credits i = (SMap.get? s.mkt.credits i).map fun c => { c with
          cycles := if c.waiters = [] then c.cycles else c.cycles + BitVec.ofNat 64 n })
      ∧ (∀ k : BitVec 9, ((SMap.get? d.mkt.stallIdle k.toNat).getD 0 : Word)
          = (SMap.get? s.mkt.stallIdle k.toNat).getD 0
            + BitVec.ofNat 64 (n * s.fr.toList.countP fun fr => fr.stall == k && s.idleFrame fr))
      ∧ (∀ f, d.frame f = { s.frame f with ramp := { (s.frame f).ramp with
          rampHold := (s.frame f).ramp.rampHold + if (s.frame f).ramp.startHold then BitVec.ofNat 16 n else 0 } })
      ∧ d = { s.toDev with
          ns := s.ns + 1
          wag := { s.wag with ctr := d.wag.ctr, sub := d.wag.sub }
          mkt := { s.mkt with credits := d.mkt.credits, stallIdle := d.mkt.stallIdle }
          fr := d.fr }

/-- Every command ends in a next state, whose queue is the one it was given (assumption 1). -/
def Obligations.CommandsLeaveQueue : Prop :=
  ∀ (c : Instr) (s : State), ∃ d : Dev, exec c s = .next { s with toDev := d }

/-! ### Scalar instructions (R151, R152, R154) -/

/-- ADD to SRA write one s register and nothing else of the registers, for every choice of registers. -/
def Sys2Proof.Machine.Claim.ScalarThreeRegister : Prop :=
  ∀ (s : State) (f : FrameId) (x : Insn), Ready s f [.s x.dst, .s x.a, .s x.b] → x.c = 0 → x.mod = 0 →
    let a := (s.frame f).regs.getS x.a
    let b := (s.frame f).regs.getS x.b
    let n := b.toNat % 64
    let d := fun v : Word => issued s f (regs fun r => { r with s := r.s.set x.dst.toNat v })
    exec (.add f x) s = .next (d (BitVec.ofNat 64 (a.toNat + b.toNat)))
      ∧ exec (.sub f x) s = .next (d (BitVec.ofInt 64 ((a.toNat : Int) - b.toNat)))
      ∧ exec (.mul f x) s = .next (d (BitVec.ofNat 64 (a.toNat * b.toNat)))
      ∧ exec (.andS f x) s = .next (d (a &&& b))
      ∧ exec (.orS f x) s = .next (d (a ||| b))
      ∧ exec (.xorS f x) s = .next (d (a ^^^ b))
      ∧ exec (.shl f x) s = .next (d (BitVec.ofNat 64 (a.toNat * 2 ^ n)))
      ∧ exec (.shr f x) s = .next (d (BitVec.ofNat 64 (a.toNat / 2 ^ n)))
      ∧ exec (.sra f x) s = .next (d (BitVec.ofInt 64 (a.toInt / 2 ^ n)))

/-- ADDI and ANDI with MOD sign-extended; SHLI and SHRI with a count below 64. -/
def Sys2Proof.Machine.Claim.ScalarImmediate : Prop :=
  ∀ (s : State) (f : FrameId) (x : Insn), Ready s f [.s x.dst, .s x.a] → x.b = 0 → x.c = 0 →
    let a := (s.frame f).regs.getS x.a
    let d := fun v : Word => issued s f (regs fun r => { r with s := r.s.set x.dst.toNat v })
    exec (.addi f x) s = .next (d (BitVec.ofInt 64 (a.toInt + x.mod.toInt)))
      ∧ exec (.andi f x) s = .next (d (a &&& BitVec.ofInt 64 x.mod.toInt))
      ∧ (x.mod.toNat < 64 →
          exec (.shli f x) s = .next (d (BitVec.ofNat 64 (a.toNat * 2 ^ x.mod.toNat)))
            ∧ exec (.shri f x) s = .next (d (BitVec.ofNat 64 (a.toNat / 2 ^ x.mod.toNat))))

/-- CMP and CMPI write every lane of their predicate register by the six codes of R152; k0 keeps its value. The two
reserved codes are an illegal instruction. -/
def Sys2Proof.Machine.Claim.Comparisons : Prop :=
  ∀ (s : State) (f : FrameId) (x : Insn), x.c = 0 → x.dst.toNat < 8 →
    let r := (s.frame f).regs
    let put := fun v : BitVec 256 => issued s f (if x.dst = 0 then id else
      regs fun r => { r with k := r.k.setIfInBounds x.dst.toNat v })
    let ks : List Dest := if x.dst = 0 then [] else [.k x.dst]
    (x.mod.toNat < 6 → Ready s f ([.s x.a, .s x.b] ++ ks) →
        (holds x.mod.toNat (r.getS x.a) (r.getS x.b) → exec (.cmp f x) s = .next (put (BitVec.allOnes 256)))
        ∧ (¬ holds x.mod.toNat (r.getS x.a) (r.getS x.b) → exec (.cmp f x) s = .next (put 0)))
      ∧ (x.mod.toNat % 256 < 6 → x.b = 0 → Ready s f ([.s x.a] ++ ks) →
        let imm : Word := BitVec.ofInt 64 (x.mod.toInt / 256)
        (holds (x.mod.toNat % 256) (r.getS x.a) imm → exec (.cmpi f x) s = .next (put (BitVec.allOnes 256)))
        ∧ (¬ holds (x.mod.toNat % 256) (r.getS x.a) imm → exec (.cmpi f x) s = .next (put 0)))
      ∧ (let bad := fun op : Op => stopped s f { code := 0x01, unit := 0, precise := true, insn := insnWord op x }
        Ready s f [] →
        ((x.mod.toNat = 6 ∨ x.mod.toNat = 7) → exec (.cmp f x) s = .next (bad .cmp))
          ∧ ((x.mod.toNat % 256 = 6 ∨ x.mod.toNat % 256 = 7) → exec (.cmpi f x) s = .next (bad .cmpi)))

/-- KAND, KOR and KNOT combine predicate registers lane by lane, where k0 reads as all ones and is not written. -/
def Sys2Proof.Machine.Claim.PredicateLogic : Prop :=
  ∀ (s : State) (f : FrameId) (x : Insn), x.c = 0 → x.mod = 0 → x.dst.toNat < 8 → x.a.toNat < 8 →
    let val := fun i : BitVec 6 => if i = 0 then BitVec.allOnes 256 else (s.frame f).regs.k.toList.getD i.toNat 0
    let put := fun v : BitVec 256 => issued s f (if x.dst = 0 then id else
      regs fun r => { r with k := r.k.setIfInBounds x.dst.toNat v })
    (x.b.toNat < 8 → Ready s f ([x.dst, x.a, x.b].filter (· != 0) |>.map .k) →
        exec (.kand f x) s = .next (put (val x.a &&& val x.b))
          ∧ exec (.kor f x) s = .next (put (val x.a ||| val x.b)))
      ∧ (x.b = 0 → Ready s f ([x.dst, x.a].filter (· != 0) |>.map .k) →
        exec (.knot f x) s = .next (put (~~~val x.a)))

/-- NOP, and the moves between s and a registers. -/
def Sys2Proof.Machine.Claim.AddressRegisters : Prop :=
  ∀ (s : State) (f : FrameId) (x : Insn), x.b = 0 → x.c = 0 →
    let r := (s.frame f).regs
    let putA := fun v : Word => issued s f (regs fun r => { r with a := r.a.setIfInBounds x.dst.toNat v })
    let getA := r.a.toList.getD x.a.toNat 0
    (x.dst = 0 → x.a = 0 → x.mod = 0 → Ready s f [] → exec (.nop f x) s = .next (issued s f id))
      ∧ (x.dst.toNat < 16 → x.mod = 0 → Ready s f [.s x.a] → exec (.amov f x) s = .next (putA (r.getS x.a)))
      ∧ (x.dst.toNat < 16 → x.a.toNat < 16 → Ready s f [] →
          exec (.aadd f x) s = .next (putA (BitVec.ofInt 64 (getA.toInt + x.mod.toInt))))
      ∧ (x.a.toNat < 16 → x.mod = 0 → Ready s f [.s x.dst] →
          exec (.smova f x) s = .next (issued s f (regs fun r => { r with s := r.s.set x.dst.toNat getA })))

/-- The two-word forms write their second word and step over both words (R154). -/
def Sys2Proof.Machine.Claim.TwoWordForms : Prop :=
  ∀ (s : State) (f : FrameId) (x : Insn) (imm : Word), x.a = 0 → x.b = 0 → x.c = 0 → x.mod = 0 →
    (Ready s f [.s x.dst] →
        exec (.li64 f x imm) s = .next (issued s f (regs fun r => { r with s := r.s.set x.dst.toNat imm }) 16))
      ∧ (x.dst.toNat < 16 → Ready s f [] →
        exec (.ai64 f x imm) s = .next (issued s f (regs fun r => { r with a := r.a.setIfInBounds x.dst.toNat imm }) 16))

/-- Branches: B always, BZ and BNZ on an s register, BR to a register (R151). An untaken branch goes on to the next word;
offsets count words from the branch itself. No branch asks whether its target is granted (R153). -/
def Sys2Proof.Machine.Claim.Branches : Prop :=
  ∀ (s : State) (f : FrameId) (x : Insn), x.dst = 0 → x.b = 0 → x.c = 0 →
    let r := (s.frame f).regs
    let go := fun off : Int => jumped s f (BitVec.ofInt 52 ((s.frame f).pc.toNat + 8 * off))
    (x.a = 0 → Ready s f [] → exec (.b f x) s = .next (go x.mod.toInt))
      ∧ (Ready s f [.s x.a] →
          exec (.bz f x) s = .next (if r.getS x.a = 0 then go x.mod.toInt else issued s f id)
            ∧ exec (.bnz f x) s = .next (if r.getS x.a ≠ 0 then go x.mod.toInt else issued s f id)
            ∧ (x.mod = 0 → (r.getS x.a).toNat % 8 = 0 →
                exec (.br f x) s = .next (jumped s f ((r.getS x.a).setWidth 52))))

/-- BK tests that some lane is 1, or that every lane is, as its modifier selects (R111). -/
def Sys2Proof.Machine.Claim.BranchOnPredicate : Prop :=
  ∀ (s : State) (f : FrameId) (x : Insn), x.dst = 0 → x.b = 0 → x.c = 0 → x.a.toNat < 8 →
    Ready s f (if x.a = 0 then [] else [.k x.a]) →
    let go := jumped s f (BitVec.ofInt 52 ((s.frame f).pc.toNat + 8 * (x.mod.toInt / 256)))
    let k := if x.a = 0 then BitVec.allOnes 256 else (s.frame f).regs.k.toList.getD x.a.toNat 0
    (x.mod.toNat % 256 = 0 → exec (.bk f x) s = .next (if k ≠ 0 then go else issued s f id))
      ∧ (x.mod.toNat % 256 = 1 → exec (.bk f x) s = .next (if k = BitVec.allOnes 256 then go else issued s f id))

/-- A misaligned target of BR faults the frame with a fetch fault at the target, and the frame stops (R153). -/
def Sys2Proof.Machine.Claim.BranchRegisterMisaligned : Prop :=
  ∀ (s : State) (f : FrameId) (x : Insn), x.dst = 0 → x.b = 0 → x.c = 0 → x.mod = 0 → Ready s f [.s x.a] →
    ((s.frame f).regs.getS x.a).toNat % 8 ≠ 0 →
    exec (.br f x) s = .next (stopped s f {
      code := 0x0A, unit := 0, precise := true, addrV := true, space := true
      addr := ((s.frame f).regs.getS x.a).setWidth 52, insn := insnWord .br x })
/-! ### Waits and held instructions (R131, R186) -/

/-- A counter wait whose counter has reached the value issues; one whose counter has not is held and changes nothing
else. AC and MC take the value from MOD, ACR and MCR from an s register whose upper half is zero. -/
def Sys2Proof.Machine.Claim.CounterWaits : Prop :=
  ∀ (s : State) (f : FrameId) (x : Insn), x.b = 0 → x.c = 0 →
    let r := (s.frame f).regs
    let out := fun (op : Op) (v : Nat) (c : BitVec 32) =>
      if v ≤ c.toNat then issued s f id
      else withDev s (s.toDev.updFrame f fun fr => { fr with held := some { op := op, x := x } })
    let v := (r.getS x.a).toNat
    (∀ h : x.dst.toNat < 16,
        (x.a = 0 → Ready s f [] → exec (.waitAc f x) s = .next (out .waitAc x.mod.toNat r.ac[x.dst.toNat]))
        ∧ (x.mod = 0 → v < 2 ^ 32 → Ready s f [.s x.a] →
            exec (.waitAcr f x) s = .next (out .waitAcr v r.ac[x.dst.toNat])))
      ∧ (∀ h : x.dst.toNat < 8,
        (x.a = 0 → Ready s f [] → exec (.waitMc f x) s = .next (out .waitMc x.mod.toNat r.mc[x.dst.toNat]))
        ∧ (x.mod = 0 → v < 2 ^ 32 → Ready s f [.s x.a] →
            exec (.waitMcr f x) s = .next (out .waitMcr v r.mc[x.dst.toNat])))

/-- WAIT.ALL issues when every unit queue is empty and every instruction and move issued has completed, and is held
otherwise. -/
def Sys2Proof.Machine.Claim.WaitAll : Prop :=
  ∀ (s : State) (f : FrameId) (x : Insn), x = {} → Ready s f [] →
    let fr := s.frame f
    ((fr.mmaQ = [] ∧ fr.vecQ = [] ∧ fr.tyQ = [] ∧ fr.loads = [] ∧ fr.stores = [] ∧ ∀ m ∈ fr.moves, m.acked = true) →
        exec (.waitAll f x) s = .next (issued s f id))
      ∧ (¬ (fr.mmaQ = [] ∧ fr.vecQ = [] ∧ fr.tyQ = [] ∧ fr.loads = [] ∧ fr.stores = [] ∧ ∀ m ∈ fr.moves, m.acked = true) →
        exec (.waitAll f x) s
          = .next (withDev s (s.toDev.updFrame f fun fr => { fr with held := some { op := .waitAll, x := x } })))

/-- A held counter wait whose counter has reached its value issues when the hold is released; one whose counter has
not stays held. -/
def Sys2Proof.Machine.Claim.HoldRelease : Prop :=
  ∀ (s : State) (f : FrameId) (x : Insn) (h : x.dst.toNat < 16), x.a = 0 → x.b = 0 → x.c = 0 →
    s.up = true → (s.frame f).mayIssue = true → (s.frame f).held = some { op := .waitAc, x := x } →
    (s.frame f).mmaQ = [] → (s.frame f).tyQ = [] →
    (x.mod.toNat ≤ ((s.frame f).regs.ac[x.dst.toNat]).toNat →
        exec (.issueHoldRelease f) s = .next (issued s f id))
      ∧ (((s.frame f).regs.ac[x.dst.toNat]).toNat < x.mod.toNat → exec (.issueHoldRelease f) s = .next s)

/-! ### Illegal instructions (R108, R139) -/

/-- The register classes an instruction's four fields name: none for a field it does not use, for the instructions
whose fields do not depend on a modifier. -/
def Sys2Proof.Machine.Claim.classes : Op → Option (Option Nat × Option Nat × Option Nat × Option Nat)
  | .nop | .b | .waitAll => some (none, none, none, none)
  | .add | .sub | .mul | .andS | .orS | .xorS | .shl | .shr | .sra => some (some 64, some 64, some 64, none)
  | .addi | .andi | .shli | .shri | .lds | .ldsl => some (some 64, some 64, none, none)
  | .cmp => some (some 8, some 64, some 64, none)
  | .cmpi => some (some 8, some 64, none, none)
  | .amov => some (some 16, some 64, none, none)
  | .aadd => some (some 16, some 16, none, none)
  | .smova | .lda => some (some 64, some 16, none, none)
  | .kand | .kor => some (some 8, some 8, some 8, none)
  | .knot => some (some 8, some 8, none, none)
  | .bz | .bnz | .br | .tyinit | .tywr => some (none, some 64, none, none)
  | .bk => some (none, some 8, none, none)
  | .li64 | .tyrd => some (some 64, none, none, none)
  | .ai64 => some (some 16, none, none, none)
  | .mov | .cvt | .cvtx => some (some 32, some 32, none, none)
  | .tld | .tldl | .twr | .text => some (some 32, some 64, none, none)
  | .trd => some (some 64, some 32, none, none)
  | .taddb => some (some 32, none, none, none)
  | .tst => some (none, some 64, some 32, none)
  | .sts | .stsl => some (none, some 64, some 64, none)
  | .sta => some (none, some 16, some 64, none)
  | .tydata => some (none, some 32, none, none)
  | .cvtg => some (some 32, some 32, some 64, none)
  | .gadd | .vadd | .vsub | .vmul | .vmax | .vmin | .vand | .vor | .vxor | .vshl | .vshr =>
    some (some 32, some 32, some 32, none)
  | .vfma => some (some 32, some 32, some 32, some 32)
  | .vsel => some (some 32, some 32, some 32, some 8)
  | .vcmp => some (some 8, some 32, some 32, none)
  | .vabs | .vneg | .vexp2 | .vlog2 | .vrcp | .vrsqrt | .vsqrt | .vexp | .vtanh | .vsigm | .vrsum =>
    some (some 32, some 32, none, none)
  | .vrmax | .vrmin => some (some 32, some 32, none, some 32)
  | .waitAc => some (some 16, none, none, none)
  | .waitMc => some (some 8, none, none, none)
  | .waitAcr => some (some 16, some 64, none, none)
  | .waitMcr => some (some 8, some 64, none, none)
  | _ => none

/-- A field is wrong for a class: beyond its registers, or not zero where the instruction does not use it. -/
def Sys2Proof.Machine.Claim.wrong (cls : Option Nat) (i : BitVec 6) : Prop :=
  match cls with
  | none => i ≠ 0
  | some n => n ≤ i.toNat

/-- A register field beyond its class, or a field not used that is not zero, is an illegal instruction: the frame
stops with fault 0x01, precise, naming the instruction and its unit, and writes nothing else (R108, R139, R144). -/
def Obligations.IllegalFields : Prop :=
  ∀ (s : State) (f : FrameId) (op : Op) (x : Insn) (imm : Word) (cd ca cb cc : Option Nat),
    classes op = some (cd, ca, cb, cc) → wrong cd x.dst ∨ wrong ca x.a ∨ wrong cb x.b ∨ wrong cc x.c →
    Ready s f [] → (unitOf op = 5 → (s.frame f).tyQ = []) →
    exec (insnCommand f op x imm) s
      = .next (stopped s f { code := 0x01, unit := unitOf op, precise := true, insn := insnWord op x })

/-! ### Tally instructions (R183–R185) -/

/-- In an empty tally unit TYINIT selects the polynomial, sets all ones and folds the seed prefix; TYRD reads the running
value; TYWR writes it, and clears the channel's poison. A CRC-32C channel refuses a value wider than 32 bits. -/
def Sys2Proof.Machine.Claim.TallyChannels : Prop :=
  ∀ (s : State) (f : FrameId) (x : Insn), x.b = 0 → x.c = 0 →
    let fr := s.frame f
    let ch := x.mod.toNat % 64
    let old := fr.chans[ch]'(Nat.mod_lt _ (by decide))
    let fed := ∀ m ∈ fr.moves, m.tch = some ⟨ch, Nat.mod_lt _ (by decide)⟩ → m.acked = true ∨ m.front = m.lines
    let put := fun c : Chan => issued s f fun fr => { fr with
      chans := fr.chans.set ch c (Nat.mod_lt _ (by decide)), stamp := fr.stamp + 1 }
    let at_ := fun k : Nat => (fr.regs.getS (x.a + BitVec.ofNat 6 k)).toNat
    let seed := le 2 (at_ 0) ++ le 2 (at_ 1) ++ le 2 (at_ 3 % 2 ^ 15) ++ [0, 0] ++ le 8 (at_ 2)
    fr.tyQ = [] → fed →
    (x.dst = 0 → x.a.toNat ≤ 60 → x.mod.toNat < 128 →
        Ready s f [.s x.a, .s (x.a + 1), .s (x.a + 2), .s (x.a + 3)] →
        exec (.tyinit f x) s = .next (put (if x.mod.toNat < 64 then { crc32 := false, v := crc64Run (BitVec.allOnes 64) seed }
          else { crc32 := true, v := (crc32Run (BitVec.allOnes 32) seed).setWidth 64 })))
      ∧ (x.a = 0 → x.mod.toNat < 64 → old.poison = false → Ready s f [.s x.dst] →
        exec (.tyrd f x) s = .next (issued s f fun fr => { fr with
          regs := { fr.regs with s := fr.regs.s.set x.dst.toNat old.v }, stamp := fr.stamp + 1 }))
      ∧ (x.dst = 0 → x.mod.toNat < 64 → Ready s f [.s x.a] →
        (old.crc32 = false ∨ at_ 0 < 2 ^ 32 →
          exec (.tywr f x) s = .next (put { crc32 := old.crc32, v := fr.regs.getS x.a }))
        ∧ (old.crc32 = true → 2 ^ 32 ≤ at_ 0 → exec (.tywr f x) s
          = .next (stopped s f { code := 0x01, unit := 5, precise := true, insn := insnWord .tywr x })))

/-- TYDATA feeds the bytes of its rows, each once and in walk order, to the channel: at once in an empty tally unit whose
channel no earlier move feeds (the model's reading of when: assumption 13). While an earlier move still feeds the channel, or
the instruction at the front of the unit's queue waits so for its own, it joins the queue; while 16 instructions are in the
queue, it holds issue (R105). -/
def Sys2Proof.Machine.Claim.TallyData : Prop :=
  ∀ (s : State) (f : FrameId) (x : Insn), x.dst = 0 → x.b = 0 → x.c = 0 → x.a.toNat < 32 → x.mod.toNat < 64 →
    let fr := s.frame f
    let r := fr.regs.getT x.a
    let t := r.shape
    let ch : Fin 64 := ⟨x.mod.toNat % 64, Nat.mod_lt _ (by decide)⟩
    let as_ := (List.range (t.e1 * t.e2 * t.e3)).flatMap fun k =>
      (List.range t.rowBytes).map fun o => lsAddr f (t.rowAddr k + o)
    let c := (fr.chans[ch.val]).feed (as_.map s.mem.byte) (as_.any s.mem.poisonedAt)
    let fed := fun (ch : Fin 64) (before : Nat) => ∀ m ∈ fr.moves, m.tch = some ch → m.stamp < before →
      m.acked = true ∨ m.front = m.lines
    let waits := (fr.tyQ = [] ∧ ¬ fed ch fr.stamp)
      ∨ ∃ e es c' t', fr.tyQ = e :: es ∧ e.job = .data c' t' ∧ ¬ fed c' e.stamp
    Ready s f [.t x.a] → r.ok = true → t.space = false → r.known = true → (t.scaled = true → t.fmt.scalable = true) →
    0 ≤ t.lo → t.hi ≤ 0x800000 → fr.overlaps [t.span false] = false →
    (fr.tyQ = [] → fed ch fr.stamp → exec (.tydata f x) s = .next (issued s f fun fr => { fr with
        chans := fr.chans.set ch.val c, poison := fr.poison || c.poison, stamp := fr.stamp + 1 }))
      ∧ (fr.tyQ.length < 16 → waits → exec (.tydata f x) s = .next (issued s f fun fr => { fr with
          tyQ := fr.tyQ ++ [{ stamp := fr.stamp, job := .data ch t }], stamp := fr.stamp + 1 }))
      ∧ (16 ≤ fr.tyQ.length → waits → exec (.tydata f x) s
          = .next (withDev s (s.toDev.updFrame f fun fr => { fr with held := some { op := .tydata, x := x } })))

/-! ### Descriptor registers (R178, R179) -/

/-- TWR packs eight s registers into a descriptor and marks it valid; TRD unpacks one; TADDB adds to the base within
its field; TEXT writes one extent. -/
def Sys2Proof.Machine.Claim.DescriptorRegisters : Prop :=
  ∀ (s : State) (f : FrameId) (x : Insn), x.c = 0 → x.b = 0 →
    let r := (s.frame f).regs
    let eight := fun i : BitVec 6 => (List.range 8).map fun k => i + BitVec.ofNat 6 k
    let putT := fun t : TReg => issued s f (regs fun r => { r with t := r.t.setIfInBounds x.dst.toNat t })
    let old := r.getT x.dst
    (x.dst.toNat < 32 → x.a.toNat ≤ 56 → x.mod = 0 → Ready s f (.t x.dst :: (eight x.a).map .s) →
        let w := ((List.range 8).map fun k => (r.getS (x.a + BitVec.ofNat 6 k)).toNat * 2 ^ (64 * k)).sum
        exec (.twr f x) s = .next (putT { valid := true, desc := BitVec.ofNat 512 w }))
      ∧ (x.a.toNat < 32 → x.dst.toNat ≤ 56 → x.mod = 0 → (r.getT x.a).valid = true →
          Ready s f (.t x.a :: (eight x.dst).map .s) →
        exec (.trd f x) s = .next (issued s f (regs fun r' => (List.range 8).foldl (fun r' k =>
          r'.setS (x.dst + BitVec.ofNat 6 k) ((r.getT x.a).desc.extractLsb' (64 * k) 64)) r')))
      ∧ (x.dst.toNat < 32 → x.a = 0 → old.valid = true → Ready s f [.t x.dst] →
        ∃ v : BitVec 512, exec (.taddb f x) s = .next (putT { old with desc := v })
          ∧ (let w := if old.desc.getLsbD (8 * 0x31 + 3) then 52 else 23
             v.toNat % 2 ^ w = (old.desc.toNat % 2 ^ w + x.mod.toInt.toNat
               + (2 ^ w - (-x.mod.toInt).toNat % 2 ^ w)) % 2 ^ w ∧ v.toNat / 2 ^ w = old.desc.toNat / 2 ^ w))
      ∧ (x.dst.toNat < 32 → x.mod.toNat < 4 → (r.getS x.a).toNat < 2 ^ 32 → old.valid = true →
          Ready s f [.t x.dst, .s x.a] →
        ∃ v : BitVec 512, exec (.text f x) s = .next (putT { old with desc := v })
          ∧ ∀ i : Nat, i < 512 → v.getLsbD i =
              if 64 + 32 * x.mod.toNat ≤ i ∧ i < 96 + 32 * x.mod.toNat
              then (r.getS x.a).getLsbD (i - (64 + 32 * x.mod.toNat)) else old.desc.getLsbD i)

/-- TRD, TADDB and TEXT on an invalid t register fault with an invalid descriptor and change no register (R179). -/
def Sys2Proof.Machine.Claim.InvalidDescriptorRegister : Prop :=
  ∀ (s : State) (f : FrameId) (x : Insn), x.c = 0 → x.b = 0 →
    let r := (s.frame f).regs
    let eight := fun i : BitVec 6 => (List.range 8).map fun k => i + BitVec.ofNat 6 k
    let bad := fun op : Op => stopped s f { code := 0x03, unit := 0, precise := true, insn := insnWord op x }
    (x.a.toNat < 32 → x.dst.toNat ≤ 56 → x.mod = 0 → (r.getT x.a).valid = false →
        Ready s f (.t x.a :: (eight x.dst).map .s) → exec (.trd f x) s = .next (bad .trd))
      ∧ (x.dst.toNat < 32 → x.a = 0 → (r.getT x.dst).valid = false → Ready s f [.t x.dst] →
        exec (.taddb f x) s = .next (bad .taddb))
      ∧ (x.dst.toNat < 32 → x.mod.toNat < 4 → (r.getS x.a).toNat < 2 ^ 32 → (r.getT x.dst).valid = false →
        Ready s f [.t x.dst, .s x.a] → exec (.text f x) s = .next (bad .text))

/-! ### Sequencer loads and stores (R178, R180) -/

/-- No sequencer access waits for another device, and the bytes are free of instructions in flight (R107, R180). -/
def Sys2Proof.Machine.Claim.Free (s : State) (f : FrameId) (space : Bool) (a size : Nat) (write : Bool) : Prop :=
  (∀ l ∈ (s.frame f).loads, l.tag = none) ∧ (∀ t ∈ (s.frame f).stores, t.tag = none)
    ∧ (s.frame f).overlaps [{ space := space, lo := a, hi := a + size, write := write }] = false

/-- TLDL and LDSL read 64 or 8 bytes of the local store at s(a) + imm, the low bits of the address ignored; the
register is locked until the data lands. -/
def Sys2Proof.Machine.Claim.LocalLoads : Prop :=
  ∀ (s : State) (f : FrameId) (x : Insn), x.b = 0 → x.c = 0 →
    let base := ((s.frame f).regs.getS x.a + x.mod.signExtend 64).toNat
    let go := fun (op : Op) (d : Dest) (size : Nat) => let a := base / size * size
      issued s f fun fr => { fr with loads := fr.loads ++ [{
        dst := d, word := insnWord op x, addr := BitVec.ofNat 52 a, data := s.mem.read (lsAddr f a) size
        poison := s.mem.readPoison (lsAddr f a) size, pa := some (lsAddr f a) }] }
    (x.dst.toNat < 32 → Ready s f [.t x.dst, .s x.a] → base / 64 * 64 + 64 ≤ 0x800000 →
        Free s f false (base / 64 * 64) 64 false → exec (.tldl f x) s = .next (go .tldl (.t x.dst) 64))
      ∧ (Ready s f [.s x.dst, .s x.a] → base / 8 * 8 + 8 ≤ 0x800000 → Free s f false (base / 8 * 8) 8 false →
        exec (.ldsl f x) s = .next (go .ldsl (.s x.dst) 8))

/-- TLD, LDS and LDA read bytes of this device through the context's tables, within the declared effects; LDA then
adds imm to its address register. The translation leaves its entry in the TLBs. -/
def Sys2Proof.Machine.Claim.VirtualLoads : Prop :=
  ∀ (s : State) (f : FrameId) (x : Insn) (pa : Nat), x.b = 0 → x.c = 0 →
    let fr := s.frame f
    let base := (fr.regs.getS x.a + x.mod.signExtend 64).toNat
    let tr := fun a : Nat => s.toDev.xlate f.val fr.ctx a .read
    let ok := fun a size : Nat => a < 2 ^ 52 ∧ fr.ungranted .r a (a + size) = none
      ∧ Free s f true a size false ∧ (tr a).2 = .ok (none, pa)
    let go := fun (op : Op) (d : Dest) (size a : Nat) (g : Regs → Regs) =>
      issued (withDev s (tr a).1) f fun fr => { fr with
        regs := g fr.regs
        loads := fr.loads ++ [{
          dst := d, word := insnWord op x, addr := BitVec.ofNat 52 a, data := s.mem.read pa size
          poison := s.mem.readPoison pa size, pa := some pa, virt := true }] }
    (x.dst.toNat < 32 → Ready s f [.t x.dst, .s x.a] → ok (base / 64 * 64) 64 →
        exec (.tld f x) s = .next (go .tld (.t x.dst) 64 (base / 64 * 64) id))
      ∧ (Ready s f [.s x.dst, .s x.a] → ok (base / 8 * 8) 8 →
        exec (.lds f x) s = .next (go .lds (.s x.dst) 8 (base / 8 * 8) id))
      ∧ (x.a.toNat < 16 → Ready s f [.s x.dst] → ok ((fr.regs.getA x.a).toNat / 8 * 8) 8 →
        exec (.lda f x) s = .next (go .lda (.s x.dst) 8 ((fr.regs.getA x.a).toNat / 8 * 8) fun r =>
          { r with a := r.a.setIfInBounds x.a.toNat (r.getA x.a + x.mod.signExtend 64) }))

/-- Of all bytes of memory only those from an address on have changed, and they hold what was stored, but for lines that
are retired (R180, R225). -/
def Sys2Proof.Machine.Claim.Stored (s t : State) (pa : Nat) (bs : List Byte) : Prop :=
  (∀ b : Nat, b < pa ∨ pa + bs.length ≤ b → t.mem.byte b = s.mem.byte b)
    ∧ ∀ i : Nat, i < bs.length → s.mem.isRetired (pa + i) = false → t.mem.byte (pa + i) = bs.getD i 0

/-- STSL stores 8 bytes to the local store at s(a) + imm, its low bits ignored, when the bytes lie in the local store and no
instruction in flight uses them; the store stays open until it is acknowledged (R107, R178, R180). Every other byte of memory,
every register, every other frame and the rest of the device keep their values. -/
def Sys2Proof.Machine.Claim.LocalStore : Prop :=
  ∀ (s : State) (f : FrameId) (x : Insn), x.dst = 0 → x.c = 0 → Ready s f [.s x.a, .s x.b] →
    let a := ((s.frame f).regs.getS x.a + x.mod.signExtend 64).toNat / 8 * 8
    let bs := le 8 ((s.frame f).regs.getS x.b).toNat
    let t := issued (withDev s (s.toDev.write (lsAddr f a) bs)) f fun fr => { fr with
      stores := fr.stores ++ [{ word := insnWord .stsl x, addr := BitVec.ofNat 52 a }] }
    a + 8 ≤ 0x800000 → Free s f false a 8 true →
    exec (.stsl f x) s = .next t ∧ (s.mem.wf = true → Stored s t (lsAddr f a) bs)

/-- TST, STS and STA store to this device through the context's tables, within the declared effects, when no instruction in
flight uses the bytes; STA then adds imm to its address register (R121, R178, R180). The address stored to is the one the
tables give for s(a) + imm, or a(a), with its low bits ignored; every other byte of memory keeps its value, and of the
rest of the device only the TLBs change. -/
def Sys2Proof.Machine.Claim.VirtualStores : Prop :=
  ∀ (s : State) (f : FrameId) (x : Insn) (pa : Nat), x.dst = 0 → x.c = 0 →
    let fr := s.frame f
    let base := (fr.regs.getS x.a + x.mod.signExtend 64).toNat
    let at_ := (fr.regs.getA x.a).toNat / 8 * 8
    let tr := fun a : Nat => s.toDev.xlate f.val fr.ctx a .write
    let ok := fun a size : Nat => a < 2 ^ 52 ∧ fr.ungranted .w a (a + size) = none
      ∧ Free s f true a size true ∧ (tr a).2 = .ok (none, pa)
    let go := fun (op : Op) (a : Nat) (bs : List Byte) (g : Regs → Regs) =>
      issued (withDev s ((tr a).1.write pa bs)) f fun fr => { fr with
        regs := g fr.regs
        stores := fr.stores ++ [{ word := insnWord op x, addr := BitVec.ofNat 52 a, virt := true }] }
    let word := le 8 (fr.regs.getS x.b).toNat
    let desc := le 64 (fr.regs.getT x.b).desc.toNat
    let moved := fun r : Regs => { r with a := r.a.setIfInBounds x.a.toNat (r.getA x.a + x.mod.signExtend 64) }
    (x.b.toNat < 32 → (fr.regs.getT x.b).valid = true → Ready s f [.s x.a, .t x.b] → ok (base / 64 * 64) 64 →
        exec (.tst f x) s = .next (go .tst (base / 64 * 64) desc id)
          ∧ (s.mem.wf = true → Stored s (go .tst (base / 64 * 64) desc id) pa desc))
      ∧ (Ready s f [.s x.a, .s x.b] → ok (base / 8 * 8) 8 →
        exec (.sts f x) s = .next (go .sts (base / 8 * 8) word id)
          ∧ (s.mem.wf = true → Stored s (go .sts (base / 8 * 8) word id) pa word))
      ∧ (x.a.toNat < 16 → Ready s f [.s x.b] → ok at_ 8 →
        exec (.sta f x) s = .next (go .sta at_ word moved)
          ∧ (s.mem.wf = true → Stored s (go .sta at_ word moved) pa word))

/-- A load's data lands in its register, little-endian, and frees its lock, when no line it read shows an error; a store's
acknowledgement ends it. -/
def Sys2Proof.Machine.Claim.LoadsAndStoresEnd : Prop :=
  ∀ (s : State) (f : FrameId) (i : Nat), (s.frame f).killing = false → (s.frame f).preempt = false →
    (∀ (l : Load) (k : BitVec 6) (errs : LineErrs), (s.frame f).loads[i]? = some l → l.ready = true → l.err = none →
        l.poison = false → (∀ pa : Nat, l.pa = some pa → ∀ e ∈ errs, e.1 ∉ linesOf pa l.data.length) →
        (l.dst = .s k → exec (.lockedRegisterUnlock f { load := i, errs := errs }) s
          = .next (withDev s (s.toDev.updFrame f fun fr => { fr with
            loads := fr.loads.eraseIdx i
            regs := { fr.regs with s := fr.regs.s.set k.toNat (BitVec.ofNat 64 (unle l.data)) } })))
        ∧ (l.dst = .t k → exec (.lockedRegisterUnlock f { load := i, errs := errs }) s
          = .next (withDev s (s.toDev.updFrame f fun fr => { fr with
            loads := fr.loads.eraseIdx i
            regs := fr.regs.setT k { desc := BitVec.ofNat 512 (unle l.data), valid := true } }))))
      ∧ (∀ t : Store, (s.frame f).stores[i]? = some t → t.tag = none → t.err = none →
        exec (.storeAcknowledged f i) s
          = .next (withDev s (s.toDev.updFrame f fun fr => { fr with stores := fr.stores.eraseIdx i })))
/-! ### Moves (R127–R130, R178, R181) -/

/-- MOV queues its move with the counters and the tally channel of its modifier, when its descriptors, formats,
ranges, effects and counters pass; scales are used only where the formats differ. -/
def Sys2Proof.Machine.Claim.MoveIssues : Prop :=
  ∀ (s : State) (f : FrameId) (x : Insn), x.b = 0 → x.c = 0 → x.dst.toNat < 32 → x.a.toNat < 32 → x.mod.toNat < 2 ^ 14 →
    Ready s f [.t x.dst, .t x.a] →
    let fr := s.frame f
    let dR := fr.regs.getT x.dst
    let aR := fr.regs.getT x.a
    let t := dR.shape
    let a := aR.shape
    let same := decide (descField dR.desc 0x30 1 = descField aR.desc 0x30 1)
    let scales := if same = false ∧ a.scaled = true then a.scaleSpan false else []
    let ac : Fin 16 := ⟨x.mod.toNat % 16, Nat.mod_lt _ (by decide)⟩
    let mc : Fin 8 := ⟨x.mod.toNat / 16 % 8, Nat.mod_lt _ (by decide)⟩
    dR.ok (!same) = true → aR.ok (!same) = true → dR.known = true → aR.known = true →
    a.e0 = t.e0 → a.e1 = t.e1 → a.e2 = t.e2 → a.e3 = t.e3 →
    (same = false → widens a.fmt t.fmt = true ∧ t.scaled = false ∧ (a.scaled = true → a.fmt.scalable = true)) →
    lsRange ([a.span false, t.span true] ++ scales) = none →
    fr.spanEffect .w (t.span true) = none → (∀ p ∈ a.span false :: scales, fr.spanEffect .r p = none) →
    fr.regs.ac[ac.val].toNat + fr.acPending ac + t.lines.length < 2 ^ 32 →
    fr.regs.mc[mc.val].toNat + fr.mcPending mc + 1 < 2 ^ 32 →
    (fr.moves.filter (!·.acked)).length < 64 → fr.overlaps ([a.span false, t.span true] ++ scales) = false →
    exec (.mov f x) s = .next (issued s f fun fr => { fr with stamp := fr.stamp + 1, moves := fr.moves ++ [{
      word := insnWord .mov x, src := .tensor a, dst := .tensor t, ac := ac, mc := mc
      tch := if x.mod.getLsbD 7 then some ⟨x.mod.toNat / 256 % 64, Nat.mod_lt _ (by decide)⟩ else none
      lines := t.lines.length, stamp := (s.frame f).stamp }] })

/-- A line of a move between local tensors of one format lands, when no line it reads shows an error: the mover has begun its
chunk (its rotation is the model's reading, assumption 125); its bytes are copied unchanged into the destination, but for bits
[63:40] of F40 containers, which are written as zero; its arrival counter is credited, its channel fed, and the tally unit
goes on. -/
def Sys2Proof.Machine.Claim.MoveLineLands : Prop :=
  ∀ (s : State) (f : FrameId) (i line : Nat) (host : List Byte) (hp : Bool) (m : Move) (src dst : Tensor)
    (pieces : List Piece) (errs : LineErrs),
    (s.frame f).moves[i]? = some m → m.src = .tensor src → m.dst = .tensor dst → src.fmt = dst.fmt →
    src.space = false → dst.space = false → src.scaleSpace = false → dst.lines[line]? = some pieces →
    let bs : List MByte := (lineBytes pieces).map fun p => {
      addr := dst.rowAddr p.1 + p.2, mask := dst.byteMask p.2
      v := if src.fmt = .f40 ∧ 5 ≤ p.2 % 8 then 0 else s.mem.byte (lsAddr f (src.rowAddr p.1 + p.2)), psn := s.mem.poisonedAt (lsAddr f (src.rowAddr p.1 + p.2)) }
    (s.frame f).mayLand i line (bs.map (·.addr)) = true →
    (∀ e ∈ errs, e.1 ∉ s.toDev.linesRead f m (lineBytes pieces)) →
    exec (.moveLineLanded f i { line := line, errs := errs } host hp) s
      = .next (withDev s (((s.toDev.updFrame f fun fr => fr.beginChunk i line).putLine f i line m { f := f, space := false } bs).pumpTally f 16))

/-- While the tally unit is empty, the last acknowledgement of a move raises its move counter by one, and the move leaves the mover once its lines
have all counted. -/
def Sys2Proof.Machine.Claim.MoveAcknowledged : Prop :=
  ∀ (s : State) (f : FrameId) (i : Nat) (m : Move), (s.frame f).killing = false → (s.frame f).preempt = false →
    (s.frame f).moves[i]? = some m → m.acked = false → m.front = m.lines → m.copy = false →
    (s.frame f).tyQ = [] → exec (.moveAcknowledged f i) s = .next (withDev s (s.toDev.updFrame f fun fr => { fr with
      moves := (fr.moves.modify i fun m => { m with acked := true }).filter fun m =>
        !(m.acked && !m.copy && m.credited == m.lines)
      regs := { fr.regs with mc := fr.regs.mc.set m.mc.val (fr.regs.mc[m.mc.val] + 1) } }))

/-! ### The matrix unit (R155–R164) -/

/-- The weights a matrix instruction uses: those of SRCB, or with KEEP those that the last instruction to load weights into
its group, of its shape, was issued with (R161; that the issue decides is the model's reading, assumption 21). -/
def Sys2Proof.Machine.Claim.weightsOf (sh : Shape) (m : MmaMod) (fr : Frame) (a b : Tensor) : Option Kept :=
  if m.keep then getWeights fr.arr.loadedBy sh m.group
  else some { shape := sh, fmt := b.fmt, signed := b.signed, half := a.fmt.half && b.fmt.half, n := b.e0, k := b.e1
              scaled := b.scaled, scales := [] }

/-- MMA.F, MMA.H2 and MMA.Q4, in every mode, join the matrix unit's queue when their descriptors, extents, formats,
shapes, ranges and effects pass, with a trace record where one is selected; what the queue can start then starts, and
nothing where the queue was empty and the instruction has planes to load. Which weights KEEP finds is the model's reading
(assumption 21); a group's load replaces what any group of another shape with rows in common was given. -/
def Obligations.MatrixIssues : Prop :=
  ∀ (s : State) (f : FrameId) (x : Insn) (sh : Shape) (w : Kept),
    let fr := s.frame f
    let m := mmaMod x
    let dT := fr.regs.getT x.dst
    let aT := fr.regs.getT x.a
    let bT := fr.regs.getT x.b
    let cT := fr.regs.getT x.c
    let t := dT.shape
    let a := aT.shape
    let b := bT.shape
    let c := cT.shape
    let op : Op := match sh with | .f => .mmaF | .h2 => .mmaH2 | .q4 => .mmaQ4
    let i : Instr := match sh with | .f => .mmaF f x | .h2 => .mmaH2 f x | .q4 => .mmaQ4 f x
    let third := usesThird m
    let idx := m.final && (m.mode == 4 || m.mode == 5)
    let scaled := a.scaled || w.scaled
    let int := a.fmt.isInt && w.fmt.isInt && !scaled
    let half := a.fmt.half && w.fmt.half
    let ty := if int then 2 else 1
    let ins := a.spans false ++ if m.keep then [] else b.spans false
    let outs := if m.final then [t.span true] else []
    let thirds := if third then (if idx then [c.span true] else c.spans false) else []
    let readsD := m.final && (m.mode == 1 || m.merge)
    let comb := s.toDev.allOwnComb f (ins.map (·, Acc6.read)
      ++ outs.map (·, if readsD then Acc6.readWrite else Acc6.write)
      ++ thirds.map (·, if idx then (if m.merge then Acc6.readWrite else Acc6.write) else Acc6.read))
    mmaLegal sh x = true → Ready s f ((mmaBody sh op).uses x) →
    weightsOf sh m fr a b = some w → (m.keep = true → w.half = half) →
    operandOk dT none false = true → operandOk aT (some false) true = true →
    (m.keep = false → operandOk bT (some true) false = true ∧ bT.known = true ∧ b.fmt.arrayOperand = true
      ∧ (b.scaled = true → b.fmt.scalable = true)) →
    (m.keep = true → w.fmt.arrayOperand = true) →
    (third = true → operandOk cT none false = true ∧ cT.known = true ∧ c.e1 = a.e1 ∧ c.fmt ≠ .x8 ∧ c.fmt ≠ .g32
      ∧ (c.scaled = true → c.fmt.scalable = true ∧ t.fmt.isInt = false)
      ∧ if idx then c.e0 = 1 ∧ c.fmt = .q32 ∧ c.signed = false ∧ c.scaled = false else c.e0 = w.n) →
    a.e0 = w.k → t.e1 = a.e1 → t.e0 = (if idx then 1 else w.n) → dT.known = true → aT.known = true →
    a.fmt.arrayOperand = true → (a.scaled = true → a.fmt.scalable = true) →
    t.fmt ≠ .x8 → t.fmt ≠ .g32 → t.scaled = false → (scaled = true → t.fmt.isInt = false) →
    (m.start = true ∨ a.e1 ≤ sh.maxRows half ∧ ∀ r col, r < a.e1 → col < w.n →
      fr.arr.issued.get? (accIdx sh half m.group r col) = some ty) →
    w.k ≤ sh.groupRows → w.n ≤ (if half then 16 else 8) * fr.geom.colgrp →
    (m.final = true ∨ a.e1 ≤ sh.maxRows half) → lsRange (ins ++ outs ++ thirds) = none → comb.2 = true →
    (∀ p ∈ ins, fr.spanEffect .r p = none) → (∀ p ∈ outs, fr.spanEffect .w p = none) →
    (readsD = true → ∀ p ∈ outs, fr.spanEffect .r p = none) →
    (∀ p ∈ thirds, (idx = true → fr.spanEffect .w p = none) ∧ (idx = false ∨ m.merge = true → fr.spanEffect .r p = none)) →
    fr.mmaQ.length < 4 → fr.overlaps (ins ++ outs ++ thirds) = false →
    let out := issued (withDev s (comb.1.trace 128 f.val fr.ctx.toNat (insnWord op x).toNat)) f fun fr => { fr with
      mmaQ := fr.mmaQ ++ [{
        word := insnWord op x, shape := sh, group := m.group, mode := BitVec.ofNat 3 m.mode, start := m.start
        final := m.final, fast := m.fast, merge := m.merge, keep := m.keep, cbase := m.cbase, k := w.k, m := a.e1
        n := w.n, act := a, wgt := if m.keep then none else some b, wfmt := w.fmt, wsigned := w.signed, dst := t
        third := if third then some c else none, int := int, planes := if m.keep then 0 else w.fmt.limbs }]
      arr := { fr.arr with
        issued := if m.final then freeRows sh half m.group a.e1 fr.arr.issued
          else typeEntries sh half m.group a.e1 w.n ty fr.arr.issued
        loadedBy := if m.keep then fr.arr.loadedBy else setWeights fr.arr.loadedBy sh m.group (some w) } }
    exec i s = .next (withDev s (out.toDev.pumpMma f 8))
      ∧ (fr.mmaQ = [] → m.keep = false → exec i s = .next out)

/-- A weight plane that is not the instruction's last only counts; the last puts the weights with their scales into
the shadow set of their group, and what the queue can start then starts (R66–R68). An instruction of another shape
meets rows in flight: illegal array use (R162). -/
def Sys2Proof.Machine.Claim.WeightPlanes : Prop :=
  ∀ (s : State) (f : FrameId) (i : Nat) (j : MmaJob) (t : Tensor),
    nextPlane (s.frame f).mmaQ = some i → (s.frame f).mmaQ[i]? = some j → j.wgt = some t →
    let a := (s.frame f).arr
    let w := s.toDev.readWeights f j t
    ((a.shape = none ∨ a.shape = some j.shape ∨ a.rows = []) →
      (j.loaded + 1 < j.planes → exec (.weightPlaneLoaded f) s = .next (withDev s (s.toDev.updFrame f fun fr =>
          { fr with mmaQ := fr.mmaQ.modify i fun j => { j with loaded := j.loaded + 1 } })))
        ∧ (∀ (cells : SMap Cell) (scales : SMap Byte) (fl : FmtFlags), j.loaded + 1 = j.planes →
          w.2 = some (cells, scales, fl) →
          exec (.weightPlaneLoaded f) s = .next (withDev s ((w.1.updFrame f fun fr => { fr with
            fmtFlags := fr.fmtFlags ||| fl
            mmaQ := fr.mmaQ.modify i fun j => { j with loaded := j.planes }
            arr := { fr.arr with
              shadow := cells.foldl (fun m c => SMap.put m c.1 c.2)
                (fr.arr.shadow.filter fun c => !groupCells j.shape j.group c.1)
              next := setWeights fr.arr.next j.shape j.group (some {
                shape := j.shape, fmt := j.wfmt, signed := j.wsigned, half := j.act.fmt.half && j.wfmt.half
                n := j.n, k := j.k, scaled := t.scaled, scales := scales }) } }).pumpMma f 8))))
      ∧ (∀ sh : Shape, a.shape = some sh → sh ≠ j.shape → a.rows ≠ [] → exec (.weightPlaneLoaded f) s
        = .next (stopped s f { code := 0x08, unit := 1, precise := true, insn := j.word }))

/-- The first streaming instruction of a group completes, when no line that its writes read shows an error: its later tiles are
drawn and the sampled ones recorded, the cycles of its holds are counted, its sums pass the drain, and work that waited for its
verdicts or its frame goes on (R85, R163, R418, R422). Where a sampled tile finds the guard buffer full it does not complete
yet; with guard passes off no tile waits. -/
def Sys2Proof.Machine.Claim.MatrixCompletes : Prop :=
  ∀ (s : State) (m : MmaEnd) (i : Nat) (j : MmaJob) (dv : DrainViews),
    let f := m.frame
    (s.frame f).mmaQ[i]? = some j → j.streaming = true → j.group = m.group.val →
    (∀ k e, k < i → (s.frame f).mmaQ[k]? = some e → e.streaming = false ∨ e.group ≠ m.group.val) →
    let views := s.toDev.drainViews f j
    views.2 = .ok dv →
    let tiles := views.1.streamTiles f i dv (ceilDiv j.m 512 + 1)
    (tiles.2 = true → (∀ x ∈ m.errs, x.1 ∉ tiles.1.mmaLines f j dv) →
        exec (.mmaComplete m) s = .next (withDev s ((((tiles.1.updFrame f fun fr => { fr with
          ramp := { fr.ramp with feedHold := fr.ramp.feedHold + m.feed, drainHold := fr.ramp.drainHold + m.drain } }).finishMma
            f i j dv).settle f).resumeGraphs)))
      ∧ (tiles.2 = false → exec (.mmaComplete m) s = .next (withDev s tiles.1))
      ∧ (s.grd.enable = false → j.bufHold = false → tiles.2 = true)

/-! ### Vector and convert instructions (R165–R177) -/

/-- The vector and convert instructions. -/
def Sys2Proof.Machine.Claim.vecOps : List Op :=
  [.vadd, .vsub, .vmul, .vfma, .vmax, .vmin, .vabs, .vneg, .vcmp, .vsel, .vand, .vor, .vxor, .vshl, .vshr]
    ++ [.vexp2, .vlog2, .vrcp, .vrsqrt, .vsqrt, .vexp, .vtanh, .vsigm, .vrsum, .vrmax, .vrmin]
    ++ [.cvt, .cvtg, .gadd, .cvtx]

/-- The t registers an instruction of the vector unit reads, in the order DST, SRCA, SRCB, SRCC. -/
def Sys2Proof.Machine.Claim.vecRegs (op : Op) (x : Insn) : List (BitVec 6) :=
  (if op = .vcmp then [] else [x.dst]) ++ [x.a] ++ (if Op.hasB op then [x.b] else [])
    ++ if Op.hasC op then [x.c] else []

/-- Its operands in local store, and the scale arrays a conversion reads or writes. -/
def Sys2Proof.Machine.Claim.vecSpans (op : Op) (x : Insn) (r : Regs) : List Span × List Span :=
  let sh := fun i => (r.getT i).shape
  let own := [(sh x.a).span false] ++ (if Op.hasB op then [(sh x.b).span false] else [])
    ++ (if op = .vfma then [(sh x.c).span false] else [])
    ++ (if op = .vcmp then [] else [(sh x.dst).span true]) ++ if vecWritesThird op then [(sh x.c).span true] else []
  (own, if op = .cvt ∨ op = .cvtx then (sh x.a).scaleSpan false ++ (sh x.dst).scaleSpan true else [])

/-- VADD, VSUB, VMUL, VFMA, VMAX, VMIN, VABS, VNEG, VCMP, VSEL, VAND, VOR, VXOR, VSHL, VSHR, VEXP2, VLOG2, VRCP, VRSQRT,
VSQRT, VEXP, VTANH, VSIGM, VRSUM, VRMAX, VRMIN, CVT, CVTG, GADD and CVTX join the vector unit's queue, their operands
captured, when their descriptors, extents, formats, ranges and effects pass. -/
def Obligations.VectorIssues : Prop :=
  ∀ (s : State) (f : FrameId) (op : Op) (x : Insn), op ∈ vecOps → vecLegal op x = true →
    Ready s f (vecUses op x) →
    let r := (s.frame f).regs
    let sh := fun i => (r.getT i).shape
    let a := sh x.a
    let t := if op = .vcmp then a else sh x.dst
    let b := if Op.hasB op then sh x.b else a
    let c := if Op.hasC op then sh x.c else a
    let spans := vecSpans op x r
    (op = .cvtg → (r.getS x.b).toNat < 256) →
    (∀ i ∈ vecRegs op x, (r.getT i).ok = true ∧ (r.getT i).known = true ∧ (sh i).space = false) →
    vecExtents op t a b c (r.getT (if Op.hasC op then x.c else x.a)) = true → vecFormats op x t a b c = true →
    lsRange (spans.1 ++ spans.2) = none →
    let comb := s.toDev.allOwnComb f (spans.2.map fun p => (p, if p.write then .write else .read))
    comb.2 = true →
    (∀ p ∈ spans.2, (s.frame f).spanEffect (if p.write then .w else .r) p = none) →
    (s.frame f).vecQ.length < 8 → (s.frame f).overlaps (spans.1 ++ spans.2) = false →
    exec (insnCommand f op x 0) s = .next (issued (withDev s comb.1) f fun fr => { fr with vecQ := fr.vecQ ++ [{
      word := insnWord op x, op := op, x := x, dst := if op = .vcmp then none else some t, a := a
      b := if Op.hasB op then some b else none, c := if Op.hasC op then some c else none
      sb := if op = .cvtg then r.getS x.b else 0
      pred := if Op.converts op then BitVec.allOnes 256 else r.getK ((x.mod.extractLsb' 0 3).setWidth 6)
      sel := if op = .vsel then r.getK x.c else 0 }] })

/-- The oldest instruction of the vector unit completes: its results are written, its flags raised, poison of what it
read carried into what it wrote; VCMP writes its predicate register, and one that reads poison writes nothing and kills the
context. That operands are read and results written at this one instant is the model's choice (assumption 14). -/
def Obligations.VectorCompletes : Prop :=
  ∀ (s : State) (f : FrameId) (j : VecJob) (js : List VecJob) (sv : ScaleViews),
    (s.frame f).vecQ = j :: js → (s.toDev.scaleViews f j).2 = .ok sv →
    (s.frame f).killing = false → (s.frame f).preempt = false →
    let v : View := { f := f, space := false }
    let d' := (s.toDev.scaleViews f j).1
    let psn := vecPoison j d'.mem v sv
    let o := vecResult j d'.mem v sv ((s.frame f).regs.getK j.x.dst)
    ((j.op = .vcmp → psn = false) →
        exec (.vectorComplete f) s = .next (withDev s ({ d' with mem := d'.mem.applyBuf o.buf psn }.updFrame f fun fr =>
          { fr with
            vecQ := js, fmtFlags := fr.fmtFlags ||| o.fl
            regs := if j.op = Op.vcmp then fr.regs.setK j.x.dst o.k else fr.regs
            poison := fr.poison || (psn && !o.buf.isEmpty) })))
      ∧ (j.op = .vcmp → psn = true → exec (.vectorComplete f) s = .next (withDev s
          (((d'.updFrame f fun fr => { fr with vecQ := js }).kill (s.frame f).ctx 6 j.a.base { frame := some f }).settle f)))

/-! ### The end of a task (R133, R134, R187, R188, R237) -/

/-- DONE without a bell ends the task; with one it keeps the bell, whose address must be granted, until the frame's
work is over. Without the grant it faults at the address. -/
def Sys2Proof.Machine.Claim.DoneEnds : Prop :=
  ∀ (s : State) (f : FrameId) (x : Insn), x.dst = 0 → x.c = 0 →
    let r := (s.frame f).regs
    let a := r.getS x.a &&& 0x7FFFFFFFFFFFFFF8#64
    (x.a = 0 → x.b = 0 → x.mod = 0 → Ready s f [] →
        exec (.done f x) s = .next (issued s f fun fr => { fr with state := .ending }))
      ∧ ((x.mod = 1 ∨ x.mod = 3) → Ready s f [.s x.a, .s x.b] →
        ((s.frame f).grantsBell a.toNat = true → exec (.done f x) s = .next (issued s f fun fr => { fr with
          state := .ending, ringing := some (a, r.getS x.b, decide (x.mod = 3)) }))
        ∧ ((s.frame f).grantsBell a.toNat = false → exec (.done f x) s = .next (stopped s f {
          code := 0x04, unit := 0, precise := true, addrV := true, addr := BitVec.ofNat 52 a.toNat, space := true
          insn := insnWord .done x })))

/-- BELL to a semaphore of this device, of the task's own job: the update sets out at once; a timed one whose time has
not come is kept for the Waggle counter. -/
def Sys2Proof.Machine.Claim.BellRings : Prop :=
  ∀ (s : State) (f : FrameId) (x : Insn) (n : Nat) (owner : BitVec 12), x.dst = 0 →
    let fr := s.frame f
    let a := fr.regs.getS x.a &&& 0x7FFFFFFFFFFFFFF8#64
    let v := fr.regs.getS x.b
    fr.grantsBell a.toNat = true → fr.quiet = true → fabDev a = s.lnk.devId →
    (x.c = 0 → x.mod.toNat < 2 → Ready s f [.s x.a, .s x.b] → n < semCount → a.toNat % 2 ^ 48 = semBase + 8 * n →
        s.toDev.semOwner n = some owner → (s.toDev.ctx owner).job = (s.toDev.ctx fr.ctx).job →
        exec (.bell f x) s = .next (issued
          (withDev s { s.toDev with mkt := { s.mkt with semQ := s.mkt.semQ ++ [{
            sem := n, value := v, add := decide (x.mod.toNat = 1) }] } }) f id))
      ∧ ((x.mod = 4 ∨ x.mod = 5) → Ready s f [.s x.a, .s x.b, .s x.c] → s.wag.valid = true →
        s.toDev.waggle < (fr.regs.getS x.c).toNat →
        exec (.bell f x) s = .next (issued
          (withDev s { s.toDev with wag := { s.wag with tbells := s.wag.tbells ++ [{
            addr := a, value := v, add := decide (x.mod = 5), time := fr.regs.getS x.c
            job := (s.toDev.ctx fr.ctx).job
            origin := s.toDev.bellOrigin f (insnWord .bell x) (decide (x.mod = 5)) }] } }) f id))

/-- A task that has ended passes its format flags to its context, leaves its frame and is DONE; one that faulted has its fault
recorded in the frame and leaves it FAULTED, with its context FAULTED, its queue stopped and a capture of the frame. -/
def Sys2Proof.Machine.Claim.TaskEnds : Prop :=
  ∀ (s : State) (f : FrameId) (t : TaskRef), (s.frame f).task = some t → (s.frame f).quiet = true →
    (s.frame f).killing = false → (s.frame f).moves = [] →
    let c := (s.frame f).ctx
    ((s.frame f).state = .ending → (s.frame f).ringing = none →
        let d := s.toDev.updCtx c fun x => { x with fmtFlags := x.fmtFlags ||| (s.frame f).fmtFlags.setWidth 64 }
        exec (.taskDoneSignal f) s = .next (withDev s (((d.endOnFrame f).taskDone t).trace 1 f.val c.toNat)))
      ∧ (∀ (g : Graph) (r : FaultRec), (s.frame f).state = .faulted → (s.frame f).pend = some r →
        s.toDev.graph? t.graph = some g → g.kind = .graph →
        let d := s.toDev.updFrame f fun fr => { fr with fault := r, pend := none }
        let e := s.toDev.entry? g.queue g.seq
        let tag := (s.toDev.graphOf t).2
        exec (.taskFaultSignal f) s
          = .next (withDev s (((((d.updTask t fun x => { x with state := .faulted, frame := none }).faultCtx c).commandFault
            g.queue (some c) {
              kind := 2, code := r.code.toNat, tag := tag.toNat, frame := some f
              graph := some t.graph, entry := (e.map (·.bytes)).getD (zeros 64)
              ringAddr := (e.map fun e => (s.toDev.queue g.queue).ringAddrOf e.seq).getD 0 }).endOnFrame f).trace
            2 f.val c.toNat)))

/-- An error response to a sequencer access faults the frame with 0x06, not precise, at the virtual address, after the
memory fault record of its context is filled (R135, R205). -/
def Sys2Proof.Machine.Claim.AccessErrors : Prop :=
  ∀ (s : State) (f : FrameId) (i : Nat) (e : XErr), e.bell = false →
    let out := fun (d : Dev) (a : Acc6) (word : Word) =>
      stopped (withDev s (d.memFault (s.frame f).ctx e a 0 f.val)) f {
        code := 0x06, unit := 0, precise := false, addrV := true, addr := BitVec.ofNat 52 e.va, space := true, insn := word }
    (∀ l : Load, (s.frame f).loads[i]? = some l → l.err = some e → l.dst ≠ .eff →
        exec (.memoryErrorResponse f (.load i)) s
          = .next (out (s.toDev.updFrame f fun fr => { fr with loads := fr.loads.eraseIdx i }) .read l.word))
      ∧ (∀ t : Store, (s.frame f).stores[i]? = some t → t.err = some e →
        exec (.memoryErrorResponse f (.store i)) s
          = .next (out (s.toDev.updFrame f fun fr => { fr with stores := fr.stores.eraseIdx i }) .write t.word))

/-- A fetch outside every X grant faults the frame with a fetch fault at the program counter (R122). -/
def Sys2Proof.Machine.Claim.FetchOutsideEffects : Prop :=
  ∀ (s : State) (f : FrameId), s.up = true → (s.frame f).mayIssue = true → (s.frame f).held = none →
    (∀ e ∈ (s.frame f).eff.toList, effGrants e .x (s.frame f).pc.toNat = none) →
    exec (.fetchFault f) s = .next (stopped s f {
      code := 0x0A, unit := 0, precise := true, addrV := true, addr := (s.frame f).pc, space := true })

/-! ### The activity ramp and frame control (R94, R95, R145) -/

/-- After 6 cycles the level of a running array rises by one, up to CAP, when the demand exceeded 2,048 × (L − 1); the
cycles in which a feeder was held because the demand exceeded the limit are counted. An array at level 0 whose products
come back starts at level 1 when fewer than 96 arrays started in the last 1,024 ns, and else is held; without products it stays,
and one whose start is held stays as it is (R93, R94, R101, R397). -/
def Sys2Proof.Machine.Claim.RampRises : Prop :=
  ∀ (s : State) (f : FrameId) (demand held : Nat),
    let r := (s.frame f).ramp
    let rise := fun (l : Nat) (d : Dev) => withDev s (d.updFrame f fun fr => { fr with
      ramp := { fr.ramp with
        rampHold := if 2048 * l < demand then r.rampHold + BitVec.ofNat 16 (min held 6) else r.rampHold
        level := if 0 < l ∧ 2048 * (l - 1) < demand then min (l + 1) r.cap else l } })
    let out := fun t : State => exec (.rampRiseInterval f { demand := demand, held := held }) s = .next t
    let now := s.toDev.waggle
    let recent := s.wag.starts.filter fun t => decide (now < t + 1024)
    (r.startHold = true → out s)
      ∧ (r.startHold = false → 0 < r.level → out (rise r.level s.toDev))
      ∧ (r.startHold = false → r.level = 0 → demand = 0 → out s)
      ∧ (r.startHold = false → r.level = 0 → 0 < demand → (∃ j ∈ (s.frame f).mmaQ, j.streaming = true) → 0 < r.cap →
        recent.length < 96 → out (rise 1 { s.toDev with wag := { s.wag with starts := recent ++ [now] } }))
      ∧ (r.startHold = false → r.level = 0 → 0 < demand → (∃ j ∈ (s.frame f).mmaQ, j.streaming = true) →
        96 ≤ recent.length → out (withDev s (({ s.toDev with wag := { s.wag with
          starts := recent, heldCnt := satAdd s.wag.heldCnt } } : Dev).updFrame f fun fr => { fr with
            ramp := { fr.ramp with startHold := true } })))

/-- After 3 cycles the level falls by one when the demand of every cycle was at most 2,048 × (L − 2), or zero at
L = 1. -/
def Sys2Proof.Machine.Claim.RampFalls : Prop :=
  ∀ (s : State) (f : FrameId) (demand : Nat),
    let l := (s.frame f).ramp.level
    exec (.rampFallInterval f demand) s = .next (withDev s (s.toDev.updFrame f fun fr => { fr with
      ramp := { fr.ramp with
        level := if (l = 1 ∧ demand = 0) ∨ (2 ≤ l ∧ demand ≤ 2048 * (l - 2)) then l - 1 else l } }))

/-- PREEMPT asks a frame to stop: a running one whose work is over goes to SAVING at once and PREEMPT clears, any other
keeps PREEMPT set. A write of STEP lets one instruction issue. -/
def Sys2Proof.Machine.Claim.FrameControl : Prop :=
  ∀ (s : State) (f : FrameId), (s.frame f).killing = false →
    let asked := withDev s (s.toDev.updFrame f fun fr => { fr with preempt := true })
    ((s.frame f).quiet = false → (s.toDev.ctx (s.frame f).ctx).orphanStop = false →
        exec (.frmCtrlPreempt f) s = .next asked)
      ∧ ((s.frame f).state ≠ .running → exec (.frmCtrlPreempt f) s = .next asked)
      ∧ ((s.frame f).quiet = true → (s.frame f).state = .running → exec (.frmCtrlPreempt f) s
        = .next (withDev s (s.toDev.updFrame f fun fr => { fr with state := .saving, preempt := false, held := none })))
      ∧ ∀ on : Bool, exec (.frmCtrlStep f on) s
        = .next (withDev s (s.toDev.updFrame f fun fr => { fr with step := on, stepWait := false }))

/-! ### Guard work (R422–R426, R430) -/

/-- Guard buffer space starts the instruction, or the later tile of one, that waited for it; an idle frame in service takes the
guard work at the head of its queue. -/
def Sys2Proof.Machine.Claim.GuardRunsStart : Prop :=
  ∀ (s : State) (f : FrameId),
    (∀ (i : Nat) (j : MmaJob), (s.frame f).mmaQ[i]? = some j → j.bufHold = true →
        (∀ k e, k < i → (s.frame f).mmaQ[k]? = some e → e.bufHold = false) →
        (j.streaming = false → exec (.guardBufferFreed f) s = .next (withDev s ((s.toDev.beginStream f i j).pumpMma f 8)))
          ∧ (j.streaming = true → exec (.guardBufferFreed f) s = .next (withDev s (s.toDev.nextTile f i j).1)))
      ∧ (∀ (id : Nat) (ids : List Nat), (s.frame f).guardWork = id :: ids → s.up = true →
        (s.frame f).svc.insvc = true → (s.frame f).state = .idle → (s.frame f).task = none →
        (s.frame f).granted = none → (s.frame f).guardRun = none → s.toDev.clusterUp f = true →
        exec (.guardTake f) s = .next (withDev s (s.toDev.updFrame f fun fr => { fr with
          guardRun := some id, cycles := s.ns, wantTake := false })))

/-- The verdicts of R425. A run streams the tile from the guard buffer, so its tally is that of the tile's mirror (R424), with
what a fault of the frame changes in it (the model's choice, assumption 85). A guard run whose tally equals the frame's own passes the tile, which leaves the buffer; a
different one calls a referee. A referee run that agrees with the guard flags the sampled frame and taints its
context; one that agrees with the sampled frame flags the guard frame. Commit points that waited go on. -/
def Sys2Proof.Machine.Claim.GuardVerdicts : Prop :=
  ∀ (s : State) (f : FrameId) (fault own : Word) (id : Nat) (t : GTile),
    (s.frame f).guardRun = some id → s.grd.tiles.find? (·.id == id) = some t → t.tally = some own →
    let tally := t.mirror.tally t.pfx ^^^ fault
    let cyc := cyclesAt s.ns - cyclesAt (s.frame f).cycles
    let d := (s.toDev.updFrame f fun fr => { fr with
      guardRun := none, guardWork := fr.guardWork.filter (· != id) }).updCtx t.ctx fun c => { c with
        frameCycles := c.frameCycles + BitVec.ofNat 64 cyc, deficit := c.deficit - cyc }
    let out := fun d : Dev => withDev s d.resumeGraphs
    (t.guardTally = none → tally = own →
        exec (.guardRunComplete f fault) s = .next (out ((d.tilePassed t.frame).dropTile id)))
      ∧ (t.guardTally = none → tally ≠ own → exec (.guardRunComplete f fault) s
        = .next (out ((d.updTile id fun t => { t with guardTally := some tally }).assignReferee id)))
      ∧ (∀ (g : Word) (gf : FrameId), t.guardTally = some g → g ≠ own → t.guard = some gf →
        let d := { d with grd := { d.grd with mismatch := satAdd d.grd.mismatch } }
        (tally = own → exec (.guardRunComplete f fault) s
            = .next (out (((d.flagFrame gf).guardRecord 0x02 t tally).dropTile id)))
          ∧ (tally = g → exec (.guardRunComplete f fault) s
            = .next (out ((((d.flagFrame t.frame).taintCtx t.ctx).guardRecord 0x01 t tally).dropTile id))))

/-- When WAIT_MS has passed since a wait began, a tile of it still without its verdict is recorded as unverified, and holds that
commit point no longer; a wait that began later goes on. -/
def Sys2Proof.Machine.Claim.GuardWaitExpires : Prop :=
  ∀ (s : State) (c : BitVec 12) (id : Nat) (t : GTile) (w : Held430) (ws : List Held430), s.grd.waits = w :: ws →
    w.ctx = c → w.begun = true → w.tiles = [id] → (∀ v ∈ ws, v.ctx = c → v.what ≠ w.what) →
    (s.grd.tiles.find? fun t => t.id == id && !t.unver) = some t →
    let d := ({ s.toDev with grd := { s.grd with unverified := satAdd s.grd.unverified } } : Dev).guardRecord 0x04 t
    let d := d.updTile id fun t => { t with unver := true }
    exec (.guardWaitExpiry c) s = .next (withDev s
      { d with grd := { d.grd with waits := { w with tiles := [] } :: ws } }.resumeGraphs)

/-- A flagged frame that is idle leaves service: its cause is 2, its maps show it out, and the in-service generation
moves once (R22, R23, R25, R426). -/
def Sys2Proof.Machine.Claim.FlaggedFrameLeaves : Prop :=
  ∀ (s : State) (f : FrameId), s.up = true → (s.frame f).svc.flagged = true → (s.frame f).svc.insvc = true →
    (s.frame f).state = .idle → (s.frame f).task = none → (s.frame f).granted = none → (s.frame f).guardRun = none →
    (s.frame f).guardWork = [] →
    ∃ d : Dev, exec (.flaggedFrameRemoval f) s = .next (withDev s d)
      ∧ d.insvc.gen = s.insvc.gen + 1
      ∧ d.frame f = { s.frame f with
        state := .outOfService, stallV := false, wantTake := false
        geom := { (s.frame f).geom with rows := 0, colgrp := 0, byp := 0, spares := 0, fillAdj := 0 }
        svc := { (s.frame f).svc with insvc := false, cause := 2, atGen := s.insvc.gen + 1 } }
      ∧ ∀ g : FrameId, g ≠ f → d.frame g = s.frame g
/-! ### The Task Market (R237–R272) -/

/-- An idle or ending frame of a stall, in service and not flagged, asks for a task (R240, R241). -/
def Sys2Proof.Machine.Claim.TakeIsRequested : Prop :=
  ∀ (s : State) (f : FrameId), s.up = true → (s.frame f).svc.insvc = true → (s.frame f).stallV = true →
    (s.frame f).svc.flagged = false → (s.frame f).granted = none → (s.frame f).guardRun = none →
    s.toDev.clusterUp f = true → ((s.frame f).state = .idle ∨ (s.frame f).state = .ending) →
    exec (.takeRequest f) s = .next (withDev s (s.toDev.updFrame f fun fr => { fr with wantTake := true }))

/-- A dispatch that is allowed, or the Market's own choice, gives the task to the frame that asks for one: the task is TAKEN
there, the takes are counted and a trace record written where it is selected; no other task of its graph changes. -/
def Sys2Proof.Machine.Claim.TakeIsGranted : Prop :=
  ∀ (s : State) (f : FrameId) (t : TaskRef) (g : Graph) (x : Task), (s.frame f).wantTake = true →
    s.toDev.clusterUp f = true → (s.frame f).granted = none → (s.frame f).svc.flagged = false →
    (s.frame f).guardWork = [] → (s.frame f).stallV = true → s.toDev.graph? t.graph = some g →
    g.tasks[t.idx]? = some x →
    let given := fun d : Dev => withDev s ((({ d with mkt := { d.mkt with takes := d.mkt.takes + 1 } } : Dev).updTask t
      (fun x => { x with state := .taken, frame := some f }) |>.updFrame f fun fr =>
        { fr with granted := some t, wantTake := false }).trace 0 f.val g.ctx.toNat x.va.toNat x.offer)
    (x.state = .offered → x.fits (s.frame f) = true → s.toDev.mayGrant g.ctx = true →
        (s.toDev.ctx g.ctx).stall.toNat = (s.frame f).stall.toNat →
        exec (.takeGrant f (some t)) s = .next (given s.toDev))
      ∧ ((s.toDev.chooseTake f).2 = some t → exec (.takeGrant f none) s = .next (given (s.toDev.chooseTake f).1))
      ∧ ((s.toDev.chooseTake f).2 = none → exec (.takeGrant f none) s = .next (withDev s (s.toDev.chooseTake f).1))

/-- A dispatch the Market may not make is refused, whatever the frame does: MKT_ERR and the count show it, the ledger
records it, and no frame or task changes (R242). -/
def Sys2Proof.Machine.Claim.DispatchRefused : Prop :=
  ∀ (s : State) (f : FrameId) (t : TaskRef),
    (s.toDev.task? t = none ∨ ∃ (g : Graph) (x : Task), s.toDev.graph? t.graph = some g ∧ g.tasks[t.idx]? = some x
      ∧ (x.state ≠ .offered ∨ x.fits (s.frame f) = false ∨ s.toDev.mayGrant g.ctx = false
        ∨ (s.toDev.ctx g.ctx).stall.toNat ≠ (s.frame f).stall.toNat)) →
    let d := s.toDev.refuseDispatch f t
    exec (.takeGrant f (some t)) s = .next (withDev s d) ∧ d.mkt.dispatchRefused = true
      ∧ d.mkt.refusals = satAdd s.mkt.refusals ∧ d.fr = s.fr ∧ d.mkt.graphs = s.mkt.graphs ∧ d.mkt.ctxs = s.mkt.ctxs

/-- A task without an effect list comes onto its idle frame: s0 to s3 hold its record, argument, frame and context,
every other register is zero or invalid, every channel and every fault register clear, and it runs from its program, or
is at its first boundary when a stop was asked for (R109, R144, R145, R185). The frame keeps its geometry, its place in a stall and its service record. -/
def Sys2Proof.Machine.Claim.TakeCompletes : Prop :=
  ∀ (s : State) (f : FrameId) (ref : TaskRef) (g : Graph) (t : Task), (s.frame f).granted = some ref →
    (s.frame f).state = .idle → (s.frame f).task = none → (s.frame f).guardRun = none →
    s.toDev.graph? ref.graph = some g → g.tasks[ref.idx]? = some t → t.effN = 0 →
    (g.kind = .graph ∨ g.kind = .batch) →
    ∃ fr' : Frame, exec (.takeComplete f) s = .next (withDev s (s.toDev.setFrame f fr'))
      ∧ fr'.regs.s.toList = [t.va.setWidth 64, t.arg, BitVec.ofNat 64 f.val, g.ctx.setWidth 64] ++ List.replicate 60 0
      ∧ (∀ i : Fin 16, fr'.regs.a[i.val] = 0) ∧ (∀ i : Fin 32, fr'.regs.t[i.val].valid = false)
      ∧ (∀ i : Fin 8, fr'.regs.k[i.val] = 0) ∧ (∀ i : Fin 16, fr'.regs.ac[i.val] = 0)
      ∧ (∀ i : Fin 8, fr'.regs.mc[i.val] = 0) ∧ (∀ i : Fin 64, fr'.chans[i.val] = {})
      ∧ fr'.state = (if (s.frame f).preempt then .saving else .running) ∧ fr'.preempt = false ∧ fr'.pc = t.prog ∧ fr'.ctx = g.ctx ∧ fr'.ctxV = true ∧ fr'.taskVa = t.va ∧ fr'.taskV = true
      ∧ fr'.task = some ref ∧ fr'.granted = none ∧ fr'.fmtFlags = 0 ∧ fr'.fault = {} ∧ fr'.pend = none ∧ fr'.poison = false
      ∧ fr'.geom = (s.frame f).geom ∧ fr'.stall = (s.frame f).stall ∧ fr'.stallV = (s.frame f).stallV
      ∧ fr'.svc = (s.frame f).svc ∧ fr'.step = (s.frame f).step ∧ fr'.stepWait = (s.frame f).stepWait

/-- An entry of an effect list that R120 allows: one whose length is 0, a memory entry with an aligned base in the virtual space, or
a bell entry with its one right; every reserved bit is 0. -/
def Sys2Proof.Machine.Claim.goodEffect (v : Nat) : Prop :=
  let base := v % 2 ^ 64
  let len := v / 2 ^ 64 % 2 ^ 32
  let rights := v / 2 ^ 96 % 2 ^ 8
  let kind := v / 2 ^ 104 % 2 ^ 8
  len = 0 ∨ v / 2 ^ 112 % 2 ^ 16 = 0
    ∧ (kind = 0 ∧ rights < 16 ∧ base < 2 ^ 52 ∧ base % 64 = 0 ∨ kind = 1 ∧ rights = 8 ∧ base < 2 ^ 63)

/-- A task with an effect list in this device's memory: the list is read before the first instruction, and the frame runs with its
entries in FRM_EFF, or stops with an effect fault that names a malformed one (the first, which is the model's choice: assumption
143); where the list does not translate, it stops with a translation fault at the list (R506). -/
def Sys2Proof.Machine.Claim.TakeReadsEffects : Prop :=
  ∀ (s : State) (f : FrameId) (ref : TaskRef) (g : Graph) (t : Task), (s.frame f).granted = some ref →
    (s.frame f).state = .idle → (s.frame f).task = none → (s.frame f).guardRun = none → (s.frame f).preempt = false →
    s.toDev.graph? ref.graph = some g → g.tasks[ref.idx]? = some t → 1 ≤ t.effN → t.effN ≤ 16 → g.kind = .graph →
    let d := s.toDev.setFrame f ((s.frame f).taken f g.ctx ref t s.ns)
    let r := d.range f.val g.ctx .read t.eff.toNat (16 * t.effN)
    let stop := fun (d : Dev) (code : BitVec 8) (a : Nat) => exec (.takeComplete f) s = .next (stopped (withDev s d) f {
      code := code, unit := 0, precise := true, addrV := true, addr := BitVec.ofNat 52 a, space := true })
    (∀ segs : List Seg, r.2 = .ok segs → (∀ x ∈ segs, x.remote = none ∧ s.mem.readPoison x.pa x.len = false) →
        let bs := segs.flatMap fun x => s.mem.read x.pa x.len
        bs.length = 16 * t.effN →
        let ent := fun i : Nat => unle ((bs.drop (16 * i)).take 16)
        ((∀ i : Nat, i < t.effN → goodEffect (ent i) ∧ ent i / 2 ^ 64 % 2 ^ 32 ≠ 0) →
          ∃ v : Vector (BitVec 128) 16, (∀ i : Fin 16, v[i.val] = if i.val < t.effN then BitVec.ofNat 128 (ent i.val) else 0)
            ∧ exec (.takeComplete f) s = .next (withDev s (r.1.updFrame f fun fr => { fr with eff := v })))
        ∧ (∀ k : Nat, k < t.effN → ¬ goodEffect (ent k) → (∀ i : Nat, i < k → goodEffect (ent i)) →
          ∃ v : Vector (BitVec 128) 16, stop (r.1.updFrame f fun fr => { fr with eff := v }) 0x04 (t.eff.toNat + 16 * k)))
      ∧ (∀ x : XErr, r.2 = .error x → stop (r.1.memFault g.ctx x .read 0 f.val) 0x06 t.eff.toNat)

/-- A decrement reaches its task (R237–R239, R256, R266). A counter above one only falls; one that comes to zero offers a task
without credits, with its context's next offer number, and puts one with credits into the line of its channel, or faults it
where the channel is not valid. A counter of zero, a task that is not PENDING, and a task whose graph is gone are
DEP_UNDERFLOW; a decrement of an aborted or destroyed graph is dropped. -/
def Sys2Proof.Machine.Claim.Decrements : Prop :=
  ∀ (s : State) (e : Dec) (es : List Dec), s.mkt.decs = e :: es →
    let t := e.task
    let d : Dev := { s.toDev with mkt := { s.mkt with decs := es } }
    let out := fun d : Dev => exec .successorDecrement s = .next (withDev s d)
    (s.toDev.task? t = none → out (d.marketFault e.ctx 0x01 none e.tag (some e.queue)))
      ∧ (∀ (g : Graph) (x : Task), s.toDev.graph? t.graph = some g → g.tasks[t.idx]? = some x →
        ((g.aborted = true ∨ g.destroyed = true) → out d)
        ∧ (g.aborted = false → g.destroyed = false →
          let n := (s.toDev.ctx g.ctx).offerSeq
          let chan := s.toDev.credit x.crdCh
          (x.state ≠ .pending ∨ x.ctr = 0 → out (d.marketFault g.ctx 0x01 (some g.id) x.tag))
          ∧ (x.state = .pending → 1 < x.ctr → out (d.updTask t fun x => { x with ctr := x.ctr - 1 }))
          ∧ (x.state = .pending → x.ctr = 1 → x.credit = false →
            out ((d.updCtx g.ctx fun c => { c with offerSeq := (n + 1) % 2 ^ 48 }).updTask t fun x =>
              { x with ctr := 0, state := .offered, offer := n }))
          ∧ (x.state = .pending → x.ctr = 1 → x.credit = true → chan.v = true →
            out ((((d.updTask t fun x => { x with ctr := 0, state := .creditWait }).trace 4 0xFFFF g.ctx.toNat
              x.crdCh).setCredit x.crdCh { chan with waiters := chan.waiters ++ [t] }).serveChannel x.crdCh))
          ∧ (x.state = .pending → x.ctr = 1 → x.credit = true → chan.v = false →
            out (((d.updTask t fun x => { x with ctr := 0, state := .faulted }).trace 2 0xFFFF g.ctx.toNat).marketFault
              g.ctx 0x04 (some g.id) x.tag))))

/-- An update reaches its semaphore: the value is stored, or added modulo 2^64. Where no queue tail, watcher or credit
channel looks at the semaphore nothing else changes, but for the entry that waits for the update, which completes; an idle
queue whose tail the semaphore is, wherever it stands among the queues, fetches (R187, R245, R246, R283). -/
def Sys2Proof.Machine.Claim.SemaphoreUpdates : Prop :=
  ∀ (s : State) (u : SemUpd) (us : List SemUpd), s.mkt.semQ = u :: us →
    (∀ w ∈ s.mkt.watchers, w.sem ≠ u.sem) → (∀ c ∈ s.mkt.credits, c.2.v = false ∨ c.2.sem.toNat ≠ u.sem) →
    let old := (s.mkt.sems.get? u.sem).getD 0
    let d : Dev := { s.toDev with mkt := { s.mkt with
      semQ := us, sems := s.mkt.sems.putD 0 u.sem (if u.add then old + u.value else u.value) } }
    ((∀ q ∈ s.hif.queues, q.2.state = .free ∨ q.2.tailSem = false ∨ q.2.sem.toNat ≠ u.sem) →
        (u.entry = none → exec .semaphoreUpdate s = .next (withDev s d))
        ∧ (∀ (q n : Nat) (e : Entry), u.entry = some (q, n) → s.toDev.entry? q n = some e →
          exec .semaphoreUpdate s = .next (withDev s (d.complete q e .ok).1)))
      ∧ (∀ (q : Nat) (r : QRec), SMap.rising s.hif.queues = true → SMap.get? s.hif.queues q = some r →
        (∀ p ∈ s.hif.queues, p.1 ≠ q → p.2.state = .free ∨ p.2.tailSem = false ∨ p.2.sem.toNat ≠ u.sem) →
        r.state = .idle → r.tailSem = true → r.sem.toNat = u.sem → u.entry = none → exec .semaphoreUpdate s
          = .next (withDev s (d.setQueue q { r with rung := true, state := .fetching })))

/-- A watcher whose target an update reaches fires once, wherever it stands among the watchers: the task's counter falls, and a task
without credits whose counter comes to zero is offered (R238, R246). -/
def Sys2Proof.Machine.Claim.WatcherFires : Prop :=
  ∀ (s : State) (u : SemUpd) (us : List SemUpd) (w : Watcher) (as_ bs : List Watcher) (t : Dec) (g : Graph) (x : Task),
    s.mkt.semQ = u :: us → u.entry = none →
    (∀ q ∈ s.hif.queues, q.2.state = .free ∨ q.2.tailSem = false ∨ q.2.sem.toNat ≠ u.sem) →
    let old := (s.mkt.sems.get? u.sem).getD 0
    let v := if u.add then old + u.value else u.value
    s.mkt.watchers = as_ ++ w :: bs → (∀ o ∈ as_ ++ bs, o.sem ≠ u.sem ∨ v.toNat < o.target) →
    w.sem = u.sem → w.target ≤ v.toNat → w.what = .task t → (∀ c ∈ s.mkt.credits, c.2.v = false ∨ c.2.sem.toNat ≠ u.sem) →
    s.toDev.graph? t.task.graph = some g → g.tasks[t.task.idx]? = some x → g.aborted = false → g.destroyed = false →
    x.state = .pending →
    let d : Dev := { s.toDev with mkt := { s.mkt with
      semQ := us, watchers := as_ ++ bs, sems := s.mkt.sems.putD 0 u.sem v } }
    let n := (s.toDev.ctx g.ctx).offerSeq
    (1 < x.ctr → exec .semaphoreUpdate s = .next (withDev s (d.updTask t.task fun x => { x with ctr := x.ctr - 1 })))
      ∧ (x.ctr = 1 → x.credit = false → exec .semaphoreUpdate s = .next (withDev s
        ((d.updCtx g.ctx fun c => { c with offerSeq := (n + 1) % 2 ^ 48 }).updTask t.task fun x =>
          { x with ctr := 0, state := .offered, offer := n })))

/-- A graph of an ACTIVE, bound context that has been quiet too long is captured once, its queue stopped, and the
context keeps its state (R292). -/
def Sys2Proof.Machine.Claim.HungGraph : Prop :=
  ∀ (s : State) (id : Nat) (g : Graph), s.toDev.graph? id = some g → g.completed = false → g.aborted = false →
    g.destroyed = false → g.hung = false → (g.kind = .graph ∨ g.kind = .batch) →
    (s.toDev.ctx g.ctx).state = .active → (s.toDev.ctx g.ctx).bound = true → (s.toDev.queue g.queue).hangMs ≠ 0 →
    let t := g.oldestTaken
    let e := s.toDev.entry? g.queue g.seq
    let out := (s.toDev.updGraph id fun g => { g with hung := true }).commandFault g.queue (some g.ctx) {
      kind := 4, tag := (t.map (·.tag.toNat)).getD 0, frame := t.bind (·.frame), graph := some id
      entry := (e.map (·.bytes)).getD (zeros 64)
      ringAddr := (e.map fun e => (s.toDev.queue g.queue).ringAddrOf e.seq).getD 0 }
    exec (.graphHang id) s = .next (withDev s out) ∧ (out.ctx g.ctx).state = .active

/-! ### Contexts, stalls and saves (R249–R265, R472–R474) -/

/-- Binding an ACTIVE context with nothing saved to a stall that fits; a saved one is restored there when its image checks
and its frames can be placed, and loses its state when it does not check; unbinding, at once with no task on a frame
(R250, R254, R264). -/
def Sys2Proof.Machine.Claim.BindAndUnbind : Prop :=
  ∀ (s : State) (c : BitVec 12) (stall : Nat), s.toDev.schedUp = true →
    let x := s.toDev.ctx c
    (x.bound = false → s.toDev.stallFits x stall = true →
        let out := fun d : Dev => exec (.contextBind c stall) s = .next (withDev s d)
        (x.state = .active → s.toDev.hasSaved c = false →
          out (s.toDev.setCtx c { x with bound := true, stall := BitVec.ofNat 16 stall }))
        ∧ (x.state = .active ∧ s.toDev.hasSaved c = true ∨ x.state = .saved ∧ x.orphaned = false →
          (s.toDev.goodImage c = none →
            let d := s.toDev.setCtx c { x with state := .stateLost }
            out { d with mkt := { d.mkt with imageInvalid := true } })
          ∧ (∀ img : SaveImg, s.toDev.goodImage c = some img →
            let left := img.images.filter fun i => ((s.toDev.task? i.task).map (·.state)) == some .saved
            (s.toDev.placeImages stall left [] = none → out s.toDev)
            ∧ (∀ ps : List (Image × FrameId), s.toDev.placeImages stall left [] = some ps →
              out (ps.foldl (fun d p => d.updFrame p.2 fun fr => { fr with
                state := .restoring, ctx := c, ctxV := true, task := some p.1.task, cycles := d.ns, wantTake := false })
                (s.toDev.setCtx c { x with state := .restoring, bound := true, stall := BitVec.ofNat 16 stall }))))))
      ∧ (x.bound = true → x.unbinding = false → x.state ≠ .saving → x.state ≠ .restoring → x.state ≠ .free →
        (s.toDev.ctxBusy c = false → exec (.contextUnbind c) s
          = .next (withDev s (s.toDev.setCtx c { x with unbinding := false, bound := false, stall := 0xFFFF })))
        ∧ (s.toDev.ctxBusy c = true →
          exec (.contextUnbind c) s = .next (withDev s (s.toDev.setCtx c { x with unbinding := true }))))

/-- When PREEMPT_WAIT passes on a context being unbound whose tasks still run, its save begins and every frame of it
is asked to stop (R254, R262). -/
def Sys2Proof.Machine.Claim.PreemptWaitExpires : Prop :=
  ∀ (s : State) (c : BitVec 12),
    let x := s.toDev.ctx c
    s.toDev.schedUp = true → x.unbinding = true → x.insnPreempt = true → s.hif.agreed.getLsbD 2 = true →
    x.state = .active → s.toDev.ctxBusy c = true →
    exec (.preemptWaitExpiry c) s = .next (withDev s
      (((s.toDev.beginSave c).ctxFrames c).foldl (fun d f => d.settle f) (s.toDev.beginSave c)))

/-- The scheduler core moves an idle frame to a stall, or out of every stall, when no idle frame has to leave
service (R253). -/
def Sys2Proof.Machine.Claim.StallsReallocated : Prop :=
  ∀ (s : State) (f : FrameId) (st : Nat), s.toDev.schedUp = true → (s.frame f).state = .idle →
    (s.frame f).task = none → (s.frame f).granted = none → (s.frame f).guardRun = none →
    (s.frame f).svc.insvc = true → (∀ g : FrameId, (s.frame g).svc.flagged = false ∧ (s.frame g).svc.excluded = false) →
    (st < 384 → exec (.stallReallocation [(f, some st)]) s = .next (withDev s (s.toDev.updFrame f fun fr =>
        { fr with stallV := true, stall := BitVec.ofNat 9 st, wantTake := false })))
      ∧ exec (.stallReallocation [(f, none)]) s = .next (withDev s (s.toDev.updFrame f fun fr =>
        { fr with stallV := false, stall := 0, wantTake := false }))

/-- The images of a drained context are written: it is SAVED, or FAULTED where a fault came meanwhile, and unbound;
its tasks are SAVED; the generation that marks the image complete is written last (R260, R262, R265). A destruction or
a stall reset that waited for it goes on. -/
def Sys2Proof.Machine.Claim.SaveCompletes : Prop :=
  ∀ (s : State) (c : BitVec 12),
    let x := s.toDev.ctx c
    let d := (s.toDev.finishSave c).updCtx c fun y => { y with resetWait := false }
    let reset := fun d : Dev => if x.resetWait = true ∧ d.savingOn x.stall.toNat = [] then d.stallClear x.stall.toNat else d
    s.toDev.drained c = true →
    exec (.saveImageWritten c) s
        = .next (withDev s (reset (if x.destroyWait then d.destroyCtx c x.disc.entry else d)))
      ∧ (d.ctx c).bound = false ∧ (d.ctx c).stall = 0xFFFF
      ∧ (d.ctx c).state = (if x.saveFault then .faulted else .saved)

/-- A restore with nothing left to reload makes its context ACTIVE and forgets its images; a frame it reloads runs on with what
its image held, its task TAKEN there again, and one of which a stop was asked meanwhile stops at once (R103, R136, R145, R264).
Every other frame, the queues, the links and the jobs stay as they are, when no graph's completion bell waits. -/
def Sys2Proof.Machine.Claim.RestoreCompletes : Prop :=
  ∀ (s : State) (c : BitVec 12) (img : SaveImg),
    let x := s.toDev.ctx c
    let back := fun f : FrameId => (s.frame f).state = .restoring ∧ (s.frame f).ctx = c
    x.state = .restoring → (s.mkt.saves.find? fun i => i.ctx == c && i.gen == x.saveGen) = some img →
    (∀ g ∈ s.mkt.graphs, g.completed = false) → (∀ i ∈ img.images, i.st.killing = false ∧ i.st.quiet = true) →
    ∃ d : Dev, exec (.restoreComplete c) s = .next (withDev s d)
      ∧ d.ctx c = { x with state := .active, orphanStop := false }
      ∧ d.mkt.saves = s.mkt.saves.filter (·.ctx != c)
      ∧ (∀ (f : FrameId) (i : Image), back f → (img.images.find? fun i => some i.task == (s.frame f).task) = some i →
          (d.frame f).state = (if (s.frame f).preempt then .saving else .running) ∧ (d.frame f).preempt = false
            ∧ (d.frame f).regs = i.st.regs ∧ (d.frame f).pc = i.st.pc
            ∧ (d.frame f).eff = i.st.eff ∧ (d.frame f).chans = i.st.chans ∧ (d.frame f).fmtFlags = i.st.fmtFlags
            ∧ (d.frame f).task = some i.task ∧ (d.frame f).geom = (s.frame f).geom ∧ (d.frame f).svc = (s.frame f).svc)
      ∧ (∀ f : FrameId, ¬ back f → d.frame f = s.frame f) ∧ d.hif = s.hif ∧ d.lnk = s.lnk ∧ d.xch = s.xch

/-- A destroyed context whose frames are idle is FREE and owns nothing any more: no graph, image, queue, record, ring or watcher
(R249). The CTX_CTRL entry that asked for it then completes with the counts of R295, where there is one. -/
def Sys2Proof.Machine.Claim.ContextIsGone : Prop :=
  ∀ (s : State) (c : BitVec 12),
    let x := s.toDev.ctx c
    SMap.rising s.mkt.ctxs = true → x.state = .destroying → s.toDev.ctxBusy c = false →
    ∃ d : Dev, d.ctx c = {}
      ∧ (∀ g ∈ d.mkt.graphs, g.ctx ≠ c) ∧ (∀ i ∈ d.mkt.saves, i.ctx ≠ c)
      ∧ (∀ q ∈ d.hif.queues, q.2.ctx = c.setWidth 16 → q.2.state = .free)
      ∧ (∀ w : WaitRec, w ∈ d.hif.waiting → w.ctx ≠ c.setWidth 16) ∧ (∀ r ∈ d.hif.crings, r.2.ctx ≠ c.setWidth 16)
      ∧ (∀ w ∈ d.mkt.watchers, ∀ t : Dec, w.what = .task t → t.ctx ≠ c) ∧ d.ns = s.ns
      ∧ (x.disc.entry = none → exec (.contextDestroyComplete c) s = .next (withDev s d))
      ∧ (∀ n : Nat, x.disc.entry = some n →
        (d.entry? 0 n = none → exec (.contextDestroyComplete c) s = .next (withDev s d))
        ∧ (∀ e : Entry, d.entry? 0 n = some e →
          let lo := fun n : Nat => min n (2 ^ 32 - 1)
          exec (.contextDestroyComplete c) s = .next (withDev s (d.complete 0 e .ok
            (lo x.disc.tasks + lo x.disc.insns * 2 ^ 32) (lo x.disc.chunks + lo x.disc.withdrawn * 2 ^ 32)
            (lo x.disc.entries + lo ((s.ns - x.disc.start) / 1000000) * 2 ^ 32)).1)))

/-- A reset of a stall with a frame that has not stopped as it was asked to, where no context is being saved, clears its frames
and faults their tasks; with no such frame nothing is reset (R472); one on which a
context is being saved waits for it, and the wait's expiry loses that context's state and resets the stall
(R472–R474). -/
def Sys2Proof.Machine.Claim.StallResets : Prop :=
  ∀ (s : State) (stall : Nat),
    let due := ∃ f : FrameId, (s.frame f).stallV = true ∧ (s.frame f).stall.toNat = stall ∧ (s.frame f).task ≠ none
      ∧ ((s.frame f).killing = true ∨ (s.frame f).preempt = true ∧ (s.frame f).state ≠ .faulted ∨ (s.frame f).state = .saving)
    (¬ due → exec (.stallReset stall) s = .next s)
      ∧ (due → s.toDev.schedUp = true → s.toDev.savingOn stall = [] →
        exec (.stallReset stall) s = .next (withDev s (s.toDev.stallClear stall)))
      ∧ (∀ c : BitVec 12, due → s.toDev.schedUp = true → s.toDev.savingOn stall = [c] →
        exec (.stallReset stall) s = .next (withDev s (s.toDev.updCtx c fun x => { x with resetWait := true })))
      ∧ (∀ c : BitVec 12,
        let x := s.toDev.ctx c
        let d := s.toDev.setCtx c { x with
          state := .stateLost, resetWait := false, saveFault := false, orphanStop := false, unbinding := false }
        x.state = .saving → x.resetWait = true → x.destroyWait = false → d.savingOn x.stall.toNat = [] →
        exec (.saveResetWaitExpiry c) s = .next (withDev s (d.stallClear x.stall.toNat)))

/-! ### Queues (R276–R297) -/

/-- A doorbell rings its queue: an idle one fetches, a FREE or DESTROYING one drops it and counts (R283). A queue
that is held by nothing any more goes on fetching (R284). -/
def Sys2Proof.Machine.Claim.Doorbells : Prop :=
  ∀ (s : State) (q : BitVec 14), s.up = true →
    let r := s.toDev.queue q.toNat
    let put := fun r' : QRec => withDev s (s.toDev.setQueue q.toNat r')
    ((r.state = .free ∨ r.state = .destroying) → exec (.doorbell q) s = .next (put { r with dbDropped := r.dbDropped + 1 }))
      ∧ (r.state = .idle → exec (.doorbell q) s = .next (put { r with rung := true, state := .fetching }))
      ∧ ((r.state = .fetching ∨ r.state = .held ∨ r.state = .stopped) →
          exec (.doorbell q) s = .next (put { r with rung := true }))
      ∧ (r.state = .held → r.holder = none → exec (.queueHoldEnd q) s = .next (put { r with state := .fetching }))

/-- The fetcher with an unread entry before its snapshot of the tail reads it, stores the advanced head and keeps the
entry open, in its place; at the snapshot with no doorbell rung since it goes idle (R278, R285). -/
def Sys2Proof.Machine.Claim.EntryFetched : Prop :=
  ∀ (s : State) (q : BitVec 14),
    let r := s.toDev.queue q.toNat
    let d0 := s.toDev.updQueue q.toNat fun r => { r with state := .fetching }
    let rd := d0.ringRead r.ctx (r.ringAddrOf r.head) 64
    let wr := rd.1.ringWrite r.ctx r.headA.toNat (le 8 (r.head + 1))
    s.up = true → s.toDev.mayFetch q.toNat = true → r.holder = none → s.toDev.frontEntry q.toNat = none →
    r.state = .fetching → r.snap = true → r.headOwed = false →
    (∀ bs : List Byte, r.head < r.tail → rd.2 = .ok (bs, false) → wr.2 = .ok () →
        let e : Entry := { seq := r.head, bytes := bs }
        let d := wr.1.updQueue q.toNat fun r' => { r' with
          head := r.head + 1, state := .fetching, entries := r'.entries ++ [e] }
        d.badEntry q.toNat e = none → e.type ≠ 4 → e.type ≠ 6 → e.ordered = false →
        exec (.entryFetch q) s = .next (withDev s d))
      ∧ (r.tail ≤ r.head → r.rung = false →
        exec (.entryFetch q) s = .next (withDev s (d0.setQueue q.toNat { r with state := .idle, snap := false })))

/-- Entries that start at once: a NOP completes; a WAIT_SEM whose target is reached completes, and one whose target is
not leaves a watcher and holds its queue; its timeout completes it with WAIT_TIMEOUT; a COPY is offered as a task of
priority 7 (R280–R282). -/
def Sys2Proof.Machine.Claim.EntriesStart : Prop :=
  ∀ (s : State) (q : BitVec 14) (e : Entry),
    (s.toDev.starting q.toNat 8 = some e →
        exec (.nopEntry q) s = .next (withDev s (s.toDev.complete q.toNat e .ok).1))
      ∧ (s.toDev.starting q.toNat 4 = some e →
        let sem := field e.bytes 0x10 4
        let target := field e.bytes 0x18 8
        (target ≤ (s.toDev.sem sem).toNat →
          exec (.waitSem q) s = .next (withDev s (s.toDev.complete q.toNat e .ok).1))
        ∧ ((s.toDev.sem sem).toNat < target → s.mkt.watchers.length < 262144 →
          exec (.waitSem q) s = .next (withDev s ((({ s.toDev with mkt := { s.mkt with
            watchers := s.mkt.watchers ++ [{ sem := sem, target := target, what := .entry q.toNat e.seq }] } } : Dev).updEntry
              q.toNat e.seq fun e => { e with state := .watching }).updQueue q.toNat fun r =>
                { r with holder := some e.seq, state := .held, snap := false }))))
      ∧ ((s.toDev.queue q.toNat).entries = [e] → e.state = .watching → field e.bytes 0x20 4 ≠ 0 →
        exec (.waitSemTimeout q) s = .next (withDev s (({ s.toDev with mkt := { s.mkt with
          watchers := s.mkt.watchers.filter fun w => w.what != .entry q.toNat e.seq } } : Dev).complete q.toNat e
            .waitTimeout).1))
      ∧ (∀ c : BitVec 12, s.toDev.starting q.toNat 3 = some e → (s.toDev.queue q.toNat).ctx = c.setWidth 16 →
        let cf := field e.bytes 0x28 1
        let tag : Word := BitVec.ofNat 64 (field e.bytes 8 8)
        let id := s.mkt.nextGraph
        let d : Dev := { s.toDev with mkt := { s.mkt with
          nextGraph := id + 1
          graphs := s.mkt.graphs ++ [{
            id := id, ctx := c, queue := q.toNat, seq := e.seq, tag := tag, doneSem := 0, doneVal := 0, bell := false
            bellAdd := false, tasks := [{ prio := 7, tag := tag }]
            kind := .copy (field e.bytes 0x10 8) (field e.bytes 0x18 8) (field e.bytes 0x20 8) (bit cf 0) (bit cf 1) }] } }
        exec (.copy q) s = .next (withDev s (((d.started q.toNat e.seq .running).updEntry q.toNat e.seq fun e =>
          { e with graph := some id }).offer { graph := id, idx := 0 })))

/-- An entry that completes with status OK and without CREC leaves its queue and writes no record; with CREC, or with
another status, its record goes to the queue's completion ring (R288). -/
def Sys2Proof.Machine.Claim.EntryCompletes : Prop :=
  ∀ (d : Dev) (q : Nat) (e : Entry) (st : Status) (i0 i1 i2 : Nat),
    let r := d.queue q
    let d' := d.setQueue q { r with
      completed := r.completed + 1, entries := r.entries.filter (·.seq != e.seq)
      holder := if r.holder = some e.seq then none else r.holder }
    (st = .ok → bit (field e.bytes 1 1) 0 = false → d.complete q e st i0 i1 i2 = (d', true))
      ∧ (st ≠ .ok ∨ bit (field e.bytes 1 1) 0 = true → d.complete q e st i0 i1 i2 = d'.putRecord {
        ring := r.cring.toNat, ctx := r.ctx, irq := bit (field e.bytes 1 1) 1
        bytes := le 2 q ++ le 1 (field e.bytes 0 1) ++ [0] ++ le 2 st.code ++ [0, 0] ++ le 8 e.seq
          ++ le 8 (field e.bytes 8 8) ++ le 8 d.waggle ++ le 8 i0 ++ le 8 i1 ++ le 8 i2 ++ List.replicate 8 0 })

/-- GRAPH_LAUNCH and TASK_BATCH launch their graph, hold their queue when the context's tasks would pass its quota
now, and complete with NO_QUOTA when they never can; a held launch tries again (R234, R281). -/
def Sys2Proof.Machine.Claim.Launches : Prop :=
  ∀ (s : State) (q : BitVec 14) (e : Entry) (batch : Bool) (c : BitVec 12),
    (s.toDev.queue q.toNat).ctx = c.setWidth 16 →
    s.toDev.starting q.toNat (if batch then 2 else 1) = some e →
    let cmd : Instr := if batch then .taskBatch q else .graphLaunch q
    let l := s.toDev.launchEntry c q.toNat e batch
    let free := withDev s (l.1.updQueue q.toNat fun r =>
      { r with holder := if r.holder = some e.seq then none else r.holder })
    (l.2 = .started → exec cmd s = .next free
        ∧ ((s.toDev.queue q.toNat).holder = some e.seq → exec (.launchHoldRelease q) s = .next free))
      ∧ (l.2 = .held → exec cmd s = .next (withDev s (l.1.updQueue q.toNat fun r =>
        { r with holder := some e.seq, state := .held, snap := false })))
      ∧ (l.2 = .noQuota → exec cmd s = .next (withDev s (l.1.complete q.toNat e .noQuota 0 0 0
          (some (l.1.launchTag c e batch))).1))
      ∧ (∀ cause : Nat, l.2 = .failed cause → exec cmd s = .next (withDev s (l.1.launchFailed c q.toNat e batch cause)))

/-- A TASK_BATCH within its context's quota whose records can be read and are good registers its tasks as one graph, and each
is offered in the order of the array, or goes into the line of its credit channel; the entry runs and holds its queue no
longer (R231, R234, R239, R281). -/
def Sys2Proof.Machine.Claim.BatchRegisters : Prop :=
  ∀ (s : State) (q : BitVec 14) (e : Entry) (c : BitVec 12) (bs : List Byte) (rs : List (Task × Nat × Nat)),
    s.toDev.starting q.toNat 2 = some e → (s.toDev.queue q.toNat).ctx = c.setWidth 16 →
    let n := field e.bytes 0x18 4
    let va := field e.bytes 0x10 8
    let most := (s.toDev.ctx c).maxTasks.toNat
    1 ≤ n → n ≤ 65536 → va % 64 = 0 → va < 2 ^ 52 → s.toDev.liveOf c + n ≤ most → s.mkt.watchers.length ≤ watcherCap →
    (s.toDev.readVirt unitMkt c va (64 * n)).2 = .ok (bs, false) → Task.records va true bs n = some rs →
    let d := (s.toDev.readVirt unitMkt c va (64 * n)).1
    let id := d.mkt.nextGraph
    let d : Dev := { d with mkt := { d.mkt with
      nextGraph := id + 1
      graphs := d.mkt.graphs ++ [{
        id := id, ctx := c, queue := q.toNat, seq := e.seq, kind := .batch, tasks := rs.map fun r => { r.1 with succ := [] }
        doneSem := 0, doneVal := 0, bell := false, bellAdd := false, tag := BitVec.ofNat 64 (field e.bytes 8 8) }] } }
    exec (.taskBatch q) s = .next (withDev s (((d.updQueue q.toNat fun r => { r with entries := r.entries.map fun x =>
      if x.seq = e.seq then { x with state := .running, graph := some id } else x }).releaseReady id n).updQueue q.toNat fun r =>
        { r with holder := if r.holder = some e.seq then none else r.holder }))

/-- SIGNAL_SEM to a semaphore of this device, of its own job: the update sets out and the entry runs until it is
applied, holding its queue no longer (R281, R291). -/
def Sys2Proof.Machine.Claim.SignalSets : Prop :=
  ∀ (s : State) (q : BitVec 14) (e : Entry) (c owner : BitVec 12) (n : Nat),
    s.toDev.starting q.toNat 5 = some e → (s.toDev.queue q.toNat).ctx = c.setWidth 16 →
    let addr : Word := BitVec.ofNat 64 (field e.bytes 0x10 8)
    fabDev addr = s.lnk.devId → addr.toNat % 2 ^ 48 / 8 * 8 = semBase + 8 * n → n < semCount →
    s.toDev.semOwner n = some owner → (s.toDev.ctx owner).job = (s.toDev.ctx c).job →
    exec (.signalSem q) s = .next (withDev s
      { s.toDev.started q.toNat e.seq .running with mkt := { s.mkt with semQ := s.mkt.semQ ++ [{
        sem := n, value := BitVec.ofNat 64 (field e.bytes 0x18 8), add := decide (field e.bytes 0x20 1 = 1)
        entry := some (q.toNat, e.seq) }] } })

/-- A BARRIER entry for a group of its context arrives there and holds its queue; for any other group it fails with
NOT_PERMITTED (R399). -/
def Sys2Proof.Machine.Claim.BarrierEntryArrives : Prop :=
  ∀ (s : State) (q : BitVec 14) (e : Entry), s.toDev.starting q.toNat 6 = some e →
    let g := field e.bytes 0x10 2
    let gr := s.toDev.group g
    (gr.state ≠ .free → gr.ctx = (s.toDev.queue q.toNat).ctx →
        exec (.barrier q) s = .next (withDev s (((s.toDev.updEntry q.toNat e.seq fun e =>
          { e with state := .arrived }).updQueue q.toNat fun r =>
            { r with holder := some e.seq, state := .held, snap := false }).arriveAll g (.entry q.toNat e.seq))))
      ∧ (gr.state = .free ∨ gr.ctx ≠ (s.toDev.queue q.toNat).ctx →
        exec (.barrier q) s = .next (withDev s (s.toDev.failEntry q.toNat e .notPermitted)))

/-- Completion rings: a poll writes the records that wait for the ring in their order, the oldest first and then the rest as a poll
of its own would, and stops at the first that does not go out; a moderation interval that ends with a record pending raises
the vector, one without only ends (R289, R290). -/
def Sys2Proof.Machine.Claim.CompletionRings : Prop :=
  ∀ (s : State) (r : BitVec 14),
    let cr := s.toDev.cring r.toNat
    (∀ (w : WaitRec) (ws : List WaitRec), s.hif.waiting = w :: ws → w.ctx = cr.ctx → w.ring = r.toNat → w.graph = none →
        let t := s.toDev.tryRecord w
        (t.2 = true → t.1.hif.waiting = w :: ws → (t.1.cring r.toNat).ctx = cr.ctx →
          (∀ v : WaitRec, (ws.find? fun x => x.ctx == cr.ctx) = some v → v.ring = r.toNat) →
          exec (.cringHeadPoll r) s
            = exec (.cringHeadPoll r) (withDev s { t.1 with hif := { t.1.hif with waiting := ws } }))
        ∧ (t.2 = false → exec (.cringHeadPoll r) s = .next (withDev s t.1)))
      ∧ ((∀ w ∈ s.hif.waiting, w.ctx ≠ cr.ctx) → exec (.cringHeadPoll r) s = .next s)
      ∧ (cr.modRunning = true → cr.modPending = false → exec (.irqModerationExpiry r) s
        = .next (withDev s (s.toDev.setCring r.toNat { cr with modRunning := false })))
      ∧ (cr.modRunning = true → cr.modPending = true → exec (.irqModerationExpiry r) s
        = .next (withDev s ((s.toDev.setCring r.toNat { cr with modRunning := false, modPending := false }).ringVector
          r.toNat)))

/-- A failed host read ends its COPY with HOST_ABORT, counts an AER event and idles the frame (R297). -/
def Sys2Proof.Machine.Claim.HostReadFails : Prop :=
  ∀ (s : State) (f : FrameId) (t : TaskRef) (m : Move) (a : Nat) (g : Graph) (e : Entry),
    (s.frame f).task = some t → (s.frame f).killing = false → (s.frame f).moves = [m] → m.copy = true →
    m.acked = false → m.src = .host a → s.toDev.graph? t.graph = some g → s.toDev.entry? g.queue g.seq = some e →
    let d := ({ s.toDev with hif := { s.hif with aer := s.hif.aer + 1 } } : Dev)
    let d := (d.updTask t fun x => { x with state := .discarded, frame := none }).endOnFrame f
    d.entry? g.queue g.seq = some e →
    exec (.hostReadFailure f) s = .next (withDev s ((d.complete g.queue e .hostAbort).1.dropGraph g.id))
/-! ### CTX_CTRL (R249–R251, R286, R294, R295, R301) -/

/-- CREATE_CTX with a valid image, a FREE context and resources that suffice makes the context ACTIVE with its image's
fields (a PREEMPT_WAIT of 0 is the default of 1,000) and its semaphores zero, issues the invalidation of its translations and
completes with the first semaphore in INFO0. It waits while 16 invalidations are pending. -/
def Sys2Proof.Machine.Claim.CreatesContext : Prop :=
  ∀ (s : State) (want first : Nat) (k : Ctl) (b : List Byte), s.toDev.ctl 1 = some k → k.ctx ≤ 4095 → k.queue ≤ 16383 →
    s.toDev.physRead k.arg0 256 = some b → badCtxImage b = false → (s.toDev.ctx k.c).state = .free →
    s.toDev.ctxGate b want = .ok first → (s.mem.tlbiIssued - s.mem.tlbiDone).toNat < 16 →
    let n := field b 0x54 4
    let d : Dev := { s.toDev with mkt := { s.mkt with
      sems := s.mkt.sems.filter fun m => !(decide (first ≤ m.1) && decide (m.1 < first + n)) } }
    let x : Ctx := {
      state := .active, insnPreempt := bit (field b 1 1) 2, cls := BitVec.ofNat 2 (field b 2 1)
      weight := BitVec.ofNat 8 (field b 3 1), job := BitVec.ofNat 16 (field b 4 2), stall := 0xFFFF
      ptRoot := BitVec.ofNat 64 (field b 8 8), saveArea := BitVec.ofNat 64 (field b 16 8)
      faultArea := BitVec.ofNat 64 (field b 24 8), maxTasks := BitVec.ofNat 32 (field b 32 4)
      minFrames := BitVec.ofNat 16 (field b 36 2), maxFrames := BitVec.ofNat 16 (field b 38 2)
      preemptWait := if field b 40 4 = 0 then 1000 else BitVec.ofNat 32 (field b 40 4), semFirst := BitVec.ofNat 32 first
      semCount := BitVec.ofNat 32 n, needW128 := bit (field b 88 8) 0 }
    exec (.createCtx want) s = .next (withDev s
      (((d.acceptTlbi (.ctx k.c)).setCtx k.c x).complete 0 k.e .ok first).1)

/-- The operations on a context that exists: DESTROY_CTX opens its entry and begins, RESUME_CTX makes a FAULTED context
ACTIVE and its queues go on, ADOPT_CTX ends its orphanhood and answers its state (what its stop at the orphan limit holds waits
for its restore), SET_SCHED sets class, weight and
maximum. -/
def Sys2Proof.Machine.Claim.ContextOperations : Prop :=
  ∀ (s : State) (k : Ctl), k.ctx ≤ 4095 → k.queue ≤ 16383 →
    let x := s.toDev.ctx k.c
    let finish := fun (d : Dev) (i0 : Nat) => withDev s (d.complete 0 k.e .ok i0).1
    (x.state ≠ .free → x.state ≠ .destroying → x.destroyWait = false →
        (s.toDev.ctl 2 = some k → exec .destroyCtx s
          = .next (withDev s ((s.toDev.openCtl k).destroyCtx k.c (some k.e.seq))))
        ∧ (s.toDev.ctl 6 = some k → exec .adoptCtx s
          = .next (finish (s.toDev.setCtx k.c { x with
              orphaned := false
              orphanStop := x.orphanStop && decide (x.state = .saving ∨ x.state = .saved ∨ x.state = .restoring) })
            x.state.code))
        ∧ (s.toDev.ctl 9 = some k →
          let w := k.arg0 / 2 ^ 8 % 2 ^ 8
          let mx := k.arg0 / 2 ^ 32 % 2 ^ 9
          w ≠ 0 → 1 ≤ mx → mx ≤ 384 → x.minFrames.toNat ≤ mx →
          exec .setSched s = .next (finish (s.toDev.setCtx k.c { x with
            cls := BitVec.ofNat 2 k.arg0, weight := BitVec.ofNat 8 w, maxFrames := BitVec.ofNat 16 mx }) 0)))
      ∧ (s.toDev.ctl 3 = some k → x.state = .active →
          exec .resumeCtx s = .next (finish (s.toDev.resumeQueues k.c) 0))
      ∧ (s.toDev.ctl 3 = some k → x.state = .faulted →
          exec .resumeCtx s = .next (finish (((s.toDev.abortFaulted k.c).updCtx k.c fun x =>
            { x with state := .active, memFault := false }).resumeQueues k.c) 0))

/-- Queues and completion rings: CREATE_QUEUE and CREATE_CRING set up a FREE one from its image; DESTROY_CRING frees an
unused ring; DESTROY_QUEUE begins. -/
def Sys2Proof.Machine.Claim.QueueOperations : Prop :=
  ∀ (s : State) (k : Ctl), k.ctx ≤ 4095 → k.queue ≤ 16383 → k.queue ≠ 0 →
    let finish := fun d : Dev => withDev s (d.complete 0 k.e .ok).1
    let live := fun c : Nat => s.toDev.ctxDead (BitVec.ofNat 12 c) = false
    (∀ b : List Byte, s.toDev.ctl 4 = some k → s.toDev.physRead k.arg0 64 = some b →
        field b 0 1 ≤ 5 → field b 1 1 < 8 → bit (field b 1 1) 0 = false → field b 2 2 ≤ 4095 → 6 ≤ field b 4 1 → field b 4 1 ≤ 20 →
        field b 5 1 = 0 → field b 0x38 8 = 0 → (bit (field b 1 1) 2 = true → field b 0x20 4 < semCount) →
        (s.toDev.cring (field b 6 2)).active = true → (s.toDev.cring (field b 6 2)).ctx.toNat = field b 2 2 →
        live (field b 2 2) → (s.toDev.queue k.queue).state = .free →
        exec .createQueue s = .next (finish (s.toDev.setQueue k.queue {
          state := .idle, hostDma := bit (field b 1 1) 1, tailSem := bit (field b 1 1) 2, ctx := BitVec.ofNat 16 (field b 2 2)
          log2 := field b 4 1, cring := BitVec.ofNat 16 (field b 6 2), ring := BitVec.ofNat 64 (field b 8 8)
          headA := BitVec.ofNat 64 (field b 16 8), tailA := BitVec.ofNat 64 (field b 24 8)
          sem := BitVec.ofNat 32 (field b 32 4), hangMs := BitVec.ofNat 32 (field b 36 4) })))
      ∧ (∀ b : List Byte, s.toDev.ctl 7 = some k → s.toDev.physRead k.arg0 32 = some b →
        field b 0 1 ≤ 1 → field b 1 1 ≤ 1 → field b 2 2 ≤ 4095 → 6 ≤ field b 4 1 → field b 4 1 ≤ 20 → field b 5 1 = 0 →
        field b 6 2 ≠ 0 → (field b 6 2 ≤ 2047 ∨ field b 6 2 = 0xFFFF) → field b 0x1C 4 = 0 → live (field b 2 2) →
        (s.toDev.cring k.queue).active = false →
        exec .createCring s = .next (finish (s.toDev.setCring k.queue {
          active := true, irqAll := bit (field b 1 1) 0, ctx := BitVec.ofNat 16 (field b 2 2), log2 := field b 4 1
          vector := BitVec.ofNat 16 (field b 6 2), ring := BitVec.ofNat 64 (field b 8 8)
          headA := BitVec.ofNat 64 (field b 16 8), modUs := BitVec.ofNat 32 (field b 24 4) })))
      ∧ (s.toDev.ctl 8 = some k → (s.toDev.cring k.queue).active = true →
        (∀ q ∈ s.hif.queues, q.2.state = .free ∨ q.2.cring.toNat ≠ k.queue) →
        exec .destroyCring s = .next (finish (s.toDev.setCring k.queue {})))
      ∧ (s.toDev.ctl 5 = some k → (s.toDev.queue k.queue).state ≠ .free → (s.toDev.queue k.queue).state ≠ .destroying →
        exec .destroyQueue s = .next (withDev s ((s.toDev.openCtl k).destroyQueue k.queue (some k.e.seq))))

/-- The end of a destroyed queue: it is FREE with its entry complete once no frame runs its tasks; 100 ms without that
end the entry with QUIESCE_TIMEOUT and fault its context. -/
def Sys2Proof.Machine.Claim.QueueEnds : Prop :=
  ∀ (s : State) (q : BitVec 14),
    let r := s.toDev.queue q.toNat
    r.state = .destroying →
    (s.toDev.queueBusy q.toNat = false → exec (.queueQuiesced q) s
        = .next (withDev s ((({ s.toDev with mkt := { s.mkt with
            graphs := s.mkt.graphs.filter fun g => g.queue != q.toNat || g.completed } } : Dev).setQueue q.toNat
              {}).finishDestroy r.disc .ok)))
      ∧ (∀ (c : BitVec 12) (e : Nat), s.toDev.queueBusy q.toNat = true → r.disc.late = false → r.ctx = c.setWidth 16 →
        r.disc.entry = some e → exec (.quiesceTimeout q) s
        = .next (withDev s ((((s.toDev.setQueue q.toNat { r with disc := { r.disc with late := true, entry := none } }).faultCtx
            c).commandFault q.toNat (some c) { kind := 5, code := 0xC }).finishDestroy r.disc .quiesceTimeout)))

/-! ### The host (R207, R209, R274, R299–R301, R415, R505) -/

/-- ATTACH that nothing refuses attaches the driver and is answered OK; DETACH with every context FREE detaches. A
heartbeat is kept; the third sample without one loses the driver; an orphan's limit asks its context to stop. -/
def Obligations.DriverAttaches : Prop :=
  ∀ s : State, s.toDev.fwRuns = true →
    (∀ seq : BitVec 16, s.hif.mbxBusy = false → s.hif.mbxHeld = none → s.hif.fwReady = true → s.toDev.schedUp = true →
        (s.hif.refusal s.hif.request = none → exec (.attach seq) s = .next (withDev s
          (({ s.toDev with hif := { s.hif with mbxBusy := true, mbxHeld := some (1, seq) } } : Dev).attachDriver
            s.hif.request |>.answerMailbox seq 0 0 0)))
        ∧ ((∀ c ∈ s.mkt.ctxs, c.2.state = .free) → exec (.detach seq) s = .next (withDev s
          (({ s.toDev with hif := { s.hif with
            mbxBusy := true, mbxHeld := some (2, seq), attached := false } } : Dev).answerMailbox seq 0 0 0))))
      ∧ (∀ v : Word, exec (.heartbeat v) s
          = .next (withDev s { s.toDev with hif := { s.hif with heartbeat := v, beat := true, misses := 0 } }))
      ∧ (s.hif.attached = true → s.toDev.schedUp = true →
        (s.hif.beat = true → exec .heartbeatSample s
          = .next (withDev s { s.toDev with hif := { s.hif with beat := false, misses := 0 } }))
        ∧ (s.hif.beat = false → s.hif.misses < 2 → exec .heartbeatSample s
          = .next (withDev s { s.toDev with hif := { s.hif with misses := s.hif.misses + 1 } }))
        ∧ (s.hif.beat = false → 2 ≤ s.hif.misses → exec .heartbeatSample s = .next (withDev s s.toDev.driverLost)))
      ∧ (∀ c : BitVec 12, (s.toDev.ctx c).orphaned = true → s.hif.orphanLimit ≠ 0xFFFFFFFF →
          exec (.orphanLimitExpiry c) s
            = .next (withDev s (s.toDev.setCtx c { s.toDev.ctx c with orphanStop := true })))

/-- Invalidations: while fewer than 16 are pending one is issued and no translation it names is left in any TLB (the open
accesses that came through one are marked with its number); while 16 are pending the write waits. The oldest completes once no
marked access is open, and a write that waits is then accepted. Scans: GO starts one on the selected DRAM channel over that channel's own range, its end feeds
the range to the channel. -/
def Sys2Proof.Machine.Claim.InvalidatesAndScans : Prop :=
  ∀ s : State,
    let n := s.mem.tlbiDone + 1
    let bare : Frame → Frame := fun fr => { fr with
      loads := fr.loads.map fun l : Load => { l with inv := none }
      stores := fr.stores.map fun x : Store => { x with inv := none } }
    let bareReq := fun r : Req => { r with inv := none }
    let issued := fun (r : Host.Outcome State Fault Refusal) (gone : TlbE → Bool) =>
      ∃ (fr : Vector Frame 384) (reqs : List Req), fr.map bare = s.fr.map bare
        ∧ reqs.map bareReq = s.lnk.reqs.map bareReq
        ∧ r = .next (withDev s { s.toDev with
            mem := { s.mem with
              tlbiIssued := s.mem.tlbiIssued + 1, tlbs := s.mem.tlbs.map fun t => (t.1, t.2.filter fun e => !gone e) }
            fr := fr, lnk := { s.lnk with reqs := reqs } })
    let waits := fun (r : Host.Outcome State Fault Refusal) (t : Tlbi) =>
      r = .next (withDev s { s.toDev with mem := { s.mem with tlbiWait := s.mem.tlbiWait ++ [t] } })
    (s.toDev.fwRuns = true → (s.mem.tlbiIssued - s.mem.tlbiDone).toNat < 16 →
        (∀ (c : BitVec 12) (va : BitVec 52), issued (exec (.memTlbiVa c va) s) fun e => TlbE.hits e c va.toNat)
        ∧ (∀ c : BitVec 12, issued (exec (.memTlbiCtx c) s) fun e => e.ctx == c)
        ∧ issued (exec .memTlbiAll s) fun _ => true)
      ∧ (s.toDev.fwRuns = true → 16 ≤ (s.mem.tlbiIssued - s.mem.tlbiDone).toNat →
        (∀ (c : BitVec 12) (va : BitVec 52), waits (exec (.memTlbiVa c va) s) (.va c va.toNat))
        ∧ (∀ c : BitVec 12, waits (exec (.memTlbiCtx c) s) (.ctx c))
        ∧ waits (exec .memTlbiAll s) .all)
      ∧ (s.mem.tlbiDone ≠ s.mem.tlbiIssued →
        let d : Dev := { s.toDev with mem := { s.mem with tlbiDone := n } }
        (s.toDev.invDone n = true → s.mem.tlbiWait = [] → exec .tlbiDone s = .next (withDev s d))
          ∧ (∀ (t : Tlbi) (ts : List Tlbi), s.toDev.invDone n = true → s.mem.tlbiWait = t :: ts →
            exec .tlbiDone s
              = .next (withDev s (({ d with mem := { d.mem with tlbiWait := ts } } : Dev).acceptTlbi t)))
          ∧ (s.toDev.invDone n = false → exec .tlbiDone s = .next s))
      ∧ (∀ v : Word, s.toDev.fwRuns = true → v.getLsbD 0 = true → s.tly.kind = 1 →
        let key := s.tly.unit.toNat * 64 + s.tly.ch.toNat
        let c : UChan := (s.tly.dram.get? key).getD {}
        c.scan = none → exec (.scanGo v) s = .next (withDev s (s.toDev.setDram key { c with
          err := false, kibDone := 0
          scan := some { pa := c.base.toNat / 64 * 64, len := c.len.toNat / 64 * 64 } })))
      ∧ (∀ (die ch : Fin 64) (c : UChan) (sc : Scan), s.tly.dram.get? (die.val * 64 + ch.val) = some c → c.scan = some sc →
        let k := min sc.len (memoryRun sc.pa)
        exec (.scanComplete die ch) s = .next (withDev s (s.toDev.setDram (die.val * 64 + ch.val) { c with
          c := c.c.feed (s.toDev.read sc.pa k) (s.mem.readPoison sc.pa k), scan := none
          err := c.err || decide (k < sc.len), kibDone := BitVec.ofNat 32 (min (2 ^ 32 - 1) (k / 1024)) })))

/-- Host accesses. A naturally aligned 8-byte write reaches its register, one of 4 or 8 bytes the mailbox request or the MSI-X
table; a read returns the bytes it covers and clears the counters it covers whole; any other size, misalignment or address with
no register ends in an AER event, and a read of it in Completer Abort. BAR2 reads and writes memory through its window, whose
size can be set; a poisoned read answers all ones with the poison flag. -/
def Sys2Proof.Machine.Claim.HostAccesses : Prop :=
  ∀ s : State, s.toDev.fwRuns = true →
    let aer : Dev := { s.toDev with hif := { s.hif with aer := s.hif.aer + 1 } }
    (∀ (a : Nat) (v old : Word), a % 8 = 0 → s.toDev.readReg a = some old →
        (a < 0x0F0000000100 ∨ 0x0F0000000180 ≤ a) → (a < 0x0F0000010000 ∨ 0x0F0000018000 ≤ a) →
        exec (.registerWrite false a 8 v) s = .next (withDev s (s.toDev.writeReg a v))
          ∧ (∀ n, n = 1 ∨ n = 2 ∨ n = 4 → exec (.registerWrite false a n v) s = .next (withDev s aer)))
      ∧ (∀ (o n : Nat) (v old : Word), n = 4 ∨ n = 8 → o % n = 0 → s.toDev.readReg (0x0F0000000000 + o / 8 * 8) = some old →
        (0x100 ≤ o → o < 0x180 → exec (.registerWrite false (0x0F0000000000 + o) n v) s
          = .next (withDev s { s.toDev with hif := { s.hif with
              mbxReq := putBytes s.hif.mbxReq (fun _ => 0) (o - 0x100) (le n v.toNat) } }))
        ∧ (0x10000 ≤ o → o < 0x18000 → exec (.registerWrite false (0x0F0000000000 + o) n v) s
          = .next (withDev s (s.toDev.writeMsix (o - 0x10000) (le n v.toNat)))))
      ∧ (∀ (a n : Nat) (v : Word), (n = 1 ∨ n = 2 ∨ n = 4 ∨ n = 8) → a % n = 0 → a < 2 ^ 48 →
        s.toDev.readReg (a / 8 * 8) = some v →
        exec (.registerReadClear a n) s = .next (withDev s
          (({ s.toDev.clearRead (a / 8 * 8) (a % 8) (a % 8 + n) with
            hostRead := some (slice (le 8 v.toNat) (a % 8) n) } : Dev).emit
              (.completion (slice (le 8 v.toNat) (a % 8) n) false))))
      ∧ (∀ off n : Nat, off < 0x4000000 → (n ≠ 1 ∧ n ≠ 2 ∧ n ≠ 4 ∧ n ≠ 8) ∨ off % n ≠ 0
            ∨ s.toDev.readReg (bar0Addr off / 8 * 8) = none →
        exec (.hostAccessAbort off n true) s = .next (withDev s aer)
          ∧ exec (.hostAccessAbort off n false) s = .next (withDev s (aer.emit .completerAbort)))
      ∧ (∀ off n : Nat, 0x4000000 ≤ off → off < 0x8000000 → off % 0x1000 < 8 → n = 1 ∨ n = 2 →
        exec (.hostAccessAbort off n true) s = .next (withDev s aer))
      ∧ (∀ (off len : Nat) (errs : LineErrs),
        let pa := s.toDev.bar2Base + off
        let d := s.toDev.demandRead (linesOf pa len) errs
        len ≠ 0 → off + len ≤ 2 ^ s.hif.bar2Log2 → isMmio pa = false →
        (s.toDev.isMem pa len = true → d.mem.readPoison pa len = false →
          exec (.bar2Access (.read off len errs)) s = .next (withDev s
            (({ d with hostRead := some (d.read pa len) } : Dev).emit (.completion (d.read pa len) false))))
        ∧ (s.toDev.isMem pa len = true → d.mem.readPoison pa len = true →
          exec (.bar2Access (.read off len errs)) s = .next (withDev s
            ((({ d with hostRead := some (List.replicate len 0xFF) } : Dev).emit
              (.completion (List.replicate len 0xFF) true)).ledger 0x02 0x02 { addr := pa })))
        ∧ (s.toDev.isMem pa len = false → exec (.bar2Access (.read off len errs)) s
          = .next (withDev s (aer.emit .completerAbort))))
      ∧ (∀ (off : Nat) (bs : List Byte) (p : Bool) (errs : LineErrs),
        let pa := s.toDev.bar2Base + off
        bs ≠ [] → off + bs.length ≤ 2 ^ s.hif.bar2Log2 → isMmio pa = false →
        exec (.bar2Access (.write off bs p errs)) s = .next (withDev s (if s.toDev.isMem pa bs.length then
          (s.toDev.demandRead (partLines pa bs.length) errs).write pa bs p else aer)))
      ∧ (∀ l : Nat, 28 ≤ l → l ≤ 36 → exec (.bar2Access (.resize l)) s
        = .next (withDev s { s.toDev with hif := { s.hif with bar2Log2 := l } }))
/-! ### Resets and pins (R443, R470–R478, R483, R484, R497, R499) -/

/-- What a level 5 reset leaves: the fuses, the count of boots and the record of resets, the regulators' codes, each frame's
cause and exclusion from service with what its service was at the last self-test, and the logs of the model; everything else is
as after reset. That memory is then all zero and not undefined (assumption 5; R473 says only that it is lost), that what R26 keeps
of a frame outlives the reset (assumption 7), and that the regulators keep their codes (assumption 91), is the model's choice. -/
def Sys2Proof.Machine.Claim.cleared (d : Dev) (cause rail tj : Nat) : Dev :=
  { pwr := { dies := d.pwr.dies.map fun x => { code := x.code } }
    fr := d.fr.map fun x => { svc := {
      before := if x.svc.tested = true then some x.svc.insvc else x.svc.before
      cause := x.svc.cause, excluded := x.svc.excluded } }
    dbg := { d.dbg with
      level := 5, cause := BitVec.ofNat 5 cause, rail := BitVec.ofNat 5 rail, count := satAdd d.dbg.count
      tjTrip := BitVec.ofNat 8 (min 255 tj), node0 := 0, en0 := false, node1 := 0, en1 := false }
    sec := { phase := .reset, fuses := d.sec.fuses, boots := d.sec.boots, bist := d.sec.bist }
    out := d.out, fresh := d.fresh, ns := d.ns }

/-- PERST_N, the rails, JTAG and the thermal trip hold the device in a level 5 reset, each with its own cause; it ends
when nothing holds it; what the TAP's instruction is, PERST_N does not change. After a trip the ROM holds until the device is
cool, in production test too. A ROM whose self-check ends has repaired what the self-test of DRAM finds. Power that goes takes
everything but the fuses with it. What of memory, frames and regulators outlives a reset is the model's choice (assumptions 5, 7
and 91). -/
def Obligations.ColdResets : Prop :=
  ∀ s : State,
    let runs := s.sec.phase ≠ .off ∧ s.sec.phase ≠ .reset
    (runs → s.dbg.perst = false →
        exec .perstNAssert s = .next (withDev s { cleared s.toDev 1 0 0 with
          dbg := { (cleared s.toDev 1 0 0).dbg with perst := true } }))
      ∧ (s.sec.phase ≠ .off → s.dbg.perst = true → ∀ (board slot : BitVec 3) (boot : BootPins),
        exec (.perstNRelease board slot boot) s = .next (withDev s ({ s.toDev with
          dbg := { s.dbg with perst := false, board := board, slot := slot, test := boot.test }
          sec := { s.sec with bist := boot.found.filter s.mem.knows } } : Dev).resume))
      ∧ (runs → ∀ r : Fin 20, exec (.railFault r) s = .next (withDev s { cleared s.toDev 5 r.val 0 with
          dbg := { (cleared s.toDev 5 r.val 0).dbg with railHold := true } }))
      ∧ (s.dbg.railHold = true → exec .railRecovery s
        = .next (withDev s ({ s.toDev with dbg := { s.dbg with railHold := false } } : Dev).resume))
      ∧ (runs → ∀ i : JtagInsn, exec (.jtagPinTakeover i) s = .next (withDev s { cleared s.toDev 7 0 0 with
          dbg := { (cleared s.toDev 7 0 0).dbg with jtagHold := true, ir := .takes i } }))
      ∧ (s.sec.phase = .reset → ∀ i : JtagInsn, exec (.jtagPinTakeover i) s = .next (withDev s { s.toDev with
          dbg := { s.dbg with jtagHold := true, ir := .takes i } }))
      ∧ (s.dbg.jtagHold = true → exec .tapReset s
        = .next (withDev s ({ s.toDev with dbg := { s.dbg with jtagHold := false, ir := .idcode } } : Dev).resume))
      ∧ (s.dbg.jtagHold = false → s.sec.phase ≠ .off → exec .tapReset s
        = .next (withDev s { s.toDev with dbg := { s.dbg with jtagHold := false, ir := .idcode } }))
      ∧ (runs → s.sec.phase ≠ .thermalHold → ∀ c : Nat, 105 ≤ c →
        let d := (cleared s.toDev 6 0 c).emit (.thermN true)
        exec (.thermalTrip c) s
          = .next (withDev s ({ d with dbg := { d.dbg with thermN := true } } : Dev).resume))
      ∧ (s.sec.phase = .thermalHold → ∀ c : Nat, c ≤ 85 →
        let d := s.toDev.emit (.thermN false)
        exec (.thermalHoldEnd c) s
          = .next (withDev s ({ d with dbg := { d.dbg with thermN := false } } : Dev).selfChecked))
      ∧ exec .powerRemoved s = .next (withDev s {
          sec := { phase := .off, fuses := s.sec.fuses, boots := s.sec.boots }, dbg := { power := false }
          out := s.out, fresh := s.fresh, ns := s.ns })
      ∧ (s.sec.phase = .off → exec .powerUp s = .next (withDev s {
          sec := { phase := .reset, fuses := s.sec.fuses, boots := s.sec.boots }
          out := s.out, fresh := s.fresh, ns := s.ns }))
      ∧ (s.dbg.thermN = true → s.toDev.romStart.sec.phase = .thermalHold)
      ∧ (s.dbg.thermN = false → s.dbg.test = true → s.toDev.romStart.sec.phase = .testHold)
      ∧ (s.hif.agreed = 0 → (∀ p : Port, (s.toDev.port p).state ≠ .active) →
        s.toDev.romDone.mem = (s.sec.bist.foldl (fun d e => d.applyRepair e) s.toDev).mem
          ∧ s.toDev.romDone.sec.phase = .apiaryUp ∧ s.toDev.romDone.sec.fusesBlocked = true
          ∧ s.toDev.romDone.sec.engineKey = some s.sec.fuses.identitySeed
          ∧ ∀ p : Port, (s.toDev.romDone.port p).state = .notReady)

/-- DBG_RESET with CONFIRM 0xA5 resets at the level it asks for and does nothing without it; a function-level reset is
level 3; the watchdog counts and stops its core, the security core's leads to level 4, and a restarted core enters its image in
the firmware reserve again, the scheduler core then executing what waited for it. -/
def Sys2Proof.Machine.Claim.WarmResets : Prop :=
  ∀ s : State, s.toDev.fwRuns = true →
    (∀ v : Word, v.toNat / 256 % 256 = 0xA5 → (v.toNat % 8 = 4 → exec (.dbgResetWarm v) s
          = .next (withDev s s.toDev.warmByRegister))
        ∧ (v.toNat % 8 = 5 → exec (.dbgResetCold v) s = .next (withDev s (cleared s.toDev 4 0 0).resume)))
      ∧ (∀ v : Word, v.toNat / 256 % 256 ≠ 0xA5 →
        exec (.dbgResetWarm v) s = .next s ∧ exec (.dbgResetCold v) s = .next s)
      ∧ exec .functionLevelReset s = .next (withDev s s.toDev.levelThree)
      ∧ (CoreId.security ∈ s.sec.restarting → exec .warmReset s = .next (withDev s (s.toDev.levelFour 3)))
      ∧ (let late := fun (core : CoreId) (src : Nat) =>
          let d := s.toDev.logEntry src 0
          ({ d with sec := { d.sec with wdog := satAdd d.sec.wdog, restarting := d.sec.restarting ++ [core] } } : Dev)
        let out := fun (core : CoreId) (d : Dev) => core ∉ s.sec.restarting →
          exec (.watchdogExpiry core) s = .next (withDev s d)
        out .security (late .security 0)
          ∧ out .power ((late .power 1).withCaps fun p => { p with held4 := true })
          ∧ out .scheduler ((late .scheduler 2).loseSequenced fun x _ => x.state == .saving)
          ∧ ∀ cl : Fin 64, out (.control cl) ((late (.control cl) (64 + cl.val)).loseSequenced fun x c =>
            (x.state == .saving || x.state == .restoring) && s.toDev.onCluster cl.val c))
      ∧ (let back := fun c : CoreId =>
          ({ s.toDev with sec := { s.sec with restarting := s.sec.restarting.filter (· != c) } } : Dev).enterCore c
        (CoreId.power ∈ s.sec.restarting → exec (.coreRestartComplete .power) s
            = .next (withDev s ((back .power).withCaps fun p => { p with held4 := false })))
        ∧ (CoreId.scheduler ∈ s.sec.restarting →
          let d := back .scheduler
          exec (.coreRestartComplete .scheduler) s = .next (withDev s ((s.sec.cmdWait.foldl
            (fun (d : Dev) i => d.runAndAnswer i.1 i.2) { d with sec := { d.sec with cmdWait := [] } }).serveMailbox)))
        ∧ (∀ cl : Fin 64, CoreId.control cl ∈ s.sec.restarting → exec (.coreRestartComplete (.control cl)) s
          = .next (withDev s ((back (.control cl)).assignWaiting cl.val)))
        ∧ ∀ (c : CoreId) (x : Section), s.sec.sections.find? (·.target == CoreId.target c) = some x →
          s.toDev.enterCore c = { s.toDev with sec := { s.sec with cores := s.sec.cores.put (CoreId.ix c) {
            sram := slice (s.sec.reserve.map (·.2)).flatten x.off (min x.len (CoreId.sramSize c))
            entry := x.entry, kick := s.ns } } })
      ∧ (∀ (n0 n1 : BitVec 9) (e0 e1 : Bool), s.sec.phase ≠ .off → n0.toNat < 0x126 → n1.toNat < 0x126 →
        exec (.atbInstrumentWrite n0 e0 n1 e1) s = .next (withDev s { s.toDev with dbg := { s.dbg with
          node0 := n0, en0 := e0, node1 := n1, en1 := e1 } }))

/-- What a level 4 reset keeps: DRAM, its poison, its retired and spared lines (an SRAM line that a spare line now repairs is
retired no longer), the error status of configuration space, the firmware's image and the fuses; with a record of the reset. Of a
frame its cause and exclusion from service are left; nothing of a context, a queue, a job or a port is. -/
def Sys2Proof.Machine.Claim.WarmResetKeeps : Prop :=
  ∀ (d : Dev) (cause : Nat) (pa : Nat), d.mem.wf = true → pa < dramEnd →
    let e : Dev := { mem := d.mem.warm, pwr := d.pwr.kept, dbg := d.dbg.record 4 cause
                     fr := d.fr.map fun x => { svc := {
                       before := if x.svc.tested = true then some x.svc.insvc else x.svc.before
                       cause := x.svc.cause, excluded := x.svc.excluded } }
                     hif := { bar2Log2 := d.hif.bar2Log2, gen := d.hif.gen, width := d.hif.width, aer := d.hif.aer }
                     sec := { phase := .reset, fuses := d.sec.fuses, boots := d.sec.boots, bist := d.sec.bist
                              reserve := d.sec.reserve }
                     out := d.out, fresh := d.fresh, ns := d.ns }
    d.levelFour cause = e.resume ∧ e.mem.byte pa = d.mem.byte pa ∧ e.mem.poison.get? (pa / 32) = d.mem.poison.get? (pa / 32)
      ∧ e.mem.retired = d.mem.retired.filter (fun r => r.1 < 16 || !d.mem.hardSram.contains r.2)
      ∧ e.mem.spared = d.mem.spared ∧ e.dbg.level = 4

/-! ### Boot (R444–R447, R452, R453) -/

/-- The ROM's load: it asks the boot group for an image, then the server for its header, its hash list and its chunks; a fragment
asked for is kept, a header or a list that fails its check ends the load, a chunk that passes is written into the firmware reserve,
and the whole image starts the cores. A load is abandoned with a report, and a retry asks again. Then the repairs, and the frame
self-test, after both of which FW_READY is set, and which decides which frames are in service. The step number 4 of BOOT_STATUS,
its opaque cause and the widths of its fields (assumptions 93 and 94), and of several causes the order 0x1, 0x5, 0x3, 0x4
(assumption 122), are the model's choice. -/
def Obligations.Boots : Prop :=
  ∀ s : State,
    let ask := fun d : Dev => ({ d with sec := { d.sec with phase := .fetching } } : Dev).apiaryTx 0x01
      (d.sec.serial ++ d.sec.fuses.identityKey ++ le 4 Config.romVer.toNat ++ le 2 d.sec.fuses.minSvn.toNat) (some bootGroup)
    let gone := fun c : BootCause => withDev s (({ s.toDev with sec := { s.sec with
      load := none, fails := s.sec.fails + 1, loadTries := satAdd s.sec.loadTries, phase := .backoff } } : Dev).apiaryTx 0x05
        (le 1 4 ++ le 1 c.code.toNat ++ le 4 (s.sec.fails + 1)) (s.sec.load.map (·.serverBytes)))
    (s.sec.phase = .apiaryUp → exec .bootReq s = .next (withDev s (ask s.toDev)))
      ∧ (s.sec.phase = .fetching → s.sec.load = none → ∀ (len n : Nat) (srv : BitVec 128),
        let l : BootLoad := { length := len, nchunk := n, server := srv }
        exec (.bootOffer len n srv) s = .next (withDev s (({ s.toDev with sec := { s.sec with
          load := some l } } : Dev).apiaryTx 0x03 (le 1 0 ++ le 4 0 ++ le 8 0xF) (some l.serverBytes))))
      ∧ (∀ (l : BootLoad) (frag : Nat) (bs : List Byte), s.sec.phase = .fetching → s.sec.load = some l →
        l.header = none → frag < 4 → bs.length = 1024 →
        let l' := { l with frags := l.frags.put frag bs }
        (l'.piece 0 0 = none → exec (.chunkData 0 0 frag bs) s
            = .next (withDev s { s.toDev with sec := { s.sec with load := some l' } }))
          ∧ (∀ h : List Byte, l'.piece 0 0 = some h →
            (∀ c, headerBad s.sec.fuses h = some c → exec (.chunkData 0 0 frag bs) s = .next (gone c))
            ∧ (headerBad s.sec.fuses h = none →
              let l2 := { l'.dropPiece 0 0 with header := some h, nchunk := field h 0x14 4, length := field h 0x18 8 }
              exec (.chunkData 0 0 frag bs) s = .next (withDev s ((List.range (pieces (64 * l2.nchunk))).foldl
                (fun d k => d.askPiece 1 k (fullMask (l2.frags_ 1 k))) (s.toDev.setLoad l2))))))
      ∧ (∀ (l : BootLoad) (h : List Byte) (frag : Nat) (bs hs : List Byte), s.sec.phase = .fetching → s.sec.load = some l →
        l.header = some h → l.hashes = none → 0 < l.nchunk → l.nchunk ≤ 1024 → frag < l.frags_ 1 0 →
        bs.length = min 1024 (64 * l.nchunk - 1024 * frag) →
        let l' := { l with frags := l.frags.put (fragKey 1 0 frag) bs }
        l'.piece 1 0 = some hs →
        (shake256 hs 64 ≠ slice h 0x20 64 → exec (.chunkData 1 0 frag bs) s = .next (gone .list))
          ∧ (shake256 hs 64 = slice h 0x20 64 → exec (.chunkData 1 0 frag bs) s = .next (withDev s
            (({ s.toDev with sec := { s.sec with reserve := [] } } : Dev).askChunks
              { l' with hashes := some hs, frags := [] } 17))))
      ∧ (∀ (l : BootLoad) (h hs : List Byte) (i frag : Nat) (bs whole : List Byte), s.sec.phase = .fetching →
        s.sec.load = some l → l.header = some h → l.hashes = some hs → i < l.asked → i ∉ l.chunks →
        frag < l.frags_ 2 i → bs.length = min 1024 (l.pieceSize 2 i - 1024 * frag) →
        let l' := { l with frags := l.frags.put (fragKey 2 i frag) bs }
        let n := (l.tries.get? i).getD 0
        l'.piece 2 i = some whole →
        (shake256 (le 4 i ++ whole) 64 = slice hs (64 * i) 64 →
            let d : Dev := { s.toDev with sec := { s.sec with reserve := s.sec.reserve.put i whole } }
            let l2 := { l'.dropPiece 2 i with chunks := l.chunks ++ [i] }
            (l2.chunks.length = l.nchunk → exec (.chunkData 2 i frag bs) s = .next (withDev s (d.startCores h)))
            ∧ (l2.chunks.length ≠ l.nchunk → exec (.chunkData 2 i frag bs) s = .next (withDev s (d.askChunks l2 17))))
          ∧ (shake256 (le 4 i ++ whole) 64 ≠ slice hs (64 * i) 64 →
            (4 ≤ n → exec (.chunkData 2 i frag bs) s = .next (gone .chunk))
            ∧ (n < 4 → exec (.chunkData 2 i frag bs) s = .next (withDev s ((s.toDev.setLoad
              { l'.dropPiece 2 i with tries := l.tries.put i (n + 1) }).askPiece 2 i (fullMask (l.frags_ 2 i)))))))
      ∧ (∀ h : List Byte, let d := s.toDev.startCores h
        d.sec.phase = .started ∧ d.sec.load = none ∧ d.sec.imageDigest = shake256 (h.take 0x312) 64
          ∧ d.sec.svn = BitVec.ofNat 16 (field h 0x10 2) ∧ d.sec.sections = sectionsOf h)
      ∧ (s.sec.phase = .fetching → exec .bootLoadAbandon s = .next (gone .noProgress))
      ∧ (s.sec.phase = .backoff → exec .bootRetry s = .next (withDev s (ask s.toDev)))
      ∧ (s.toDev.fwRuns = true → s.sec.repairDone = false → s.sec.listLate = false →
        exec .repairListTimeout s
          = .next (withDev s ((s.sec.bist.foldl (fun (d : Dev) e => d.applyRepair e)
            { s.toDev with sec := { s.sec with listLate := true } }).logEntry 0 1).readyIfDone))
      ∧ (s.toDev.readyIfDone = if s.sec.phase = .started ∧ s.sec.tested = true ∧ (s.sec.repairDone = true ∨ s.sec.listLate = true)
        then ({ s.toDev with sec := { s.sec with phase := .ready }, hif := { s.hif with fwReady := true } } : Dev).serveMailbox
        else s.toDev)
      ∧ (s.sec.phase = .started → s.sec.tested = false → s.hif.mbxHeld = none → ∀ rs : List (FrameId × SelfTest), ∃ d : Dev,
        exec (.frameSelfTestComplete rs) s = .next (withDev s d) ∧ d.sec.tested = true
          ∧ (s.sec.repairDone = true ∨ s.sec.listLate = true → d.sec.phase = .ready ∧ d.hif.fwReady = true)
          ∧ (s.sec.repairDone = false → s.sec.listLate = false → d.sec.phase = .started ∧ d.hif = s.hif)
          ∧ d.mkt = s.mkt ∧ d.xch = s.xch ∧ d.lnk = s.lnk
          ∧ ∀ f : FrameId,
            let t := SelfTest.join (testOf s.sec.fuses.repairs f) (testOf rs f)
            let bad := s.sec.fuses.badFrames.getLsbD f.val
            let out := fun cause : BitVec 4 => (d.frame f).svc.insvc = false ∧ (d.frame f).svc.cause = cause
              ∧ (d.frame f).state = .outOfService
            (bad = true → out 1)
              ∧ (bad = false → repairPlan t.rows t.grps t.cells = none → out 5)
              ∧ ∀ r, bad = false → repairPlan t.rows t.grps t.cells = some r →
                ((s.frame f).svc.cause = 5 → out 5)
                ∧ ((s.frame f).svc.cause ≠ 5 →
                  (t.fail = true → out 3)
                  ∧ (t.fail = false → (s.frame f).svc.excluded = true → out 4)
                  ∧ (t.fail = false → (s.frame f).svc.excluded = false → (d.frame f).svc.insvc = true
                    ∧ (d.frame f).svc.cause = 0 ∧ (d.frame f).state = .idle ∧ (d.frame f).geom = geomOf r.1 r.2)))

/-! ### The Apiary port (R306–R308, R373, R376, R398, R421, R433–R435, R450–R458, R464) -/

/-- A command that is executed at once: signed by the accepted key in this session, with a SEQ above the last, while
the scheduler core runs and nothing waits for it (R443, R452, R454). -/
def Sys2Proof.Machine.Claim.Accept (s : State) (au : Auth) (i : ApiaryCmd) : Prop :=
  s.toDev.fwRuns = true ∧ s.toDev.authentic au i = true ∧ (∀ n : Word, s.sec.lastSeq = some n → n.toNat < au.seq.toNat)
    ∧ s.toDev.schedUp = true ∧ s.sec.cmdWait = []

/-- The device that executes an accepted command: its SEQ is the last. -/
def Sys2Proof.Machine.Claim.taken (s : State) (au : Auth) : Dev :=
  { s.toDev with sec := { s.sec with lastSeq := some au.seq, lastResult := [] } }

/-- RESULT with a command's SEQ, a status and a reason, which is kept for a repetition (R453, R454). -/
def Sys2Proof.Machine.Claim.answered (s : State) (au : Auth) (d : Dev) (status reason : Nat := 0) :
    Host.Outcome State Fault Refusal :=
  let b := le 8 au.seq.toNat ++ le 1 status ++ le 1 reason
  .next (withDev s (({ d with sec := { d.sec with lastResult := b } } : Dev).apiaryTx 0x12 b))

/-- Commands on the ports, the plan, the frames and the power limits, accepted and within their ranges. A frame that management
excludes leaves service at once when it is idle and in no stall, and otherwise with a later step: while the firmware is not ready
the mark is all, and a frame in a stall waits for the reallocation (R22, R25). New power limits wait for the next control interval
(R454). That a frame which is flagged as well leaves with cause 0x2 is the model's choice (assumption 89). -/
def Obligations.ManagesDevice : Prop :=
  ∀ (s : State) (au : Auth),
    let d := taken s au
    let out := fun d : Dev => answered s au d
    (∀ p : Port, (d.port p).state = .quarantined → d.mayTrain p = true →
        Accept s au (.leaveQuarantine p) → exec (.portLeaveQuarantine au p) s = out (d.startDetect p))
      ∧ (∀ p : Port, (d.port p).state ≠ .active →
        Accept s au (.quarantine p) → exec (.portQuarantine au p) s = out ((d.quarantine p 4).fillPlaces.ledger 0x06 0x06
          { ledPort p (d.port p).peerId with sub := 4 }))
      ∧ (∀ p : Port, (d.port p).state = .active →
        Accept s au (.quarantine p) → exec (.portQuarantine au p) s = out ((((d.sendControl p [6, 4]).quarantine p 4).fillPlaces.ledger 0x06 0x06
          { ledPort p (d.port p).peerId with sub := 4 })))
      ∧ (∀ p : Port, (d.port p).state ≠ .active → (d.port p).state ≠ .quarantined → (d.port p).state ≠ .notReady →
        d.mayTrain p = true → Accept s au (.retrain p) → exec (.portRetrain au p) s = out (d.startDetect p).fillPlaces)
      ∧ (∀ p : Port, (d.port p).state = .active → Accept s au (.retrain p) → exec (.portRetrain au p) s
        = out ((d.sendControl p [5, 3]).retrainPort p 3).fillPlaces)
      ∧ (∀ (dev : BitVec 16) (gen : BitVec 32) (es : List PlanEntry), es.length = 32 → dev.getLsbD 15 = false →
        dev.toNat / 8 % 8 = s.dbg.board.toNat → dev.toNat % 8 = s.dbg.slot.toNat →
        let e := ({ d with
          lnk := { d.lnk with devId := dev.setWidth 15, devV := true, plan := some es, planGen := gen }
          wag := { d.wag with slot := dev.setWidth 6 } } : Dev)
        let e : Dev := { e with lnk := { e.lnk with rtr := e.lnk.rtr.putD 0 (dev.toNat / 64) 0 } }
        let e := (List.finRange 32).foldl (fun d p => (d.recheckPort p).stopTraining p) e
        let e := e.setRtb (dev.toNat % 64) 0
        Accept s au (.wiringPlan dev gen es) → exec (.wiringPlan au dev gen es) s
          = out (if e.wag.rootNamed then e.reform else e.setRoot (lowestId e.lnk.devId es) false).fillPlaces)
      ∧ (∀ (mask : BitVec 32) (hs : List EqHint),
        let ps := (List.range 32).filter fun i => mask.getLsbD i
        hs.length ≤ 16 → ps.length = hs.length → Accept s au (.eqHints mask hs) → exec (.eqHints au mask hs) s = out { d with lnk := { d.lnk with
          hints := (d.lnk.hints.filter fun h => !ps.contains h.1) ++ List.zip ps hs } })
      ∧ (∀ es : List RepairEntry, (∀ c ∈ s.mkt.ctxs, c.2.state = .free) →
        es.all s.mem.knows = true →
        (Accept s au (.repairList true es) → exec (.repairList au true es) s
            = out { d with sec := { d.sec with repairFrags := d.sec.repairFrags ++ es } })
          ∧ (Accept s au (.repairList false es) → exec (.repairList au false es) s
            = out ((s.sec.bist ++ (s.sec.repairFrags ++ es)).foldl (fun (d : Dev) e => d.applyRepair e)
              { d with sec := { d.sec with repairFrags := [], repairDone := true } }).readyIfDone))
      ∧ (∀ ls : List (BitVec 2), ls.length = 384 → Accept s au (.suspicion ls) → exec (.suspicion au ls) s
        = out (allFrames.foldl (fun d f => d.setSusp f ((ls[f.val]?).getD 0).toNat)
          { d with sec := { d.sec with suspLoaded := true } }))
      ∧ (∀ root : BitVec 15, Accept s au (.waggleRoot root) → exec (.waggleRoot au root) s = out (d.setRoot root))
      ∧ (∀ mask : BitVec 384, Accept s au (.frameExclude mask) →
        let fs := allFrames.filter fun f => mask.getLsbD f.val
        let e := fs.foldl (fun d f => d.updFrame f fun fr => { fr with svc := { fr.svc with excluded := true } }) d
        let now := fs.filter fun f => (s.frame f).svc.insvc && !(s.frame f).stallV && (s.frame f).free
        (s.up = false ∨ now = [] → exec (.frameExclude au mask) s = out e)
        ∧ (s.up = true → ∀ f : FrameId, now = [f] → ∃ g : Dev, exec (.frameExclude au mask) s = out g
          ∧ (g.frame f).state = .outOfService ∧ (g.frame f).svc.insvc = false
          ∧ (g.frame f).svc.cause = (if (s.frame f).svc.flagged = true then 2 else 4)
          ∧ (g.frame f).svc.atGen = s.insvc.gen + 1 ∧ g.insvc.gen = s.insvc.gen + 1
          ∧ (∀ q : FrameId, q ≠ f → (g.frame q).svc = (e.frame q).svc ∧ (g.frame q).state = (s.frame q).state)))
      ∧ (∀ w c : Nat, 600 ≤ w → w ≤ 1800 → 80 ≤ c → c ≤ 100 → Accept s au (.powerCfg w c) → exec (.powerCfg au w c) s
        = out { d with pwr := { d.pwr with next := some (BitVec.ofNat 12 w, BitVec.ofNat 8 c) } })

/-- Commands on jobs and barrier groups, and the reports that management asks for. That POS comes from the ring plan and not from the
message (assumption 53), that JOB_HELLO is sent once (assumption 54), and that the job's mode and context go into the descriptor of
its barrier group (assumption 149), is the model's reading. -/
def Obligations.ManagesJobs : Prop :=
  ∀ (s : State) (au : Auth),
    let d := taken s au
    let out := fun d : Dev => answered s au d
    (∀ r : JobReq, JobReq.wellSized r = true → Accept s au (.jobAdmit r) →
        let q := JobReq.withDefaults r
        (∀ n, d.jobRefusal q = some n → exec (.jobAdmit au r) s = answered s au d 2 n)
        ∧ (∀ j, d.jobRefusal q = none → ((List.range 256).find? fun j => (d.job j).state == .free) = some j →
          let x : Job := {
            state := .open, policy := q.policy == 1, bank := q.bank, step := q.step, job := q.job, ctx := q.ctx
            queue := q.queue, barrier := q.barrier, nrank := q.nrank.toNat, rank := q.rank.toNat
            nboard := q.nboard.toNat, pos := JobReq.position q, slotmask := q.slotmask, nplane := q.nplane.toNat
            timeout := q.timeout.toNat, rankmapA := q.rankmapA, ringplanA := q.ringplanA, cring := q.cring
            chead := q.chead, csem := q.csem, stepSem := q.stepSem, clog2 := q.clog2.toNat, cfg := JobReq.cfg q
            rankmap := q.rankmap, ring := q.ring.map (·.toNat), planes := q.planes.map (·.toNat) }
          exec (.jobAdmit au r) s = out ((((((d.write q.rankmapA.toNat (JobReq.mapBytes q)).write q.ringplanA.toNat
            (JobReq.ringBytes q)).setJob j x).storeStepSem j).bindBarrier q).sendPeers x (x.ctl 0x10 (le 4 x.cfg.toNat) x.step 0))))
      ∧ (∀ r : BarReq, BarReq.wellSized r = true → Accept s au (.barrierSetup r) →
        ((d.group r.group.val).state = .arrived → exec (.barrierSetup au r) s = answered s au d 2)
        ∧ ((d.group r.group.val).state ≠ .arrived → exec (.barrierSetup au r) s
          = out ((d.write r.membersA.toNat (r.members.flatMap fun m => le 2 m.toNat)).setGroup r.group.val {
            state := .idle, tagged := r.mode == 1, nIn := r.nIn.toNat, nOut := r.nOut.toNat, member := r.member.toNat
            key := r.key, ctx := r.ctx, job := r.job, membersA := r.membersA, relSem := r.relSem, members := r.members
            episode := r.episode })))
      ∧ (∀ (job : BitVec 16) (j : Nat), d.jobById job = some j → Accept s au (.jobKill job) →
        ((d.job j).state = .open ∨ (d.job j).state = .overdue → exec (.jobKill au job) s = out (d.jobFault j 0x06).progressAll)
        ∧ ((d.job j).state = .committing →
          exec (.jobKill au job) s = out (d.updJob j fun x => { x with killWaits := true })))
      ∧ (∀ seq : BitVec 32, d.grd.exported.toNat < min (seq.toNat + 1) d.grd.written.toNat → Accept s au (.ledgerAck seq) →
        exec (.ledgerAck au seq) s = out { d with
          grd := { d.grd with exported := BitVec.ofNat 32 (min (seq.toNat + 1) d.grd.written.toNat) }
          sec := { d.sec with reports := d.sec.reports.filter fun r => r.type != 0x30 } })
      ∧ (∀ (first : BitVec 32) (n : Nat), n ≤ 20 → Accept s au (.logReq first n) →
        let h := s.sec.logHead.toNat
        let ks := ((List.range n).map (first.toNat + ·)).filter fun k => decide (k < h) && decide (h ≤ k + 16384)
        exec (.logReq au first n) s = out (d.apiaryTx 0x34 (ks.flatMap fun k =>
          d.read (d.sec.logBase.toNat + 64 * (k % 16384)) 64)))
      ∧ (∀ nonce : List Byte, nonce.length = 32 → Accept s au (.attestReq nonce) →
        ∀ k : List Byte, s.sec.engineKey = some k → exec (.attestReq au nonce) s
          = out (d.report 0x36 (d.attestBody nonce ++ ed448Sign k (d.attestBody nonce))))

/-- What is not executed: a command without a valid signature or with an old SEQ is dropped and counted; the last one
again is answered with its RESULT; one that comes while the scheduler core restarts waits, up to 8, and is BUSY beyond
(shown for WAGGLE_ROOT; every command is accepted in the one way). A signature is valid under the accepted key, over header and
body of a message with SIGNED in this session. MGMT_KEY is signed by the key it carries, which an owner's device takes when its
digest is the owner's, and one without an owner when it has none yet; any other is dropped. That its SEQ becomes the last accepted
one, that its SESSION is not asked, and that its RESULT is stored like any other, is the model's reading (assumption 96). -/
def Obligations.AcceptsCommands : Prop :=
  ∀ (s : State) (au : Auth) (root : BitVec 15), s.toDev.fwRuns = true →
    let drop := withDev s { s.toDev with sec := { s.sec with apyDropped := satAdd s.sec.apyDropped } }
    let newer := ∀ n : Word, s.sec.lastSeq = some n → n.toNat < au.seq.toNat
    let signed := s.toDev.authentic au (.waggleRoot root)
    let ok := le 8 au.seq.toNat ++ le 1 0 ++ le 1 0
    let again := withDev s (s.toDev.apiaryTx 0x12 s.sec.lastResult)
    (∀ k : List Byte, s.sec.key = some k → au.before = [] →
        (signed = true ↔ au.session = s.sec.session ∧ au.flags.getLsbD 0 = true ∧ au.flags.getLsbD 1 = false
          ∧ au.body.length ≤ 1280 ∧ ed448Verify k (apiaryHeader 0x24 au.body.length au.flags.toNat au.session au.seq
            ++ au.body) au.sig = true))
      ∧ (s.sec.key = none → signed = false)
      ∧ (signed = false → exec (.waggleRoot au root) s = .next drop)
      ∧ (signed = true →
        (∀ n : Word, s.sec.lastSeq = some n → au.seq.toNat < n.toNat → exec (.waggleRoot au root) s = .next drop)
        ∧ (s.sec.lastSeq = some au.seq → s.sec.lastResult ≠ [] → exec (.waggleRoot au root) s = .next again)
        ∧ (s.sec.lastSeq = some au.seq → s.sec.lastResult = [] → exec (.waggleRoot au root) s = .next s)
        ∧ (s.toDev.schedUp = false → newer →
          (s.sec.cmdWait.length < 8 → exec (.waggleRoot au root) s = .next (withDev s { s.toDev with sec := { s.sec with
              lastSeq := some au.seq, lastResult := [], cmdWait := s.sec.cmdWait ++ [(au.seq, .waggleRoot root)] } }))
          ∧ (8 ≤ s.sec.cmdWait.length → exec (.waggleRoot au root) s
            = .next (withDev s (s.toDev.apiaryTx 0x12 (le 8 au.seq.toNat ++ le 1 3 ++ le 1 0))))))
      ∧ (∀ key : List Byte,
        let own := (∃ dg, s.sec.fuses.owner = some dg ∧ shake256 key 32 = dg) ∨ (s.sec.fuses.owner = none ∧ s.sec.key = none)
        (Auth.signedBy au 0x11 false key = false → exec (.mgmtKey au key) s = .next drop)
        ∧ (Auth.signedBy au 0x11 false key = true →
          (s.sec.lastSeq = some au.seq → s.sec.key = some key → s.sec.lastResult ≠ [] →
            exec (.mgmtKey au key) s = .next again)
          ∧ ((s.sec.lastSeq ≠ some au.seq ∨ s.sec.key ≠ some key) → ¬ own → exec (.mgmtKey au key) s = .next drop)
          ∧ (own → newer → s.toDev.schedUp = true → s.sec.cmdWait = [] →
            exec (.mgmtKey au key) s = .next (withDev s (({ s.toDev with sec := { s.sec with
              key := some key, lastSeq := some au.seq, lastResult := ok } } : Dev).apiaryTx 0x12 ok)))
          ∧ (own → newer → s.toDev.schedUp = false → s.sec.cmdWait.length < 8 →
            exec (.mgmtKey au key) s = .next (withDev s { s.toDev with sec := { s.sec with
              lastSeq := some au.seq, lastResult := [], cmdWait := s.sec.cmdWait ++ [(au.seq, .mgmtKey key)] } }))))

/-- What the firmware sends by itself: HELLO while it has no key, the ledger's records, reports not acknowledged
again, the status; an echo ends its report. -/
def Sys2Proof.Machine.Claim.Reports : Prop :=
  ∀ s : State, s.toDev.fwRuns = true →
    (s.sec.key = none → exec .apiaryHello s = .next (withDev s (s.toDev.apiaryTx 0x10
        (le 8 s.sec.fwId.toNat ++ le 2 s.sec.svn.toNat ++ le 2 (if s.lnk.devV then s.lnk.devId.toNat else 0)
          ++ le 1 (if s.lnk.plan.isSome then 1 else 0)))))
      ∧ (∀ n : Nat, s.grd.written.toNat = s.grd.exported.toNat + n → 0 < n → n ≤ 9 → (∀ r ∈ s.sec.reports, r.type ≠ 0x30) →
        exec .ledgerExport s = .next (withDev s (s.toDev.report 0x30 ((List.range n).flatMap fun i =>
          s.toDev.read (s.grd.ledgerBase.toNat + 128 * ((s.grd.exported.toNat + i) % 4096)) 128))))
      ∧ exec .reportResend s
        = .next (withDev s (s.sec.reports.foldl (fun d r => d.emit (.apiary {
            src := d.linkLocal, dst := none, port := 47314
            payload := apiaryHeader r.type.toNat r.body.length 0 d.sec.session r.seq ++ r.body })) s.toDev))
      ∧ exec .statusReport s = .next (withDev s (s.toDev.apiaryTx 0x37 (le 2 (allFrames.filter fun f =>
          (s.frame f).svc.insvc).length ++ le 2 s.pwr.pkgW.toNat ++ le 1 s.pwr.tjMax.toNat ++ le 8 s.toDev.lnkStatus
          ++ le 8 s.toDev.wagStatus)))
      ∧ (∀ seq : Word, exec (.resultEcho seq) s = .next (withDev s { s.toDev with sec := { s.sec with
          reports := s.sec.reports.filter fun r => !(r.seq == seq && (r.type == 0x32 || r.type == 0x36)) } }))

/-- The wall clock is stepped at a Sync exchange and valid after four good ones with a valid UTC offset; it is lost
with the offset or with the Sync messages. A leap second that an Announce message gives for the end of the UTC day is kept: from
that second of PTP time the offset is one more, or one less. A router's prefix gives one address (R451, R456). -/
def Sys2Proof.Machine.Claim.WallClock : Prop :=
  ∀ s : State, s.toDev.fwRuns = true →
    (∀ (off : Int) (t : Nat),
        let n := if off.natAbs ≤ 10000 then s.sec.ptpGood + 1 else 0
        exec (.ptpSync off t) s = .next (withDev s { s.toDev with sec := { s.sec with
          ptpGood := n, wallOff := (t : Int) - s.ns
          wallV := s.sec.wallV || (decide (4 ≤ n) && s.sec.utcValid) } }))
      ∧ (∀ (off : Int) (u : UtcFlags), s.sec.leap = none →
        let day := (s.toDev.ptpSecond - off) / 86400
        exec (.ptpAnnounce off u) s = .next (withDev s { s.toDev with sec := { s.sec with
          utcOffset := off, utcValid := u.valid, wallV := u.valid && (s.sec.wallV || decide (4 ≤ s.sec.ptpGood))
          leap := if u.leap61 = true ∧ u.leap59 = false then some ((day + 1) * 86400 + off, off + 1)
            else if u.leap61 = false ∧ u.leap59 = true then some ((day + 1) * 86400 + off - 1, off - 1) else none } }))
      ∧ exec .ptpSyncLoss s = .next (withDev s { s.toDev with sec := { s.sec with ptpGood := 0, wallV := false } })
      ∧ (∀ pfx : BitVec 64,
        let addr := (le 8 pfx.toNat).reverse ++ interfaceId s.sec.serial
        (addr ∉ s.sec.addrs → exec (.routerAdvertisement pfx) s
            = .next (withDev s { s.toDev with sec := { s.sec with addrs := s.sec.addrs ++ [addr] } }))
          ∧ (addr ∈ s.sec.addrs → exec (.routerAdvertisement pfx) s = .next s))

/-- The throttle temperature is 95 °C at reset, and POWER_CFG sets it between 80 °C and 100 °C with a cap of 600 W to 1,800 W, from
the next control interval on; outside those ranges it answers BAD_BODY and sets nothing (R453, R454, R464, R465). The reason code
of BAD_BODY is free (assumption 8). -/
def Obligations.ThrottleLimits : Prop :=
  State.reset.pwr.tThrottle = 95
    ∧ ∀ (s : State) (au : Auth) (w c : Nat), Accept s au (.powerCfg w c) →
      let d := taken s au
      (600 ≤ w → w ≤ 1800 → 80 ≤ c → c ≤ 100 → exec (.powerCfg au w c) s = answered s au { d with
          pwr := { d.pwr with next := some (BitVec.ofNat 12 w, BitVec.ofNat 8 c) } })
        ∧ (w < 600 ∨ 1800 < w ∨ c < 80 ∨ 100 < c →
          exec (.powerCfg au w c) s = answered s au d.draw.1 1 (d.draw.2.toNat % 256))

/-! ### The Arvond ports (R353–R382) -/

/-- A data flit on an ACTIVE port: a bad CRC is counted and asked for again; one that is good, in order and within its
class's buffers is kept for its unit (a Waggle message with the count of the moment it came), or goes on to another device, and
the link's count advances by one; one that is malformed, of an unknown PROTO or beyond the buffers is a violation. -/
def Obligations.FlitsArrive : Prop :=
  ∀ (s : State) (p : Port) (bs : List Byte) (fec : Nat),
    let x : LPort := { s.toDev.port p with fecUncorr := satAdd (s.toDev.port p).fecUncorr fec }
    let fl := Flit.ofBytes bs
    let next := fun d : Dev => exec (.dataFlit p { bytes := bs, fec := fec }) s = .next (withDev s d)
    let good : LPort := { x with rxSeq := x.rxSeq + 1, nak := false }
    x.state = .active → bs.length = 256 → field bs 0 2 ≠ 3 →
    (field bs 252 4 ≠ flitCrc x.rxSeq (bs.take 252) →
        next (s.toDev.setPort p { x with crcErr := satAdd x.crcErr, nak := true }))
      ∧ (field bs 252 4 = flitCrc x.rxSeq (bs.take 252) →
        (malformedFlit x.rxSeq bs = true →
          next ((s.toDev.setPort p { x with malformed := satAdd x.malformed, nak := true }).violation p))
        ∧ (malformedFlit x.rxSeq bs = false → (fl.proto.toNat = 0 ∨ 9 < fl.proto.toNat) →
          next ((s.toDev.setPort p (good.freeOne fl.cls)).unknownMessage p bs))
        ∧ (malformedFlit x.rxSeq bs = false → 1 ≤ fl.proto.toNat → fl.proto.toNat ≤ 9 →
          (x.share fl.cls ≤ x.heldOf fl.cls → next ((s.toDev.setPort p { (good.say ([3] ++ le 1 fl.cls.toNat ++ le 2 1)) with
            creditOvr := satAdd x.creditOvr }).violation p))
          ∧ (x.heldOf fl.cls < x.share fl.cls →
            (fl.dst = s.lnk.devId → next (s.toDev.setPort p { good with
              rx := x.rx ++ [{ fl with stamp := if fl.proto = 3 then s.toDev.rxStamp p else 0 }] }))
            ∧ (fl.dst ≠ s.lnk.devId → next ((s.toDev.setPort p (good.freeOne fl.cls)).forward fl)))))

/-- Link-control flits: ACK frees what it covers, NAK starts a replay, the credits are what the partner freed. The
messages: HELLO is compared with the plan, a partner's UNSUPPORTED and CREDIT_VIOLATION are logged, LANE_DROP lowers the
lanes to some that neither end has lost, RETRAIN and QUARANTINE act. A lane that fails leaves service, and fewer lanes count in
LANE_DROPS; an ACTIVE port tells its partner, and goes OFFLINE with its last lane. -/
def Sys2Proof.Machine.Claim.LinkMessages : Prop :=
  ∀ (s : State) (p : Port),
    let x := s.toDev.port p
    (∀ (bs : List Byte) (fec : Nat), x.state = .active → bs.length = 256 → field bs 0 1 = 3 → field bs 1 1 ≤ 6 →
        field bs 252 4 = flitCrc 0 (bs.take 252) → field bs 10 2 < 512 →
        let y := ({ x with fecUncorr := satAdd x.fecUncorr fec } : LPort).acked (BitVec.ofNat 32 (field bs 2 4))
        let y := if bit (field bs 10 2) 0 = true then y.naked (BitVec.ofNat 32 (field bs 6 4)) else y
        exec (.linkControlFlit p { bytes := bs, fec := fec }) s = .next (withDev s (s.toDev.setPort p { y with limit :=
          #v[BitVec.ofNat 16 (x.share classW + field bs 12 2), BitVec.ofNat 16 (x.share classC + field bs 14 2)
            , BitVec.ofNat 16 (x.share classB + field bs 16 2)] })))
      ∧ (∀ (id : BitVec 16) (q : Byte) (gen : BitVec 32), x.state = .hello → exec (.linkHello p id q gen) s
        = .next (withDev s ((s.toDev.setPort p { x with
          peerId := id, peerV := true, peerPort := q }).comparePeer p).fillPlaces))
      ∧ (x.state = .active →
        (∀ hdr : List Byte, exec (.unsupported p hdr) s
          = .next (withDev s (s.toDev.logEntry 2 1)))
        ∧ (∀ (c : Byte) (n : BitVec 16), exec (.creditViolation p c n) s
          = .next (withDev s (s.toDev.logEntry 2 1)))
        ∧ (∀ mask count : Byte, count.toNat ≤ x.lanes → (count = 1 ∨ count = 2 ∨ count = 4 ∨ count = 6 ∨ count = 8) →
          let m := x.laneMask &&& mask
          let n := min count.toNat (laneCount (goodLanes m))
          (n ≠ 0 → exec (.laneDrop p mask count) s = .next (withDev s (s.toDev.setLanes p m n)))
            ∧ (n = 0 → exec (.laneDrop p mask count) s
              = .next (withDev s ((s.toDev.setPort p { x with laneMask := m }).portDown p .offline))))
        ∧ (∀ c : Byte, exec (.retrain p c) s = .next (withDev s (s.toDev.retrainPort p c.toNat)))
        ∧ (∀ c : Byte, 1 ≤ c.toNat → c.toNat ≤ 4 → exec (.quarantine p c) s
          = .next (withDev s ((s.toDev.quarantine p c.toNat).ledger 0x06 0x06 { ledPort p x.peerId with sub := c.toNat }))))
      ∧ (∀ lane : Fin 8, x.laneMask.getLsbD lane.val = true →
        let mask := x.laneMask &&& ~~~(1#8 <<< lane.val)
        let n := laneCount (goodLanes mask)
        let next := fun d : Dev => exec (.laneFailure p lane) s = .next (withDev s d)
        (x.state = .active → n = 0 → next ((s.toDev.setPort p { x with laneMask := mask }).portDown p .offline))
          ∧ (x.state = .active → n ≠ 0 →
            next ((s.toDev.setPort p (x.say [4, mask, BitVec.ofNat 8 n])).setLanes p mask n))
          ∧ (x.state = .fecLock ∨ x.state = .hello ∨ x.state = .quarantined →
            next (s.toDev.setPort p { x with
              laneMask := mask, lanes := n, laneDrops := if n < x.lanes then satAdd x.laneDrops else x.laneDrops })))

/-- A flit slot: every 21st carries a link-control flit with the oldest message; another one, when a replay runs,
sends its next flit again, else a class W flit that holds a token goes first, and with nothing to send an idle flit is sent.
Routes change in one step, except for the device itself and its own rack, and the Waggle tree follows them. -/
def Sys2Proof.Machine.Claim.FlitSlots : Prop :=
  ∀ (s : State) (p : Port),
    let x := s.toDev.port p
    (x.state = .active → x.slot = 20 → exec (.flitSlot p) s = .next (withDev s
        ((s.toDev.setPort p { x with slot := 0, msgs := x.msgs.drop 1 }).emit (.control p (x.control (x.msgs.headD []))))))
      ∧ (∀ (n : BitVec 32) (fl : Flit), x.state = .active → x.slot < 20 → 0 < x.resend → x.tokenCnt < 49 →
        x.replay[x.replay.length - x.resend]? = some (n, fl) → exec (.flitSlot p) s = .next (withDev s
          ((s.toDev.setPort p { x with slot := x.slot + 1, tokenCnt := x.tokenCnt + 1, resend := x.resend - 1 }).emit
            (.flit p (fl.bytes n)))))
      ∧ (x.slot < 20 → x.resend = 0 → x.tokenCnt < 49 →
        let w := (s.lnk.cWeight.toNat, s.lnk.bWeight.toNat)
        let y : LPort := { x with slot := x.slot + 1, tokenCnt := x.tokenCnt + 1 }
        let z : LPort := if x.arb = w then y else { y with arb := w, defC := 0, defB := 0 }
        let next := fun d : Dev => exec (.flitSlot p) s = .next (withDev s d)
        (x.state = .active → 4096 ≤ x.replay.length → next ((s.toDev.setPort p y).emit (.flit p idleFlit)))
          ∧ (x.state = .active → x.replay.length < 4096 → x.egW = [] → x.egC = [] → x.egB = [] →
            next ((s.toDev.setPort p { z with defC := 0, defB := 0 }).emit (.flit p idleFlit)))
          ∧ (∀ (fl : Flit) (rest : List Flit), x.state = .active → x.replay.length < 4096 → x.egW = fl :: rest →
            0 < x.tokens → 0 < x.credit classW → x.credit classW < 2 ^ 15 →
            next ((s.toDev.setPort p { z with tokens := x.tokens - 1, egW := rest }).putFlit p fl)))
      ∧ (x.state = .quarantined → x.slot < 20 → exec (.flitSlot p) s
        = .next (withDev s ((s.toDev.setPort p { x with slot := x.slot + 1 }).emit (.flit p idleFlit))))
      ∧ (∀ (i : Fin 64) (v : Word), s.up = true → (∀ q : Port, (s.toDev.port q).replay = []) →
        exec (.routeChange [.rtb i v]) s = .next (withDev s ({ s.toDev with lnk := { s.lnk with
          rtb := s.lnk.rtb.set i.val (if i.val = s.lnk.devId.toNat % 64 then 0 else v &&& 0xFFFFFF1F) } } :
            Dev).refreshTree))
      ∧ (∀ (i : Fin 512) (v : Word), s.up = true → (∀ q : Port, (s.toDev.port q).replay = []) →
        exec (.routeChange [.rtr i v]) s = .next (withDev s ({ s.toDev with lnk := { s.lnk with
          rtr := s.lnk.rtr.putD 0 i.val (if i.val = s.lnk.devId.toNat / 64 then 0 else v &&& 0xFFFFFF01) } } :
            Dev).refreshTree))

/-- Training goes from DETECT to ACTIVE: a wave starts its ports, those that may not train stay OFFLINE, each state that completes goes on to the next, a
state that takes too long ends in OFFLINE or FAILED, and a port that failed or was parked tries again. -/
def Obligations.PortsTrain : Prop :=
  ∀ (s : State) (p : Port),
    let d := s.toDev
    let x := d.port p
    (∀ w : Fin 4, s.up = true → s.lnk.plan ≠ none →
        (w = 0 ∧ s.lnk.wave = none ∨ ∃ v : Fin 4, s.lnk.wave = some v ∧ w.val = v.val + 1) →
        exec (.trainingWaveStart w) s = .next (withDev s ((List.finRange 32).foldl (fun d p =>
          if (d.inWave p w && ((d.port p).state == .notReady || (d.port p).state == .offline)) = true
          then if d.mayTrain p = true then d.startDetect p else d.movePort p .offline
          else d) { d with lnk := { s.lnk with wave := some w } })))
      ∧ (∀ o : TrainObs,
        let d := s.toDev.setPort p (x.setShares o.shares)
        let x := x.setShares o.shares
        let next := fun e : Dev => exec (.trainingStateComplete p o) s = .next (withDev s e.fillPlaces)
        let n := laneCount (goodLanes o.laneMask)
        (x.state = .detect → x.parked = false →
            (o.notReady = false → next (d.enterEq p)) ∧ (o.notReady = true → next (d.setPort p { x with parked := true })))
        ∧ (x.state = .eq → next ((d.setPort p { x with
          hintUsed := x.fromHint, obs := { x.obs with txTaps := o.txTaps, rxTaps := o.rxTaps } }).movePort p .laneMap))
        ∧ (x.state = .laneMap →
          let d := d.setPort p { x with laneMask := o.laneMask, lanes := n }
          (n ≠ 0 → next (d.movePort p .fecLock)) ∧ (n = 0 → next (d.portDown p .failed)))
        ∧ (x.state = .fecLock → next ((d.movePort p .hello).sendHello p)))
      ∧ (let fails := fun e : Dev => exec (.trainingTimeout p) s = .next (withDev s e.fillPlaces)
        (x.state = .detect → x.parked = false → fails (d.portDown p .offline))
        ∧ (x.state = .eq → x.fromHint = true → fails (d.setPort p { x with fromHint := false }))
        ∧ ((x.state = .eq ∧ x.fromHint = false ∨ x.state = .laneMap ∨ x.state = .fecLock
            ∨ x.state = .hello ∧ s.lnk.plan ≠ none) → fails (d.portDown p .failed)))
      ∧ ((x.state = .offline ∨ x.state = .failed) → d.mayTrain p = true → (∀ q : Port, (d.port q).busy = false) →
        exec (.trainingRetry p) s = .next (withDev s (d.startDetect p)))
      ∧ (x.state = .detect → x.parked = true →
        (d.mayTrain p = true → exec (.parkedPortRelease p) s = .next (withDev s (d.enterEq p)))
        ∧ (d.mayTrain p = false → exec (.parkedPortRelease p) s = .next s))

/-! ### Other devices (R210, R211, R354) -/

/-- A bell that a window grants, to a semaphore of its own job, is applied and acknowledged; without a window it is
counted, recorded and refused, and changes no semaphore. -/
def Sys2Proof.Machine.Claim.RemoteBells : Prop :=
  ∀ (s : State) (m : BellMsg), s.up = true →
    let d := s.toDev.consume 0x02 m.job
    let addr := m.addr &&& ~~~7#64
    (∀ (n : Nat) (c : BitVec 12), d.remoteMay m.job .bell addr 8 = true → n < semCount →
        addr.toNat % 2 ^ 48 = semBase + 8 * n → d.semOwner n = some c → (d.ctx c).job = m.job →
        exec (.bellFlit m) s = .next (withDev s
          ((d.pushSem { sem := n, value := m.value, add := m.add }).sendAck m.job m.src m.tag 8)))
      ∧ (d.remoteMay m.job .bell addr 8 = false → exec (.bellFlit m) s = .next (withDev s
        ((({ d with mkt := { d.mkt with refusals := satAdd d.mkt.refusals } } : Dev).ledger 0x07 0x02
          { addr := addr.toNat, aux0 := m.src.toNat }).sendError classC m.job m.src m.tag 0x07)))

/-- Class B: a read that a window grants is answered in flits of up to 224 bytes, a write is made and acknowledged; what
no window grants, or what is neither DRAM nor comb store, is counted, recorded and refused. The answers end this device's own
requests, read data when its pieces are all there; one that does not come in time ends in an error. -/
def Sys2Proof.Machine.Claim.RemoteAccesses : Prop :=
  ∀ s : State,
    let refused := fun (d : Dev) (addr : Word) (job : BitVec 16) (src : BitVec 15) (tag : BitVec 32) =>
      withDev s (((({ d with lnk := { d.lnk with refusedB := satAdd d.lnk.refusedB } } : Dev).ledger 0x07 0x01
        { addr := addr.toNat, aux0 := src.toNat }).sendError classB job src tag 0x07))
    (s.up = true →
        (∀ m : BReadMsg,
          let d := s.toDev.consume 0x05 m.job
          let pa := m.addr.toNat % 2 ^ 48
          let may := d.remoteMay m.job .read m.addr m.len && inDramOrComb pa m.len
          0 < m.len → m.len ≤ 4096 → m.len % 64 = 0 →
          (may = true → exec (.bReadRequest m) s = .next (withDev s
            ((List.range (ceilDiv m.len 224)).foldl (fun d i =>
              let off := 224 * i
              let n := min 224 (m.len - off)
              d.forward (d.mkFlit classB 0x06 m.job m.src (le 4 m.tag.toNat ++ le 4 off ++ d.read (pa + off) n)
                (d.mem.readPoison (pa + off) n))) d)))
          ∧ (may = false → exec (.bReadRequest m) s = .next (refused d m.addr m.job m.src m.tag)))
        ∧ (∀ m : BWriteMsg,
          let d := s.toDev.consume 0x07 m.job
          let pa := m.addr.toNat % 2 ^ 48
          let n := m.data.length
          let may := d.remoteMay m.job .write m.addr n && inDramOrComb pa n
          n ≤ 224 →
          (may = true → exec (.bWrite m) s = .next (withDev s
            (((d.demandRead (partLines pa n) m.errs).write pa m.data m.poison).sendAck m.job m.src m.tag n)))
          ∧ (may = false → exec (.bWrite m) s = .next (refused d m.addr m.job m.src m.tag))))
      ∧ (∀ (m : BDataMsg) (r : Req) (f : FrameId),
        let d := s.toDev.consumeTag 0x06 m.tag
        let r' : Req := { r with got := SMap.put r.got m.off m.data, psn := r.psn || m.poison }
        (d.lnk.reqs.find? fun r => r.tag == m.tag) = some r →
        (∀ bs, r'.whole = some bs → r.origin = .load f → exec (.bReadData m) s
          = .next (withDev s ((d.dropReq m.tag).loadArrived f m.tag bs r'.psn)))
        ∧ (∀ bs, r'.whole = some bs → r.origin = .moveRead f → exec (.bReadData m) s
          = .next (withDev s ((d.dropReq m.tag).moveRead f m.tag bs r'.psn)))
        ∧ (r'.whole = none → exec (.bReadData m) s = .next (withDev s { d with lnk := { d.lnk with
          reqs := d.lnk.reqs.map fun x => if x.tag == m.tag then r' else x } })))
      ∧ (∀ (tag : BitVec 32) (r : Req) (f : FrameId),
        let d := s.toDev.consumeTag 0x08 tag
        (d.lnk.reqs.find? fun r => r.tag == tag) = some r →
        (r.origin = .store f → exec (.bWriteAcknowledgement tag r.bytes) s
          = .next (withDev s ((d.dropReq tag).storeAcked f tag)))
        ∧ (r.origin = .moveWrite f → exec (.bWriteAcknowledgement tag r.bytes) s
          = .next (withDev s (((d.dropReq tag).moveWritten f tag).pumpTally f 16)))
        ∧ (∀ (q seq : Nat) (e : Entry) (n : Nat), r.origin = .entryBell q seq → (d.dropReq tag).entry? q seq = some e →
          exec (.bWriteAcknowledgement tag n) s = .next (withDev s ((d.dropReq tag).complete q e .ok).1)))
      ∧ (∀ (tag : BitVec 32) (r : Req) (cause : Byte),
        let d := s.toDev.consumeTag 0x09 tag
        (d.lnk.reqs.find? fun r => r.tag == tag) = some r → exec (.errorResponse tag cause) s
          = .next (withDev s ((d.dropReq tag).originError r cause.toNat)))
      ∧ (∀ (tag : BitVec 32) (r : Req), (s.lnk.reqs.find? fun r => r.tag == tag) = some r →
        exec (.remoteRequestTimeout tag) s = .next (withDev s ((s.toDev.dropReq tag).originError r 0x08)))

/-! ### Waggle time, timed bells, barriers (R383–R405) -/

/-- At its timer a device with a parent asks it; a child's request is answered with its four times; the parent's answer
runs the servo, whose rate stays within 250 ppm, and the primary parent's, under FALLBACK, counts towards its return. A parent
silent for 1 ms of the local clock in ACQUIRING or LOCKED leads to HOLDOVER with the rate fi; one whose port left ACTIVE
does not; either way the first reachable device of the order becomes the parent. -/
def Sys2Proof.Machine.Claim.WaggleExchanges : Prop :=
  ∀ s : State, s.up = true →
    let w := s.wag
    (∀ p : BitVec 15, w.state ≠ .root → w.parent = some p → w.fallback = false → exec .waggleExchangeTimer s
        = .next (withDev s (({ s.toDev with wag := { w with reqSeq := w.reqSeq + 1 } } : Dev).waggleRequest p
          (w.reqSeq + 1))))
      ∧ (∀ p q : BitVec 15, w.state ≠ .root → w.parent = some p → w.fallback = true → w.primary = some q →
        let d := ({ s.toDev with wag := { w with reqSeq := w.reqSeq + 1 } } : Dev).waggleRequest p (w.reqSeq + 1)
        exec .waggleExchangeTimer s = .next (withDev s (({ d with wag := { d.wag with
          primGood := if d.wag.primAns then d.wag.primGood else 0, primAns := false, primSeq := d.wag.primSeq + 1 } } :
            Dev).waggleRequest q (d.wag.primSeq + 1))))
      ∧ (∀ (p : Port) (src : BitVec 15) (m : WagMsg), exec (.waggleReq p src m) s
        = .next (withDev s ((s.toDev.takeWag p src).waggleAnswer src m (s.toDev.wagStamp p src))))
      ∧ (∀ (p : Port) (src : BitVec 15) (m : WagMsg),
        let d := s.toDev.takeWag p src
        let heard : Dev := { d with wag := { d.wag with heard := d.ns } }
        let mine := d.wag.parent = some src ∧ m.seq = d.wag.reqSeq
        d.wag.state ≠ .root →
        (mine → m.root = d.wag.root → exec (.waggleRsp p src m) s
          = .next (withDev s (heard.servo m.t1 m.t2 m.t3 (s.toDev.wagStamp p src))))
        ∧ (mine → m.root ≠ d.wag.root → exec (.waggleRsp p src m) s
          = .next (withDev s (heard.ledger 0x08 0x01 { aux0 := m.root.toNat })))
        ∧ (¬ mine → d.wag.fallback = true → d.wag.primary = some src → m.seq = d.wag.primSeq → d.wag.primAns = false →
          let n := d.wag.primGood + 1
          let e : Dev := { d with wag := { d.wag with primGood := n, primAns := true } }
          exec (.waggleRsp p src m) s = .next (withDev s (if 16 ≤ n then e.setParent e.wag.primary else e))))
      ∧ (∀ (t1 t2 t3 t4 : Nat), w.valid = true → (s.toDev.servo t1 t2 t3 t4).wag.rate.natAbs ≤ 1073741)
      ∧ (let silent := w.heard + 1000000 ≤ s.ns
        w.state ≠ .root → w.parent ≠ none → (silent ∨ w.portLost = true) →
        let holds := silent ∧ (w.state = .acquiring ∨ w.state = .locked)
        let next := ([s.toDev.rackLeader (s.lnk.devId.toNat / 64), s.toDev.upperLeader, some w.root]).find? fun o =>
          o.isSome && o != some s.lnk.devId && o != w.parent && (o.bind fun i => s.toDev.portTo i).isSome
        ∃ d : Dev, exec .parentLost s = .next (withDev s d)
          ∧ (holds → d.wag.state = .holdover ∧ d.wag.rate = w.fi) ∧ (¬ holds → d.wag.state = w.state ∧ d.wag.rate = w.rate)
          ∧ (next = none → d.wag.parent = w.parent) ∧ (∀ o, next = some o → d.wag.parent = o)
          ∧ d.wag.ctr = w.ctr ∧ d.lnk = s.lnk ∧ d.mkt = s.mkt ∧ d.fr = s.fr)

/-- A timed bell goes out when its time has come, and not before; without a valid counter at once, and counted. The
power slot of the device, and no other, starts what it held. -/
def Sys2Proof.Machine.Claim.TimedEvents : Prop :=
  ∀ s : State,
    (∀ (i : Nat) (b : TBell), s.wag.tbells[i]? = some b →
        let gone := fun early : BitVec 16 => ({ s.toDev with wag := { s.wag with
          tbells := s.wag.tbells.eraseIdx i, earlyRel := early } } : Dev).ringTaskBell b.addr b.value b.add b.job b.origin
        (s.wag.valid = true → b.time.toNat ≤ s.toDev.waggle →
          exec (.timedBellRelease i) s = .next (withDev s (gone s.wag.earlyRel)))
        ∧ (s.wag.valid = true → s.toDev.waggle < b.time.toNat → exec (.timedBellRelease i) s = .next s)
        ∧ (s.wag.valid = false → exec (.timedBellRelease i) s = .next (withDev s (gone (satAdd s.wag.earlyRel)))))
      ∧ (s.up = true → s.toDev.waggle / 16 % 64 = s.lnk.devId.toNat % 64 → exec .powerSlotStart s = .next (withDev s (allFrames.foldl (fun d f => d.releaseStart f)
        { s.toDev with wag := { s.wag with starts := s.wag.starts.filter fun t => decide (s.toDev.waggle < t + 1024) } })))
      ∧ (s.toDev.waggle / 16 % 64 ≠ s.lnk.devId.toNat % 64 → exec .powerSlotStart s = .next s)

/-- A barrier message is placed in the group with its key and job, which goes on; one with no group is recorded. A
BROKEN group sends its failed message again; once it is delivered an arrival in progress goes on, and a group without one is idle. -/
def Sys2Proof.Machine.Claim.BarrierMessages : Prop :=
  ∀ s : State, s.up = true →
    (∀ m : BarMsg,
        let d := s.toDev.consume 0x04 m.job
        let hit := d.wag.groups.find? fun g => g.2.state != .free && g.2.key == m.key && g.2.job == m.job
        (∀ (gi : Nat) (g : Group), hit = some (gi, g) → exec (.barrierMessage m) s = .next (withDev s
          ((d.setGroup gi (g.place m.episode m.round.toNat m.member.toNat)).stirGroup gi)))
        ∧ (hit = none → exec (.barrierMessage m) s
          = .next (withDev s (d.ledger 0x08 0x03 { job := m.job.toNat, aux0 := m.key.toNat }))))
      ∧ (∀ (g : Fin 1024) (ep : Word) (r m : Nat),
        let gr := s.toDev.group g.val
        let x := (s.toDev.setGroup g.val { gr with failed := [] }).sendBar g.val ep r m
        let d := x.1
        gr.state = .broken → gr.failed = [(ep, r, m)] → (d.group g.val).failed = [] →
        (x.2 = true →
            ((d.group g.val).open_ = true → exec (.barrierResend g) s
              = .next (withDev s ((d.setGroup g.val { d.group g.val with state := .arrived }).stirGroup g.val)))
            ∧ ((d.group g.val).open_ = false → (d.group g.val).waiters = [] → exec (.barrierResend g) s
              = .next (withDev s (d.setGroup g.val { d.group g.val with state := .idle }))))
          ∧ (x.2 = false → exec (.barrierResend g) s
            = .next (withDev s (d.setGroup g.val { d.group g.val with failed := [(ep, r, m)] }))))

/-- The messages of a barrier: one of the episode in progress is marked, and a second time changes nothing; one of an episode that
is over counts as stale; of later episodes the highest is kept, and the flags of one it replaces count as stale. Whoever a member
sends to in a round is a member that waits for it in that round (R401, R402). -/
def Obligations.BarrierRounds : Prop :=
  ∀ (g : Group) (r m : Nat),
    let marked := fun fl : List (Nat × Nat) => if (r, m) ∈ fl then fl else fl ++ [(r, m)]
    (g.past = false → g.place g.episode r m = { g with flags := marked g.flags }
        ∧ (g.place g.episode r m).place g.episode r m = g.place g.episode r m)
      ∧ (∀ ep : Word, ep.toNat < g.episode.toNat ∨ ep = g.episode ∧ g.past = true →
        g.place ep r m = { g with stale := satAdd g.stale })
      ∧ (∀ ep : Word, g.episode.toNat < ep.toNat →
        (g.later = none → g.place ep r m = { g with later := some (ep, [(r, m)]) })
        ∧ (∀ (e : Word) (fl : List (Nat × Nat)), g.later = some (e, fl) →
          (e = ep → g.place ep r m = { g with later := some (ep, marked fl) })
          ∧ (e.toNat < ep.toNat → g.place ep r m = { g with
            later := some (ep, [(r, m)]), stale := satAdd g.stale fl.length })
          ∧ (ep.toNat < e.toNat → g.place ep r m = { g with stale := satAdd g.stale })))
      ∧ (0 < g.nIn → 0 < g.nOut → g.member < g.nIn * g.nOut → r < g.rounds →
        ∀ t ∈ g.targets r, t < g.nIn * g.nOut ∧ ∀ h : Group, h.nIn = g.nIn → h.nOut = g.nOut → h.member = t →
          g.member ∈ h.sources r)

/-! ### Scrubbing and the ledger's window (R212–R226, R435) -/

/-- The scrubber's read of a line: a clean DRAM line changes nothing; a correction is counted and written back; what cannot be
corrected is counted, poisoned and recorded; an error that comes again is hard. A word of a comb store with a single-bit error
is corrected, counted and written back. A write-back not overtaken stores its bytes; a spared row's copy redirects it; the
ledger's window starts anew. -/
def Sys2Proof.Machine.Claim.Scrubs : Prop :=
  ∀ s : State,
    (∀ (line : Nat) (o : ScrubObs), s.up = true → s.mem.scrubOn = true → (line + 1) * 64 < dramEnd →
        let pa := line * 64
        let dd := (s.mem.home pa).2.1
        let syn := s.mem.lineSyndrome line o
        let found := applyErrors (s.toDev.read (s.mem.readLine line o * 64) 64 ++ zeros 4) (ScrubObs.errors o)
        let d := if o.corr = 0 then s.toDev
          else s.toDev.updMErr false dd fun x => { x with inner := satAdd x.inner (countBits o.corr) }
        let hard := fun (d : Dev) (u : Bool) => if o.again = true then d.hardLine pa u else d
        (o = {} → s.mem.poison.get? (pa / 32) = none → exec (.scrubRead line o) s = .next s)
        ∧ (∀ e : List (Nat × Nat), o.misdir = false → decodeLine syn o.uncorr = .corrected e →
          let bs := (applyErrors found e).take 64
          let d := d.updMErr false dd fun x => { x with outer := satAdd x.outer }
          let d : Dev := { d with mem := d.mem.markGran pa false }
          let d : Dev := if d.read pa 64 = bs then d else { d with mem := d.mem.storeBytes pa bs }
          exec (.scrubRead line o) s = .next (withDev s (hard (d.pushBack pa bs) false)))
        ∧ (o.misdir = true ∨ decodeLine syn o.uncorr = .uncorrectable →
          exec (.scrubRead line o) s = .next (withDev s (hard ((d.updMErr false dd fun x =>
            { x with ue := satAdd x.ue }).uncorrectable pa 3 dd
              ((syn.zip [1, 256, 65536, 16777216]).foldl (fun r p => r + p.1 * p.2) 0 + o.uncorr.toNat * 2 ^ 32)
              (if o.misdir then 2 else 1)) true))))
      ∧ (∀ (line cl w : Nat), s.up = true → s.mem.scrubOn = true → dramEnd ≤ line * 64 →
        sramUnit (line * 64) = some (cl, none) →
        let d := s.toDev.updMErr true cl fun x => { x with inner := satAdd x.inner }
        exec (.scrubRead line { words := [(w, none)] }) s
          = .next (withDev s (d.pushBack (line * 64 + 8 * w) (s.toDev.read (line * 64 + 8 * w) 8))))
      ∧ (∀ (i : Nat) (w : WBack), s.mem.wbacks[i]? = some w →
        let d : Dev := { s.toDev with mem := { s.mem with wbacks := s.mem.wbacks.eraseIdx i } }
        (w.stale = true → exec (.correctionWriteBack i) s = .next (withDev s d))
        ∧ (w.stale = false → exec (.correctionWriteBack i) s
          = .next (withDev s { d with mem := d.mem.storeBytes w.pa w.data })))
      ∧ (∀ (i : Nat) (r : RowCopy), s.mem.copying[i]? = some r → exec (.rowSpareComplete i) s = .next (withDev s
        (({ s.toDev with mem := { s.mem with
          copying := s.mem.copying.eraseIdx i, spared := s.mem.spared ++ [r]
          hard := s.mem.hard.filter fun l => lineRow l != r } } : Dev).ledger 0x01 0x03
            { unit := 3, index := r.die, sub := r.bank })))
      ∧ exec .ledgerWindowEnd s = .next (withDev s { s.toDev with grd := { s.grd with window := [] } })

/-- The outer code corrects every single-bit error of a stored line whose word the inner code flags (R213–R216). -/
def Sys2Proof.Machine.Claim.SingleBitsCorrected : Prop :=
  ∀ (p k : Nat) (uncorr : BitVec 5), p < 68 → k < 8 → uncorr.getLsbD (p / 16) = true →
    decodeLine (syndrome [(p, 2 ^ k)]) uncorr = .corrected [(p, 2 ^ k)]

/-! ### Power and thermal (R97, R100, R462–R466, R483, R493, R494) -/

/-- The power-management core: at an interval what POWER_CFG set takes effect; a die at the throttle temperature is lowered; a
package over its cap lowers the die with the highest level, and one that was below 0.95 of it for 100 µs raises a cool die with the
lowest; 110% lowers every die by two. The frames take the caps. Hardware forces CAP 1 at 105 °C until 100 °C; voltage codes step
within 0 to 100 and are sent to the regulator, and an alert sends them all again. -/
def Obligations.PowerManaged : Prop :=
  ∀ s : State,
    (s.toDev.fwRuns = true → s.sec.restarting = [] →
        (∀ (watts : Nat) (temps : List Nat),
          let cap := (s.pwr.next.map (·.1)).getD s.pwr.watts
          let hot := ((s.pwr.next.map (·.2)).getD s.pwr.tThrottle).toNat
          let temp := fun i : Fin 16 => (temps[i.val]?).getD 0
          let was := fun i : Fin 16 => (s.pwr.dies[i]).cap
          ∃ d : Dev, exec (.powerControlInterval watts temps) s = .next (withDev s d)
            ∧ d.pwr.watts = cap ∧ d.pwr.tThrottle.toNat = hot ∧ d.pwr.next = none
            ∧ d.pwr.low = (if 100 * watts < 95 * cap.toNat then s.pwr.low + 1 else 0)
            ∧ (∀ i : Fin 16, (d.pwr.dies[i]).tj = BitVec.ofNat 8 (min 255 (temp i)))
            ∧ (∀ f : FrameId, (d.frame f).ramp.cap = d.capOf (dieOf f))
            ∧ d.mkt = s.mkt ∧ d.lnk = s.lnk ∧ d.xch = s.xch ∧ d.wag = s.wag
            ∧ (watts ≤ cap.toNat → (95 * cap.toNat ≤ 100 * watts ∨ s.pwr.low < 9) →
              ∀ i : Fin 16, (d.pwr.dies[i]).cap = if hot ≤ temp i then max 1 (was i - 1) else was i)
            ∧ ((∀ i, temp i < hot) →
              (∀ i : Fin 16, cap.toNat < watts → (∀ j : Fin 16, was j ≤ was i ∧ (j < i → was j < was i)) →
                (d.pwr.dies[i]).cap = max 1 (was i - 1) ∧ ∀ j : Fin 16, j ≠ i → (d.pwr.dies[j]).cap = was j)
              ∧ (∀ i : Fin 16, 100 * watts < 95 * cap.toNat → 9 ≤ s.pwr.low → temp i < hot - 5 →
                (∀ j : Fin 16, temp j < hot - 5 → was i ≤ was j ∧ (j < i → was i < was j)) →
                (d.pwr.dies[i]).cap = min 8 (was i + 1) ∧ ∀ j : Fin 16, j ≠ i → (d.pwr.dies[j]).cap = was j)))
        ∧ (∀ watts : Nat, 110 * s.pwr.watts.toNat < 100 * watts → exec (.powerFastCheck watts) s
          = .next (withDev s (s.toDev.withCaps fun p => ((List.range 16).foldl (fun q i => q.lower i 2 true) p).markCapped)))
        ∧ (∀ watts : Nat, 100 * watts ≤ 110 * s.pwr.watts.toNat → exec (.powerFastCheck watts) s = .next s)
        ∧ (∀ i : Fin 16, let x := s.toDev.die i.val
          (x.code < 100 → exec (.voltageStep i true) s = .next (withDev s
            (((s.toDev.setDie i.val { x with code := x.code + 1 }).sendCode i.val).trace 641 0xFFFF 0xFFFF)))
          ∧ (100 ≤ x.code → exec (.voltageStep i true) s = .next s)
          ∧ (0 < x.code → exec (.voltageStep i false) s = .next (withDev s
            (((s.toDev.setDie i.val { x with code := x.code - 1 }).sendCode i.val).trace 641 0xFFFF 0xFFFF)))
          ∧ (x.code = 0 → exec (.voltageStep i false) s = .next s))
        ∧ exec .vrAlert s = .next (withDev s
          (((List.range 16).foldl (fun d i => d.sendCode i) s.toDev).logEntry 1 1)))
      ∧ (∀ (p : Power) (i : Fin 16), let q := p.lower i.val 2 true
        (q.dies[i]).cap = max 1 ((p.dies[i]).cap - 2) ∧ ∀ j : Fin 16, j ≠ i → q.dies[j] = p.dies[j])
      ∧ (s.sec.phase ≠ .off →
        (∀ c : Nat, 105 ≤ c →
          let d := s.toDev.withCaps fun p => { p with forced := true }
          exec (.thermalForce c) s = .next (withDev s d) ∧ ∀ f : FrameId, (d.frame f).ramp.cap = 1)
        ∧ (∀ c : Nat, c ≤ 100 → exec (.thermalForceRelease c) s
          = .next (withDev s (s.toDev.withCaps fun p => { p with forced := false }))))
/-! ### The Exchange (R302–R346) -/

/-- The command of a collective operation (R312). -/
def Sys2Proof.Machine.Claim.collective (op : Fin 8) (j : JobIx) : Instr :=
  match op with
  | 0 => .allReduce j
  | 1 => .reduceScatter j
  | 2 => .allGather j
  | 3 => .broadcast j
  | 4 => .allToAll j
  | 5 => .maxIdx j
  | 6 => .minIdx j
  | 7 => .commit j

/-- ALL_REDUCE, REDUCE_SCATTER, ALL_GATHER, BROADCAST, ALL_TO_ALL, MAX_IDX and MIN_IDX fetch their descriptor, advance
the ring's head in memory and enter the adders when the descriptor is of the job's step and attempt; COMMIT is kept, waits for
the verdicts of the tiles that its context had sampled when it was fetched, and tries to arrive; a stale one only counts and rings its semaphore, one of the next step
is held, and any other faults the job. -/
def Sys2Proof.Machine.Claim.CollectivesStart : Prop :=
  ∀ (s : State) (j : JobIx) (op : Fin 8) (bs : List Byte) (c0 : CDesc),
    let x := s.toDev.job j.val
    let cx := x.ctx.setWidth 12
    let read := s.toDev.readVirt unitXch cx (x.cring.toNat + 64 * (x.head % 2 ^ x.clog2)) 64
    let wrote := (read.1.setJob j.val { x with head := x.head + 1 }).writeVirt unitXch cx x.chead.toNat (le 8 (x.head + 1))
    s.up = true → x.withdrawn = false → s.xch.heldDesc.get? j.val = none →
    (op.val = 7 → s.xch.commits.get? j.val = none) → x.state ≠ .free → x.state ≠ .faulted →
    (s.toDev.ctx cx).state.fetches = true → x.head < (s.toDev.sem x.csem.toNat).toNat →
    read.2 = .ok (bs, false) → field bs 0 1 = op.val + 1 → CDesc.ofBytes bs x.nrank = some c0 → wrote.2 = .ok () →
    let d := wrote.1
    let covers := fun (d : Dev) (ctx : BitVec 16) (what : Commit) =>
      ({ ctx := ctx.setWidth 12, what := what, tiles := d.pendingTiles (ctx.setWidth 12), begun := false } : Held430)
    let y := d.job j.val
    let c : CDesc := { c0 with phase := if c0.timed = true then c0.start.toNat else d.ns, onWag := c0.timed }
    let ends := fun d : Dev => exec (collective op j) s
      = .next (withDev s ((if op.val = 7 then d.commitLoop j.val else d).stirXch x.job))
    (c.step = y.step → c.attempt = y.attempt →
        (op.val < 7 → ends (d.enterBkt j.val c))
        ∧ (op.val = 7 →
          let held := fun w : Held430 => w.what = .nextJob j.val
          let put := fun ws : List Held430 => ends { d with
            xch := { d.xch with commits := d.xch.commits.put j.val c }, grd := { d.grd with waits := ws } }
          ((∀ w ∈ d.grd.waits, ¬ held w) → put (d.grd.waits.filter (·.what != .job j.val) ++ [covers d y.ctx (.job j.val)]))
            ∧ ((∃ w ∈ d.grd.waits, held w) → put ((d.grd.waits.filter (·.what != .job j.val)).map fun w =>
              if w.what == .nextJob j.val then { w with what := .job j.val } else w))))
      ∧ (c.step.toNat < y.step.toNat ∨ c.step = y.step ∧ c.attempt < y.attempt →
        ends ((d.staleOne j.val).addOne y.job c.doneSem.toNat))
      ∧ (c.step = y.step → y.attempt < c.attempt → ends (d.jobFault j.val 0x04))
      ∧ (y.step.toNat < c.step.toNat →
        (c.step = y.step + 1 → c.attempt = 0 →
          let e : Dev := { d with xch := { d.xch with heldDesc := d.xch.heldDesc.put j.val c } }
          (op.val < 7 → ends e)
          ∧ (op.val = 7 → ends { e with grd := { d.grd with
            waits := d.grd.waits.filter (·.what != .nextJob j.val) ++ [covers d y.ctx (.nextJob j.val)] } }))
        ∧ (c.step ≠ y.step + 1 ∨ c.attempt ≠ 0 → ends (d.jobFault j.val 0x04)))

/-- A descriptor held for want of adder entries or for the next step tries again before another is fetched; a timed collective
whose time has come starts, and while the counter is not valid at once, which counts. -/
def Sys2Proof.Machine.Claim.CollectivesWait : Prop :=
  ∀ (s : State) (j : JobIx),
    let x := s.toDev.job j.val
    let out := fun d : Dev => withDev s (d.stirXch x.job)
    (∀ (op : Fin 8) (c : CDesc), s.up = true → x.withdrawn = false → s.xch.heldDesc.get? j.val = some c →
        c.op = op.val + 1 →
        let d := ({ s.toDev with xch := { s.xch with heldDesc := s.xch.heldDesc.del j.val } } : Dev).placeDesc j.val c
        exec (collective op j) s = .next (out (if op.val = 7 then d.commitLoop j.val else d)))
      ∧ (∀ (n : BitVec 16) (b : Bucket) (c : CDesc), s.toDev.bktOf j.val n = some b → b.desc = some c →
        b.state = .waitStart → c.timed = true →
        (s.wag.valid = true → c.start.toNat ≤ s.toDev.waggle →
          exec (.timedCollectiveStart j n) s = .next (out (s.toDev.beginBkt b.key)))
        ∧ (s.wag.valid = true → s.toDev.waggle < c.start.toNat →
          exec (.timedCollectiveStart j n) s = .next (out s.toDev))
        ∧ (s.wag.valid = false → exec (.timedCollectiveStart j n) s = .next (out
          (({ s.toDev with wag := { s.wag with earlyRel := satAdd s.wag.earlyRel } } : Dev).beginBkt b.key))))

/-- A collective whose contributions are all here writes its result and, in G32 mode, its history, rings its semaphore and is done,
whatever it still has to send, which goes on; a poisoned one taints its context, and the last overdue one opens the job again. Blocks
that saturated at REDO 7 are never written as they are: that their elements are then free values is the model's choice (assumption
142). -/
def Sys2Proof.Machine.Claim.CollectivesEnd : Prop :=
  ∀ (s : State) (j : JobIx) (n : BitVec 16) (b : Bucket) (c : CDesc) (ws : List Word),
    let x := s.toDev.job j.val
    let v : XView := { x := Coll.mk' x c b.probe, b := b }
    let sats := if c.g32 = true then satBlocks v.x ws else []
    let e : Dev := if sats.isEmpty = true then s.toDev else { s.toDev with fresh := s.fresh + ws.length }
    let codes := (List.zip (if c.op = 5 then List.range ws.length else v.x.wants) ws).map fun p =>
      if sats.contains (p.1 / 32) = true then (Config.free (s.fresh + p.1)).toNat % 2 ^ c.dstBits else c.dstCode b.exps p.1 p.2
    let wrote := e.writeResult j.val v.x codes b.bad
    let hist := if c.g32 = true then wrote.1.writeHist j.val v.x b ws b.bad else (wrote.1, .ok ())
    s.toDev.bktOf j.val n = some b → b.desc = some c → v.whole = some ws → b.probe = false →
    (b.state = .active ∨ b.state = .redo ∨ b.state = .spoiled) → (x.state = .open ∨ x.state = .overdue) →
    (sats = [] ∨ b.bad = true ∧ b.redo = 7) → wrote.2 = .ok () → hist.2 = .ok () →
    let d := hist.1
    let cx := (d.job j.val).ctx.setWidth 12
    let d := if b.bad = true then d.taintCtx cx else d
    let d := ((d.addOne (d.job j.val).job c.doneSem.toNat).trace 257 0xFFFF cx.toNat).updJob j.val fun x =>
      { x with finished := x.finished ++ [{ bucket := n, redo := b.redo, bad := b.bad }] }
    let d := (d.updBkt b.key fun b => { b with state := .done, overdue := false, owes := true }).settleSent b.key
    let late := (d.xch.bkts.any fun b => b.job == j.val && b.overdue) || (d.xch.heldDesc.get? j.val).any (·.overdue)
    let d := if (d.job j.val).state = .overdue ∧ late = false then d.updJob j.val fun x => { x with state := .open } else d
    exec (.collectiveComplete j n) s = .next (withDev s (((if c.op = 2 ∨ c.op = 5 then d.bktOver b.key
      else d.sendResult b.key v.x (packBytes c.dstBits codes) b.bad).commitLoop j.val).stirXch x.job))

/-- An incomplete collective TIMEOUT_MS after its phase start, in Waggle time for one that was TIMED and on the device's clock for
any other: under RESTART the attempt is aborted with cause 1, under WAIT the
job is OVERDUE with a record for every rank awaited; before that nothing. A missing segment is asked for again under WAIT
only. -/
def Sys2Proof.Machine.Claim.CollectiveTimeouts : Prop :=
  ∀ (s : State) (j : JobIx) (n : BitVec 16) (b : Bucket) (c : CDesc),
    let x := s.toDev.job j.val
    let out := fun d : Dev => exec (.collectiveTimeout j n) s = .next (withDev s (d.stirXch x.job))
    s.toDev.bktOf j.val n = some b → b.desc = some c → b.state ≠ .done → (x.state = .open ∨ x.state = .overdue) →
    let late := ({ x := Coll.mk' x c b.probe, b := b } : XView).awaited
    let due := b.phase + x.timeout * 1000000
    let now := if b.onWag = true then s.toDev.waggle else s.ns
    (now < due → out s.toDev)
      ∧ (due ≤ now → x.policy = false → out (s.toDev.abortStep j.val x.attempt 1 x.rank))
      ∧ (due ≤ now → x.policy = true → out (((s.toDev.overdueRecords j.val n late).markOverdue j.val n).updJob
        j.val fun x => { x with state := .overdue }))
      ∧ (x.policy = false → exec (.resendRepeat j n) s = .next s)
      ∧ (∀ (r : Rx) (i k : Nat) (own got : Word), x.policy = true → b.rx = [r] → r.bad = [(i, k, own, got)] → 2 ≤ k → i ∉ r.good →
        let pl := (((Coll.mk' x c r.probe).segs r.stage r.src x.rank)[i]?).bind (·.plane)
        exec (.resendRepeat j n) s = .next (withDev s ((s.toDev.sendXch (bktPkt x b.key c.fmtByte 0x04
          (if r.probe then 32 else 0) r.stage i (le 4 i) b.bad) (x.devOf r.src) pl).ledger 0x05 0x01 {
            job := x.job.toNat, step := x.step.toNat, ctx := x.ctx.toNat, attempt := x.attempt
            ta := own.toNat, tb := got.toNat, aux0 := r.src, aux1 := i })))

/-- DATA and TALLY packets: of an unknown job they are counted and recorded; of a peer in order they are placed in
their stream and the collective goes on; a stale one is counted, of a faulted job too; one of a newer attempt aborts the older
ones; a TALLY of a collective that is finished is acknowledged again; one whose sender's JOB_HELLO is awaited is held; one from a
rank that is no peer faults the job. A DATA packet that finds no room for early data, or no tally channel for the segment that it
begins, stays in its port's buffer. -/
def Sys2Proof.Machine.Claim.PacketsPlaced : Prop :=
  ∀ (s : State) (p q : XPkt) (r : Host.Outcome State Fault Refusal),
    (q = { p with kind := 1 } ∧ r = exec (.data p) s ∨ q = { p with kind := 2 } ∧ r = exec (.tally p) s) →
    let d := s.toDev.consume 0x01 p.job
    let out := fun e : Dev => r = .next (withDev s (e.stirXch p.job))
    (s.toDev.jobById p.job = none → out (d.unknownJob q))
      ∧ ∀ j : Nat, s.toDev.jobById p.job = some j →
        let x := s.toDev.job j
        let old := p.step.toNat < x.step.toNat ∨ p.step = x.step ∧ XPkt.attempt p < x.attempt
        let full := s.toDev.isEarly j q = true ∧ earlyCap < s.toDev.earlyUse (XPkt.die q) + 224
        let noCh := x.sender q = .good ∧ ¬ old ∧ s.toDev.noChannel j q = true
        (full → out s.toDev)
          ∧ (¬ full → noCh → out s.toDev)
          ∧ (¬ full → ¬ noCh → x.state = .faulted → (old → out (d.staleOne j)) ∧ (¬ old → out d))
          ∧ (¬ full → ¬ noCh → x.state ≠ .faulted → XPkt.stage p ≤ 4 →
            (x.sender q = .stranger → out (d.badConfig j q))
            ∧ (x.sender q = .await →
              (old → out (d.staleOne j))
              ∧ (¬ old → out (((if q.kind == 1#8 && (x.finishedOf q).isNone then d.entryFor j q else none).getD d).holdPkt q)))
            ∧ (x.sender q = .good →
              (old → out (d.staleOne j))
              ∧ (p.step = x.step → XPkt.attempt p = x.attempt →
                (∀ fin, x.finished.find? (·.bucket == p.bucket) = some fin → out (d.ackAgain j q fin))
                ∧ (x.finished.find? (·.bucket == p.bucket) = none →
                  (XPkt.redo p < d.redoOf j p.bucket → out (d.staleOne j))
                  ∧ (d.redoOf j p.bucket ≤ XPkt.redo p → out (d.placePkt j q))))
              ∧ (p.step = x.step → x.attempt < XPkt.attempt p →
                (q.kind = 2 → out (d.placePkt j q))
                ∧ (q.kind = 1 →
                  let e := d.draw.1.peerAbort j p.step (XPkt.attempt p - 1) (d.draw.2.toNat % 256) (XPkt.rank p)
                  out (if (e.job j).state = .faulted then e else e.placePkt j q)))
              ∧ (x.step.toNat < p.step.toNat → out (d.placePkt j q))))

/-- SEG_ACK ends the segments it names, RESEND sends one again, both from a peer, or in stage 4 from the rank's device, only;
JOB_HELLO with the job's CFG is remembered and with another faults the job; STEP_ABORT and JOB_ABORT abort, RESULT_TALLY is
compared. A STEP_ABORT for a result mismatch from the one rank that this device sent its tally to is recorded here too; where that
rank compared two, a free value says whose differed (the model's choice, assumption 120). A stale STEP_ABORT counts, whatever the
job's state. -/
def Sys2Proof.Machine.Claim.JobPackets : Prop :=
  ∀ (s : State) (p : XPkt) (j : Nat),
    let d := s.toDev.consume 0x01 p.job
    d.jobById p.job = some j →
    let x := d.job j
    let cause := field p.data 0 1
    let rank := field p.data 1 2
    let hit := fun t : SentSeg => t.job == j && t.step == p.step && t.bucket == p.bucket && t.attempt == XPkt.attempt p
      && t.redo == XPkt.redo p && t.dst == XPkt.rank p && t.stage == XPkt.stage p && t.probe == XPkt.probe p
      && t.seg == field p.data 0 4
    let e := d.trace 258 0xFFFF x.ctx.toNat p.step.toNat (XPkt.attempt p * 256 + cause)
    let aborts := fun e : Dev => exec (.stepAbort p) s = .next (withDev s (e.flushEarly p.job).progressAll)
    (x.state ≠ .faulted →
        (x.sender p = .stranger → exec (.segAck p) s = .next (withDev s (d.badConfig j p))
          ∧ exec (.resend p) s = .next (withDev s (d.badConfig j p)))
        ∧ (x.sender p ≠ .stranger →
          exec (.segAck p) s = .next (withDev s
            (({ d with xch := { d.xch with sent := d.xch.sent.filter fun t => !hit t } } : Dev).progressAll))
          ∧ (∀ t : SentSeg, d.xch.sent.find? hit = some t → exec (.resend p) s = .next (withDev s
            ((t.pkts.foldl (fun e q => e.sendXch q.pkt ((e.job t.job).devOf t.dst) q.plane) d).updJob j fun x =>
              { x with resends := x.resends + 1 })))
          ∧ (d.xch.sent.find? hit = none → exec (.resend p) s = .next (withDev s d)))
        ∧ (field p.data 0 4 = x.cfg.toNat → exec (.jobHello p) s
          = .next (withDev s ((d.setJob j { x with hellos := (x.hellos ++ [XPkt.rank p]).dedup }).flushEarly p.job)))
        ∧ (field p.data 0 4 ≠ x.cfg.toNat → exec (.jobHello p) s = .next (withDev s (d.badConfig j p)))
        ∧ (exec (.jobAbort p) s
          = .next (withDev s (d.jobFault j 0x02 false (some (cause, rank))).progressAll))
        ∧ (p.step = x.step → XPkt.attempt p = x.attempt → exec (.resultTally p) s = .next (withDev s
          ((((d.setJob j { x with results := x.results ++ [(p.bucket, XPkt.rank p, BitVec.ofNat 64 (field p.data 0 8),
            field p.data 8 1 != 0)] }).compareTallies j p.bucket).commitLoop j).stirXch p.job))))
      ∧ (p.step = x.step → XPkt.attempt p = x.attempt → (x.state = .open ∨ x.state = .overdue) →
        (cause ≠ 3 ∨ rank ∉ x.tallyTo → aborts (e.abortStep j x.attempt cause rank))
        ∧ (cause = 3 → rank ∈ x.tallyTo → (x.s ≤ 1 ∨ x.nboard ≤ 1) →
          aborts ((e.toldMismatch j rank).abortStep j x.attempt 3 rank)))
      ∧ (p.step.toNat < x.step.toNat ∨ p.step = x.step ∧ XPkt.attempt p < x.attempt →
        (x.state = .faulted → exec (.stepAbort p) s = .next (withDev s (e.staleOne j).progressAll))
        ∧ (x.state ≠ .faulted → aborts (e.staleOne j)))

/-! ### Reset, encodings and invariants -/

/-- The machine right after reset: held in a level 5 reset with PERST_N low, no command waiting, no frame in service,
no port ready, every semaphore zero, the caps at their full levels, and the power cap and throttle temperature that
R464 and R465 give. Registers for which the manual gives no value are zero (the model's choice, assumption 4). -/
def Sys2Proof.Machine.Claim.ResetValues : Prop :=
  let s := State.reset
  s.pending = [] ∧ s.sec.phase = .reset ∧ s.dbg.perst = true ∧ s.dbg.level = 5 ∧ s.toDev.up = false
    ∧ s.pwr.watts = 1800 ∧ s.pwr.tThrottle = 95 ∧ s.tly.dram = [] ∧ s.mkt.sems = [] ∧ s.mkt.ctxs = [] ∧ s.hif.queues = []
    ∧ s.lnk.reqs = [] ∧ s.wag.valid = false ∧ s.out = []
    ∧ (∀ f : FrameId, (s.frame f).svc.insvc = false ∧ (s.frame f).state = .idle
      ∧ (s.frame f).regs.s = Vector.replicate 64 0)
    ∧ (∀ p : Port, (s.toDev.port p).state = .offline) ∧ (∀ j : Nat, (s.toDev.job j).state = .free)
    ∧ (∀ i : Fin 16, (s.pwr.dies[i]).cap = 8)

/-- After reset memory is in its canonical form and every byte of it, in DRAM, comb stores and local stores, reads as zero and
without poison (the model's choice, assumption 5). -/
def Sys2Proof.Machine.Claim.ResetMemory : Prop :=
  State.reset.mem.wf = true ∧ ∀ pa : Nat,
    State.reset.mem.byte pa = 0 ∧ State.reset.mem.poisonedAt pa = false

/-- Words written out from the encodings of R137 decode to what they stand for: the example of the matrix section, and one
word of each class. -/
def Obligations.WordsDecode : Prop :=
  decodeInsn 0x202061C500000032 = some (.mmaF, { dst := 8, a := 6, b := 7, c := 5, mod := 0x32 })
    ∧ decodeInsn 0x010C108000000000 = some (.add, { dst := 3, a := 1, b := 2 })
    ∧ decodeInsn 0x18000000FFFFFFFE = some (.b, { mod := 0xFFFFFFFE })
    ∧ decodeInsn 0x4308208400000000 = some (.vfma, { dst := 2, a := 2, b := 2, c := 4 })
    ∧ decodeInsn 0x6010500000000000 = some (.mov, { dst := 4, a := 5 })
    ∧ decodeInsn 0x8124609300000000 = some (.cvtg, { dst := 9, a := 6, b := 2, c := 19 })
    ∧ decodeInsn 0xA000A00000000041 = some (.tyinit, { a := 10, mod := 0x41 })
    ∧ decodeInsn 0xC00C000000000010 = some (.waitAc, { dst := 3, mod := 16 })
    ∧ decodeInsn 0xE0FC000000000000 = some (.li64, { dst := 63 })
    ∧ decodeInsn 0xC700000000000000 = none ∧ decodeInsn 0x1600000000000000 = none

/-- Decoding the word that spells an instruction gives back the operation and every field. -/
def Obligations.WordRoundTrip : Prop :=
  ∀ (op : Op) (x : Insn), decodeInsn (insnWord op x) = some (op, x)

/-- A flit put on a link is 256 bytes that carry a good CRC and the count, are not malformed, and read back as the
flit, what stands past its payload's end with it. -/
def Obligations.FlitRoundTrip : Prop :=
  ∀ (fl : Flit) (seq : BitVec 32), fl.payload.length ≤ 240 → fl.plane = none → fl.stamp = 0 → fl.cls ≠ 3 →
    (fl.pad = [] ∨ fl.payload.length + fl.pad.length = 240 ∧ allZero fl.pad = false) →
    (fl.bytes seq).length = 256 ∧ Flit.ofBytes (fl.bytes seq) = fl ∧ malformedFlit seq (fl.bytes seq) = false
      ∧ field (fl.bytes seq) 252 4 = flitCrc seq ((fl.bytes seq).take 252)

/-- Every command, and every step, keeps the canonical form of memory and the order of the context table; both hold at reset. -/
def Obligations.MemoryFormKept : Prop :=
  let inv := fun s : State => s.mem.wf = true ∧ SMap.rising s.mkt.ctxs = true
  inv State.reset ∧ (∀ (c : Instr) (s t : State), inv s → exec c s = .next t → inv t)
    ∧ ∀ s t : State, inv s → step s = .next t → inv t

/-- An instruction that only computes leaves every byte of memory, every other frame and the rest of the device alone,
whatever it does: issue, hold or fault. -/
def Sys2Proof.Machine.Claim.ComputesInFrame : Prop :=
  ∀ (s t : State) (f : FrameId) (op : Op) (x : Insn) (imm : Word),
    op ∈ [Op.nop, .add, .sub, .mul, .andS, .orS, .xorS, .shl, .shr, .sra, .addi, .andi, .shli, .shri, .cmp, .cmpi, .amov
      , .aadd, .smova, .kand, .kor, .knot, .b, .bz, .bnz, .bk, .br, .li64, .ai64, .twr, .trd, .taddb, .text, .waitAc, .waitMc
      , .waitAcr, .waitMcr, .waitAll] →
    exec (insnCommand f op x imm) s = .next t →
    ∃ fr : Frame, t = withDev s (s.toDev.setFrame f fr) ∧ (s.frame f).mmaQ.length ≥ fr.mmaQ.length
      ∧ fr.geom = (s.frame f).geom ∧ fr.svc = (s.frame f).svc ∧ fr.moves = (s.frame f).moves
      ∧ fr.task = (s.frame f).task ∧ fr.eff = (s.frame f).eff ∧ fr.chans = (s.frame f).chans

/-- An instruction of the scalar and branch class, or a two-word form, changes no s register but its destination. -/
def Sys2Proof.Machine.Claim.OneRegisterWritten : Prop :=
  ∀ (s t : State) (f : FrameId) (op : Op) (x : Insn) (imm : Word) (i : Fin 64),
    op ∈ [Op.nop, .add, .sub, .mul, .andS, .orS, .xorS, .shl, .shr, .sra, .addi, .andi, .shli, .shri, .cmp, .cmpi, .amov
      , .aadd, .smova, .kand, .kor, .knot, .b, .bz, .bnz, .bk, .br, .li64, .ai64] →
    exec (insnCommand f op x imm) s = .next t → i.val ≠ x.dst.toNat →
    (t.frame f).regs.s[i] = (s.frame f).regs.s[i]

/-- The commands that wait stay well formed from step to step, and none waits at reset. -/
def Obligations.QueueStaysFormed : Prop :=
  State.reset.pending.all Instr.wellFormed = true
    ∧ ∀ s t : State, s.pending.all Instr.wellFormed = true → step s = .next t →
      t.pending.all Instr.wellFormed = true ∧ t.pending = s.pending.tail

/-! ### Numbers (R30, R42, R50–R53, R59, R167, R175) -/

/-- The real value of a finite number. -/
def Sys2Proof.Machine.Claim.val : Num → ℚ
  | .fin s m e => (if s = true then -1 else 1) * (m : ℚ) * (2 : ℚ) ^ e
  | _ => 0

/-- A number that is neither a NaN nor an infinity. -/
def Sys2Proof.Machine.Claim.finite : Num → Prop
  | .fin _ _ _ => True
  | _ => False

/-- Encoding into a float format: the nearest of its values, subnormals included, on a tie the one with an even code; beyond the
largest finite one an infinity with OVF_INF, or the largest finite one with SAT where the format has no infinity; zeros keep their
sign, but for F6; NaN and infinities as R52's table gives them (R30, R52). -/
def Sys2Proof.Machine.Claim.FloatsRound : Prop :=
  ∀ (f : Fmt) (signed : Bool), f.isFloat = true →
    let num := fun c : Nat => (f.decode false c).1
    let top := val (num f.maxCode)
    let ulp := top - val (num (f.maxCode - 1))
    (∀ (s : Bool) (m : Nat) (e : Int),
        let v := val (.fin s m e)
        let c := f.encode signed (.fin s m e)
        let over_ := top + ulp / 2 < |v| ∨ |v| = top + ulp / 2 ∧ f.maxCode % 2 = 1
        (¬ over_ → c.2 = 0 ∧ finite (num c.1) ∧ c.1 < 2 ^ f.width
            ∧ (∀ b, b < 2 ^ f.width → finite (num b) → |val (num c.1) - v| ≤ |val (num b) - v|
              ∧ (|val (num c.1) - v| = |val (num b) - v| → val (num b) ≠ val (num c.1) → c.1 % 2 = 0))
            ∧ (val (num c.1) = 0 → ∃ e', num c.1 = .fin (s && f != .f6) 0 e'))
          ∧ (over_ → (f.wide = true → num c.1 = .inf s ∧ c.2 = flOvfInf)
            ∧ (f.wide = false → val (num c.1) = (if s = true then -top else top) ∧ c.2 = flSat)))
      ∧ (∀ s : Bool, let c := f.encode signed (.inf s)
        (f.wide = true → num c.1 = .inf s ∧ c.2 = 0)
          ∧ (f.wide = false → val (num c.1) = (if s = true then -top else top) ∧ c.2 = flInfSat))
      ∧ (f ≠ .f4 → f.encode signed .nan = (f.nanCode, 0) ∧ num f.nanCode = .nan)
      ∧ (f = .f4 → f.encode signed .nan = (0, flNanZero))

/-- Encoding into an integer format: the nearest integer, the even one of two, and the nearer end of the range with SAT beyond it;
an infinity likewise with INF_SAT, and a NaN as 0 with NAN_ZERO (R30, R52). -/
def Sys2Proof.Machine.Claim.IntegersRound : Prop :=
  ∀ (f : Fmt) (signed : Bool), f.isInt = true →
    let hi : Int := if f = .t2 then 1 else if signed = true then 2 ^ (f.bits - 1) - 1 else 2 ^ f.bits - 1
    let lo : Int := if f = .t2 then -1 else if signed = true then -(2 ^ (f.bits - 1)) else 0
    let num := fun c : Nat => (f.decode signed c).1
    (∀ (s : Bool) (m : Nat) (e : Int),
        let v := val (.fin s m e)
        let c := f.encode signed (.fin s m e)
        ∃ n : Int, |v - n| ≤ 1 / 2 ∧ (|v - n| = 1 / 2 → n % 2 = 0)
          ∧ (lo ≤ n → n ≤ hi → num c.1 = Num.ofInt n ∧ c.2 = 0)
          ∧ (hi < n → num c.1 = Num.ofInt hi ∧ c.2 = flSat) ∧ (n < lo → num c.1 = Num.ofInt lo ∧ c.2 = flSat))
      ∧ (∀ s : Bool, let c := f.encode signed (.inf s)
        num c.1 = Num.ofInt (if s = true then lo else hi) ∧ c.2 = flInfSat)
      ∧ f.encode signed .nan = (0, flNanZero)

/-- Sums and products of finite numbers are exact before they are rounded; zeros have the sign of R42, and NaN and infinities
follow R50. -/
def Sys2Proof.Machine.Claim.ArithmeticExact : Prop :=
  ∀ a b : Num,
    (finite a → finite b →
        finite (a.add b) ∧ val (a.add b) = val a + val b ∧ finite (a.sub b) ∧ val (a.sub b) = val a - val b
          ∧ finite (a.mul b) ∧ val (a.mul b) = val a * val b)
      ∧ (∀ (s t : Bool) (m n : Nat) (e g : Int), a = .fin s m e → b = .fin t n g →
        (val a + val b = 0 → (0 < m ∨ s ≠ t) → ∃ h, a.add b = .fin false 0 h)
          ∧ (m * n = 0 → ∃ h, a.mul b = .fin (s != t) 0 h))
      ∧ (a = .nan ∨ b = .nan → a.add b = .nan ∧ a.mul b = .nan)
      ∧ (∀ s t : Bool, a = .inf s → b = .inf t → a.add b = (if s = t then .inf s else .nan) ∧ a.mul b = .inf (s != t))
      ∧ (∀ (s t : Bool) (n : Nat) (g : Int), a = .inf s → b = .fin t n g →
        a.add b = .inf s ∧ b.add a = .inf s ∧ a.mul b = (if n = 0 then .nan else .inf (s != t))
          ∧ b.mul a = (if n = 0 then .nan else .inf (s != t)))

/-- VADD, VSUB, VMUL and CVT of one element write the rounding of the exact sum, difference, product or value, in float and integer
formats, raise the flags of that rounding and change no other byte of memory (R51, R167, R175). -/
def Sys2Proof.Machine.Claim.OneElement : Prop :=
  ∀ (s : State) (f : FrameId) (j : VecJob) (js : List VecJob) (a b dst : Tensor),
    let ts := if j.op = .cvt then [a, dst] else [a, b, dst]
    let at_ := fun t : Tensor => lsAddr f t.base
    let size := fun t : Tensor => t.fmt.bits / 8
    let get := fun t : Tensor => (t.fmt.decode t.signed (unle (s.toDev.read (at_ t) (size t)))).1
    let floats := [Fmt.f8a, .f8b, .f16, .f24, .f32]
    let ints := [Fmt.q8, .q16, .q32]
    (s.frame f).vecQ = j :: js → (s.frame f).killing = false → (s.frame f).preempt = false → j.a = a → j.dst = some dst →
    j.pred = BitVec.allOnes 256 →
    (∀ t ∈ ts, t.e0 = 1 ∧ t.e1 = 1 ∧ t.e2 = 1 ∧ t.e3 = 1 ∧ t.scaled = false ∧ t.space = false) →
    (∀ t ∈ ts, ∀ i < size t, s.mem.poisonedAt (at_ t + i) = false) → (∀ i < size dst, s.mem.isRetired (at_ dst + i) = false) →
    (j.op = .cvt ∧ (∀ t ∈ ts, t.fmt ∈ floats ++ ints) ∧ finite (get a)
      ∨ j.op ∈ [Op.vadd, .vsub, .vmul] ∧ j.b = some b ∧ ((∀ t ∈ ts, t.fmt ∈ [Fmt.f16, .f24, .f32]) ∨ ∀ t ∈ ts, t.fmt ∈ ints)
        ∧ finite (get a) ∧ finite (get b)) →
    ∃ (t : State) (r : Num), exec (.vectorComplete f) s = .next t ∧ finite r
      ∧ (val r = if j.op = .cvt then val (get a) else if j.op = .vadd then val (get a) + val (get b)
          else if j.op = .vsub then val (get a) - val (get b) else val (get a) * val (get b))
      ∧ t.toDev.read (at_ dst) (size dst) = le (size dst) (dst.fmt.encode dst.signed r).1
      ∧ (t.frame f).fmtFlags = (s.frame f).fmtFlags ||| (dst.fmt.encode dst.signed r).2
      ∧ ∀ pa : Nat, (∀ i < size dst, pa ≠ at_ dst + i) → t.mem.byte pa = s.mem.byte pa

/-- The tile sum of integer operands is the exact sum of the products of the operands' values, whatever limbs the array forms it
from (R56, R59, R63). -/
def Sys2Proof.Machine.Claim.IntegerTileSum : Prop :=
  ∀ (j : MmaJob) (fa fw : Fmt) (sa sw : Bool) (acts : Nat → Nat) (ws : Nat → Nat → Nat) (pa : Nat → Bool) (pw : Nat → Nat → Bool)
    (va : Nat → Int) (vw : Nat → Nat → Int) (scales : List Byte) (c : Nat),
    j.int = true → c < j.n → fa ∈ [Fmt.t2, .q4, .q8, .q16] → fw ∈ [Fmt.t2, .q4, .q8, .q16] →
    (∀ k < j.k, (fa.decode sa (acts k)).1 = Num.ofInt (va k) ∧ (fw.decode sw (ws k c)).1 = Num.ofInt (vw k c)) →
    (∀ k < j.k, j.cells.get? (cellKey j.shape j.group k c) = some (limbsOf fw sw (ws k c) (pw k c)).1) →
    ((j.sums ((List.range j.k).map fun k => (limbsOf fa sa (acts k) (pa k)).1) scales)[c]?).map (·.v)
      = some (Num.ofInt ((List.range j.k).map fun k => va k * vw k c).sum)

/-! ### The statements made of several clauses -/

/-- ADD to SRA and the immediate forms write their destination and nothing else (R151). -/
def Obligations.ScalarArithmetic : Prop :=
  Claim.ScalarThreeRegister ∧ Claim.ScalarImmediate

/-- Scalar compares write every lane by the codes of R152, and BK tests any or all lanes (R111). -/
def Obligations.ScalarPredicates : Prop :=
  Claim.Comparisons ∧ Claim.BranchOnPredicate

/-- Moves between registers, two-word forms and predicate logic (R151, R154). -/
def Obligations.RegisterMoves : Prop :=
  Claim.AddressRegisters ∧ Claim.TwoWordForms ∧ Claim.PredicateLogic

/-- A branch goes where it says whatever is granted there; a misaligned target of BR faults at the branch, an
ungranted one at its fetch (R153). -/
def Obligations.BranchTargets : Prop :=
  Claim.Branches ∧ Claim.BranchOnPredicate ∧ Claim.BranchRegisterMisaligned ∧ Claim.FetchOutsideEffects

/-- Waits issue once satisfied, hold until then, and are released (R131, R186). -/
def Obligations.Waits : Prop :=
  Claim.CounterWaits ∧ Claim.WaitAll ∧ Claim.HoldRelease

/-- The tally instructions (R183, R184). -/
def Obligations.TallyInstructions : Prop :=
  Claim.TallyChannels ∧ Claim.TallyData

/-- TWR, TRD, TADDB and TEXT, with valid and invalid t registers (R178, R179). -/
def Obligations.DescriptorInstructions : Prop :=
  Claim.DescriptorRegisters ∧ Claim.InvalidDescriptorRegister

/-- Sequencer loads (R178, R180). -/
def Obligations.Loads : Prop :=
  Claim.LocalLoads ∧ Claim.VirtualLoads

/-- Sequencer stores (R178, R180). -/
def Obligations.Stores : Prop :=
  Claim.LocalStore ∧ Claim.VirtualStores

/-- How loads and stores end, with data or with an error (R135, R150, R180). -/
def Obligations.AccessesEnd : Prop :=
  Claim.LoadsAndStoresEnd ∧ Claim.AccessErrors

/-- MOV and its lines (R127–R130). -/
def Obligations.Moves : Prop :=
  Claim.MoveIssues ∧ Claim.MoveLineLands ∧ Claim.MoveAcknowledged

/-- Weight planes and the completion of a matrix instruction (R66–R68, R163). -/
def Obligations.MatrixProgress : Prop :=
  Claim.WeightPlanes ∧ Claim.MatrixCompletes

/-- DONE, BELL and the end of a task (R133, R134, R187, R188, R237). -/
def Obligations.TasksEnd : Prop :=
  Claim.DoneEnds ∧ Claim.BellRings ∧ Claim.TaskEnds

/-- The activity ramp and FRM_CTRL (R94, R95, R145). -/
def Obligations.RampAndControl : Prop :=
  Claim.RampRises ∧ Claim.RampFalls ∧ Claim.FrameControl

/-- Guard runs, their verdicts, and flagged frames (R422–R426, R430). -/
def Obligations.GuardWork : Prop :=
  Claim.GuardRunsStart ∧ Claim.GuardVerdicts ∧ Claim.GuardWaitExpires ∧ Claim.FlaggedFrameLeaves

/-- A frame takes a task (R240, R252, R506). -/
def Obligations.Takes : Prop :=
  Claim.TakeIsRequested ∧ Claim.TakeIsGranted ∧ Claim.DispatchRefused ∧ Claim.TakeCompletes ∧ Claim.TakeReadsEffects

/-- Successors, semaphores, watchers and hangs (R238, R244, R245, R292). -/
def Obligations.GraphProgress : Prop :=
  Claim.Decrements ∧ Claim.SemaphoreUpdates ∧ Claim.WatcherFires ∧ Claim.HungGraph

/-- Binding, unbinding and stalls (R253, R254). -/
def Obligations.ContextsScheduled : Prop :=
  Claim.BindAndUnbind ∧ Claim.PreemptWaitExpires ∧ Claim.StallsReallocated

/-- Saves, restores, destruction and stall resets (R249, R260–R265, R472–R474). -/
def Obligations.ContextsSaved : Prop :=
  Claim.SaveCompletes ∧ Claim.RestoreCompletes ∧ Claim.ContextIsGone ∧ Claim.StallResets

/-- Doorbells, fetches and entries that start at once (R278–R285). -/
def Obligations.QueuesFetch : Prop :=
  Claim.Doorbells ∧ Claim.EntryFetched ∧ Claim.EntriesStart

/-- Launches, signals and barrier entries (R234, R281, R399). -/
def Obligations.EntriesRun : Prop :=
  Claim.Launches ∧ Claim.BatchRegisters ∧ Claim.SignalSets ∧ Claim.BarrierEntryArrives

/-- Completion records, rings and failed host reads (R288–R290, R297). -/
def Obligations.Completions : Prop :=
  Claim.EntryCompletes ∧ Claim.CompletionRings ∧ Claim.HostReadFails

/-- CTX_CTRL on contexts (R250, R251, R286, R301). -/
def Obligations.ContextControl : Prop :=
  Claim.CreatesContext ∧ Claim.ContextOperations

/-- CTX_CTRL on queues and rings (R286, R294, R295). -/
def Obligations.QueueControl : Prop :=
  Claim.QueueOperations ∧ Claim.QueueEnds

/-- Invalidations, scans and host accesses (R207, R274, R275, R415, R505). -/
def Obligations.HostCommands : Prop :=
  Claim.InvalidatesAndScans ∧ Claim.HostAccesses

/-- Resets that keep DRAM, and the restart of cores (R443, R473, R476, R484). -/
def Obligations.WarmReset : Prop :=
  Claim.WarmResets ∧ Claim.WarmResetKeeps

/-- What the firmware sends by itself, and the wall clock (R435, R451–R456). -/
def Obligations.FirmwareReports : Prop :=
  Claim.Reports ∧ Claim.WallClock

/-- Link-control flits, lanes, flit slots and routes (R356–R360, R370–R378). -/
def Obligations.PortTraffic : Prop :=
  Claim.LinkMessages ∧ Claim.FlitSlots

/-- Bells and class B accesses of other devices (R210, R354). -/
def Obligations.RemoteRequests : Prop :=
  Claim.RemoteBells ∧ Claim.RemoteAccesses

/-- Waggle exchanges, timed events and barrier messages (R386–R405). -/
def Obligations.TimeAndBarriers : Prop :=
  Claim.WaggleExchanges ∧ Claim.TimedEvents ∧ Claim.BarrierMessages

/-- The scrubber and the outer code (R212–R226). -/
def Obligations.MemoryScrubbed : Prop :=
  Claim.Scrubs ∧ Claim.SingleBitsCorrected

/-- Collectives are fetched and start (R310–R314). -/
def Obligations.Collectives : Prop :=
  Claim.CollectivesStart ∧ Claim.CollectivesWait

/-- Collectives end, or time out (R315, R336, R341). -/
def Obligations.CollectiveResults : Prop :=
  Claim.CollectivesEnd ∧ Claim.CollectiveTimeouts

/-- Packets of the Exchange (R307–R309, R318–R320, R336–R345). -/
def Obligations.ExchangePackets : Prop :=
  Claim.PacketsPlaced ∧ Claim.JobPackets

/-- The state and the memory right after reset (assumptions 3, 4 and 5). -/
def Obligations.ResetState : Prop :=
  Claim.ResetValues ∧ Claim.ResetMemory

/-- What an instruction that only computes leaves alone. -/
def Obligations.InstructionFrames : Prop :=
  Claim.ComputesInFrame ∧ Claim.OneRegisterWritten


/-- What conversions, sums and products give, by their real values (R30, R42, R50–R53, R59, R63, R167, R175). -/
def Obligations.ArithmeticResults : Prop :=
  Claim.FloatsRound ∧ Claim.IntegersRound ∧ Claim.ArithmeticExact ∧ Claim.OneElement ∧ Claim.IntegerTileSum

end
end

