-- ==== Sys2Proof/Laws/State.lean ====
section
/-! SUPPORT. What each update of the device leaves alone, field by field, and what reads of the updated part
give: the lemmas that spare later proofs the unfolding of a record update. -/

namespace Sys2Proof.Machine

@[simp] theorem Dev.setFrame_mem (d : Dev) (f : FrameId) (x : Frame) : (d.setFrame f x).mem = d.mem := rfl
@[simp] theorem Dev.setFrame_insvc (d : Dev) (f : FrameId) (x : Frame) : (d.setFrame f x).insvc = d.insvc := rfl
@[simp] theorem Dev.setFrame_mkt (d : Dev) (f : FrameId) (x : Frame) : (d.setFrame f x).mkt = d.mkt := rfl
@[simp] theorem Dev.setFrame_hif (d : Dev) (f : FrameId) (x : Frame) : (d.setFrame f x).hif = d.hif := rfl
@[simp] theorem Dev.setFrame_xch (d : Dev) (f : FrameId) (x : Frame) : (d.setFrame f x).xch = d.xch := rfl
@[simp] theorem Dev.setFrame_lnk (d : Dev) (f : FrameId) (x : Frame) : (d.setFrame f x).lnk = d.lnk := rfl
@[simp] theorem Dev.setFrame_wag (d : Dev) (f : FrameId) (x : Frame) : (d.setFrame f x).wag = d.wag := rfl
@[simp] theorem Dev.setFrame_tly (d : Dev) (f : FrameId) (x : Frame) : (d.setFrame f x).tly = d.tly := rfl
@[simp] theorem Dev.setFrame_grd (d : Dev) (f : FrameId) (x : Frame) : (d.setFrame f x).grd = d.grd := rfl
@[simp] theorem Dev.setFrame_pwr (d : Dev) (f : FrameId) (x : Frame) : (d.setFrame f x).pwr = d.pwr := rfl
@[simp] theorem Dev.setFrame_sec (d : Dev) (f : FrameId) (x : Frame) : (d.setFrame f x).sec = d.sec := rfl
@[simp] theorem Dev.setFrame_dbg (d : Dev) (f : FrameId) (x : Frame) : (d.setFrame f x).dbg = d.dbg := rfl
@[simp] theorem Dev.setFrame_out (d : Dev) (f : FrameId) (x : Frame) : (d.setFrame f x).out = d.out := rfl
@[simp] theorem Dev.setFrame_fresh (d : Dev) (f : FrameId) (x : Frame) : (d.setFrame f x).fresh = d.fresh := rfl
@[simp] theorem Dev.setFrame_ns (d : Dev) (f : FrameId) (x : Frame) : (d.setFrame f x).ns = d.ns := rfl
@[simp] theorem Dev.setFrame_hostRead (d : Dev) (f : FrameId) (x : Frame) : (d.setFrame f x).hostRead = d.hostRead := rfl

@[simp] theorem Dev.setCtx_mem (d : Dev) (c : BitVec 12) (x : Ctx) : (d.setCtx c x).mem = d.mem := rfl
@[simp] theorem Dev.setCtx_fr (d : Dev) (c : BitVec 12) (x : Ctx) : (d.setCtx c x).fr = d.fr := rfl
@[simp] theorem Dev.setCtx_insvc (d : Dev) (c : BitVec 12) (x : Ctx) : (d.setCtx c x).insvc = d.insvc := rfl
@[simp] theorem Dev.setCtx_hif (d : Dev) (c : BitVec 12) (x : Ctx) : (d.setCtx c x).hif = d.hif := rfl
@[simp] theorem Dev.setCtx_xch (d : Dev) (c : BitVec 12) (x : Ctx) : (d.setCtx c x).xch = d.xch := rfl
@[simp] theorem Dev.setCtx_lnk (d : Dev) (c : BitVec 12) (x : Ctx) : (d.setCtx c x).lnk = d.lnk := rfl
@[simp] theorem Dev.setCtx_wag (d : Dev) (c : BitVec 12) (x : Ctx) : (d.setCtx c x).wag = d.wag := rfl
@[simp] theorem Dev.setCtx_tly (d : Dev) (c : BitVec 12) (x : Ctx) : (d.setCtx c x).tly = d.tly := rfl
@[simp] theorem Dev.setCtx_grd (d : Dev) (c : BitVec 12) (x : Ctx) : (d.setCtx c x).grd = d.grd := rfl
@[simp] theorem Dev.setCtx_pwr (d : Dev) (c : BitVec 12) (x : Ctx) : (d.setCtx c x).pwr = d.pwr := rfl
@[simp] theorem Dev.setCtx_sec (d : Dev) (c : BitVec 12) (x : Ctx) : (d.setCtx c x).sec = d.sec := rfl
@[simp] theorem Dev.setCtx_dbg (d : Dev) (c : BitVec 12) (x : Ctx) : (d.setCtx c x).dbg = d.dbg := rfl
@[simp] theorem Dev.setCtx_out (d : Dev) (c : BitVec 12) (x : Ctx) : (d.setCtx c x).out = d.out := rfl
@[simp] theorem Dev.setCtx_fresh (d : Dev) (c : BitVec 12) (x : Ctx) : (d.setCtx c x).fresh = d.fresh := rfl
@[simp] theorem Dev.setCtx_ns (d : Dev) (c : BitVec 12) (x : Ctx) : (d.setCtx c x).ns = d.ns := rfl
@[simp] theorem Dev.setCtx_hostRead (d : Dev) (c : BitVec 12) (x : Ctx) : (d.setCtx c x).hostRead = d.hostRead := rfl

@[simp] theorem Dev.setQueue_mem (d : Dev) (q : Nat) (x : QRec) : (d.setQueue q x).mem = d.mem := rfl
@[simp] theorem Dev.setQueue_fr (d : Dev) (q : Nat) (x : QRec) : (d.setQueue q x).fr = d.fr := rfl
@[simp] theorem Dev.setQueue_insvc (d : Dev) (q : Nat) (x : QRec) : (d.setQueue q x).insvc = d.insvc := rfl
@[simp] theorem Dev.setQueue_mkt (d : Dev) (q : Nat) (x : QRec) : (d.setQueue q x).mkt = d.mkt := rfl
@[simp] theorem Dev.setQueue_xch (d : Dev) (q : Nat) (x : QRec) : (d.setQueue q x).xch = d.xch := rfl
@[simp] theorem Dev.setQueue_lnk (d : Dev) (q : Nat) (x : QRec) : (d.setQueue q x).lnk = d.lnk := rfl
@[simp] theorem Dev.setQueue_wag (d : Dev) (q : Nat) (x : QRec) : (d.setQueue q x).wag = d.wag := rfl
@[simp] theorem Dev.setQueue_tly (d : Dev) (q : Nat) (x : QRec) : (d.setQueue q x).tly = d.tly := rfl
@[simp] theorem Dev.setQueue_grd (d : Dev) (q : Nat) (x : QRec) : (d.setQueue q x).grd = d.grd := rfl
@[simp] theorem Dev.setQueue_pwr (d : Dev) (q : Nat) (x : QRec) : (d.setQueue q x).pwr = d.pwr := rfl
@[simp] theorem Dev.setQueue_sec (d : Dev) (q : Nat) (x : QRec) : (d.setQueue q x).sec = d.sec := rfl
@[simp] theorem Dev.setQueue_dbg (d : Dev) (q : Nat) (x : QRec) : (d.setQueue q x).dbg = d.dbg := rfl
@[simp] theorem Dev.setQueue_out (d : Dev) (q : Nat) (x : QRec) : (d.setQueue q x).out = d.out := rfl
@[simp] theorem Dev.setQueue_fresh (d : Dev) (q : Nat) (x : QRec) : (d.setQueue q x).fresh = d.fresh := rfl
@[simp] theorem Dev.setQueue_ns (d : Dev) (q : Nat) (x : QRec) : (d.setQueue q x).ns = d.ns := rfl
@[simp] theorem Dev.setQueue_hostRead (d : Dev) (q : Nat) (x : QRec) : (d.setQueue q x).hostRead = d.hostRead := rfl

@[simp] theorem Dev.setCring_mem (d : Dev) (r : Nat) (x : CRing) : (d.setCring r x).mem = d.mem := rfl
@[simp] theorem Dev.setCring_fr (d : Dev) (r : Nat) (x : CRing) : (d.setCring r x).fr = d.fr := rfl
@[simp] theorem Dev.setCring_insvc (d : Dev) (r : Nat) (x : CRing) : (d.setCring r x).insvc = d.insvc := rfl
@[simp] theorem Dev.setCring_mkt (d : Dev) (r : Nat) (x : CRing) : (d.setCring r x).mkt = d.mkt := rfl
@[simp] theorem Dev.setCring_xch (d : Dev) (r : Nat) (x : CRing) : (d.setCring r x).xch = d.xch := rfl
@[simp] theorem Dev.setCring_lnk (d : Dev) (r : Nat) (x : CRing) : (d.setCring r x).lnk = d.lnk := rfl
@[simp] theorem Dev.setCring_wag (d : Dev) (r : Nat) (x : CRing) : (d.setCring r x).wag = d.wag := rfl
@[simp] theorem Dev.setCring_tly (d : Dev) (r : Nat) (x : CRing) : (d.setCring r x).tly = d.tly := rfl
@[simp] theorem Dev.setCring_grd (d : Dev) (r : Nat) (x : CRing) : (d.setCring r x).grd = d.grd := rfl
@[simp] theorem Dev.setCring_pwr (d : Dev) (r : Nat) (x : CRing) : (d.setCring r x).pwr = d.pwr := rfl
@[simp] theorem Dev.setCring_sec (d : Dev) (r : Nat) (x : CRing) : (d.setCring r x).sec = d.sec := rfl
@[simp] theorem Dev.setCring_dbg (d : Dev) (r : Nat) (x : CRing) : (d.setCring r x).dbg = d.dbg := rfl
@[simp] theorem Dev.setCring_out (d : Dev) (r : Nat) (x : CRing) : (d.setCring r x).out = d.out := rfl
@[simp] theorem Dev.setCring_fresh (d : Dev) (r : Nat) (x : CRing) : (d.setCring r x).fresh = d.fresh := rfl
@[simp] theorem Dev.setCring_ns (d : Dev) (r : Nat) (x : CRing) : (d.setCring r x).ns = d.ns := rfl
@[simp] theorem Dev.setCring_hostRead (d : Dev) (r : Nat) (x : CRing) : (d.setCring r x).hostRead = d.hostRead := rfl

@[simp] theorem Dev.setPort_mem (d : Dev) (p : Port) (x : LPort) : (d.setPort p x).mem = d.mem := rfl
@[simp] theorem Dev.setPort_fr (d : Dev) (p : Port) (x : LPort) : (d.setPort p x).fr = d.fr := rfl
@[simp] theorem Dev.setPort_insvc (d : Dev) (p : Port) (x : LPort) : (d.setPort p x).insvc = d.insvc := rfl
@[simp] theorem Dev.setPort_mkt (d : Dev) (p : Port) (x : LPort) : (d.setPort p x).mkt = d.mkt := rfl
@[simp] theorem Dev.setPort_hif (d : Dev) (p : Port) (x : LPort) : (d.setPort p x).hif = d.hif := rfl
@[simp] theorem Dev.setPort_xch (d : Dev) (p : Port) (x : LPort) : (d.setPort p x).xch = d.xch := rfl
@[simp] theorem Dev.setPort_wag (d : Dev) (p : Port) (x : LPort) : (d.setPort p x).wag = d.wag := rfl
@[simp] theorem Dev.setPort_tly (d : Dev) (p : Port) (x : LPort) : (d.setPort p x).tly = d.tly := rfl
@[simp] theorem Dev.setPort_grd (d : Dev) (p : Port) (x : LPort) : (d.setPort p x).grd = d.grd := rfl
@[simp] theorem Dev.setPort_pwr (d : Dev) (p : Port) (x : LPort) : (d.setPort p x).pwr = d.pwr := rfl
@[simp] theorem Dev.setPort_sec (d : Dev) (p : Port) (x : LPort) : (d.setPort p x).sec = d.sec := rfl
@[simp] theorem Dev.setPort_dbg (d : Dev) (p : Port) (x : LPort) : (d.setPort p x).dbg = d.dbg := rfl
@[simp] theorem Dev.setPort_out (d : Dev) (p : Port) (x : LPort) : (d.setPort p x).out = d.out := rfl
@[simp] theorem Dev.setPort_fresh (d : Dev) (p : Port) (x : LPort) : (d.setPort p x).fresh = d.fresh := rfl
@[simp] theorem Dev.setPort_ns (d : Dev) (p : Port) (x : LPort) : (d.setPort p x).ns = d.ns := rfl
@[simp] theorem Dev.setPort_hostRead (d : Dev) (p : Port) (x : LPort) : (d.setPort p x).hostRead = d.hostRead := rfl

@[simp] theorem Dev.setGroup_mem (d : Dev) (g : Nat) (x : Group) : (d.setGroup g x).mem = d.mem := rfl
@[simp] theorem Dev.setGroup_fr (d : Dev) (g : Nat) (x : Group) : (d.setGroup g x).fr = d.fr := rfl
@[simp] theorem Dev.setGroup_insvc (d : Dev) (g : Nat) (x : Group) : (d.setGroup g x).insvc = d.insvc := rfl
@[simp] theorem Dev.setGroup_mkt (d : Dev) (g : Nat) (x : Group) : (d.setGroup g x).mkt = d.mkt := rfl
@[simp] theorem Dev.setGroup_hif (d : Dev) (g : Nat) (x : Group) : (d.setGroup g x).hif = d.hif := rfl
@[simp] theorem Dev.setGroup_xch (d : Dev) (g : Nat) (x : Group) : (d.setGroup g x).xch = d.xch := rfl
@[simp] theorem Dev.setGroup_lnk (d : Dev) (g : Nat) (x : Group) : (d.setGroup g x).lnk = d.lnk := rfl
@[simp] theorem Dev.setGroup_tly (d : Dev) (g : Nat) (x : Group) : (d.setGroup g x).tly = d.tly := rfl
@[simp] theorem Dev.setGroup_grd (d : Dev) (g : Nat) (x : Group) : (d.setGroup g x).grd = d.grd := rfl
@[simp] theorem Dev.setGroup_pwr (d : Dev) (g : Nat) (x : Group) : (d.setGroup g x).pwr = d.pwr := rfl
@[simp] theorem Dev.setGroup_sec (d : Dev) (g : Nat) (x : Group) : (d.setGroup g x).sec = d.sec := rfl
@[simp] theorem Dev.setGroup_dbg (d : Dev) (g : Nat) (x : Group) : (d.setGroup g x).dbg = d.dbg := rfl
@[simp] theorem Dev.setGroup_out (d : Dev) (g : Nat) (x : Group) : (d.setGroup g x).out = d.out := rfl
@[simp] theorem Dev.setGroup_fresh (d : Dev) (g : Nat) (x : Group) : (d.setGroup g x).fresh = d.fresh := rfl
@[simp] theorem Dev.setGroup_ns (d : Dev) (g : Nat) (x : Group) : (d.setGroup g x).ns = d.ns := rfl
@[simp] theorem Dev.setGroup_hostRead (d : Dev) (g : Nat) (x : Group) : (d.setGroup g x).hostRead = d.hostRead := rfl

@[simp] theorem Dev.updGraph_mem (d : Dev) (g : Nat) (h : Graph → Graph) : (d.updGraph g h).mem = d.mem := rfl
@[simp] theorem Dev.updGraph_fr (d : Dev) (g : Nat) (h : Graph → Graph) : (d.updGraph g h).fr = d.fr := rfl
@[simp] theorem Dev.updGraph_insvc (d : Dev) (g : Nat) (h : Graph → Graph) : (d.updGraph g h).insvc = d.insvc := rfl
@[simp] theorem Dev.updGraph_hif (d : Dev) (g : Nat) (h : Graph → Graph) : (d.updGraph g h).hif = d.hif := rfl
@[simp] theorem Dev.updGraph_xch (d : Dev) (g : Nat) (h : Graph → Graph) : (d.updGraph g h).xch = d.xch := rfl
@[simp] theorem Dev.updGraph_lnk (d : Dev) (g : Nat) (h : Graph → Graph) : (d.updGraph g h).lnk = d.lnk := rfl
@[simp] theorem Dev.updGraph_wag (d : Dev) (g : Nat) (h : Graph → Graph) : (d.updGraph g h).wag = d.wag := rfl
@[simp] theorem Dev.updGraph_tly (d : Dev) (g : Nat) (h : Graph → Graph) : (d.updGraph g h).tly = d.tly := rfl
@[simp] theorem Dev.updGraph_grd (d : Dev) (g : Nat) (h : Graph → Graph) : (d.updGraph g h).grd = d.grd := rfl
@[simp] theorem Dev.updGraph_pwr (d : Dev) (g : Nat) (h : Graph → Graph) : (d.updGraph g h).pwr = d.pwr := rfl
@[simp] theorem Dev.updGraph_sec (d : Dev) (g : Nat) (h : Graph → Graph) : (d.updGraph g h).sec = d.sec := rfl
@[simp] theorem Dev.updGraph_dbg (d : Dev) (g : Nat) (h : Graph → Graph) : (d.updGraph g h).dbg = d.dbg := rfl
@[simp] theorem Dev.updGraph_out (d : Dev) (g : Nat) (h : Graph → Graph) : (d.updGraph g h).out = d.out := rfl
@[simp] theorem Dev.updGraph_fresh (d : Dev) (g : Nat) (h : Graph → Graph) : (d.updGraph g h).fresh = d.fresh := rfl
@[simp] theorem Dev.updGraph_ns (d : Dev) (g : Nat) (h : Graph → Graph) : (d.updGraph g h).ns = d.ns := rfl
@[simp] theorem Dev.updGraph_hostRead (d : Dev) (g : Nat) (h : Graph → Graph) : (d.updGraph g h).hostRead = d.hostRead := rfl

@[simp] theorem Dev.emit_mem (d : Dev) (o : Out) : (d.emit o).mem = d.mem := rfl
@[simp] theorem Dev.emit_fr (d : Dev) (o : Out) : (d.emit o).fr = d.fr := rfl
@[simp] theorem Dev.emit_insvc (d : Dev) (o : Out) : (d.emit o).insvc = d.insvc := rfl
@[simp] theorem Dev.emit_mkt (d : Dev) (o : Out) : (d.emit o).mkt = d.mkt := rfl
@[simp] theorem Dev.emit_hif (d : Dev) (o : Out) : (d.emit o).hif = d.hif := rfl
@[simp] theorem Dev.emit_xch (d : Dev) (o : Out) : (d.emit o).xch = d.xch := rfl
@[simp] theorem Dev.emit_lnk (d : Dev) (o : Out) : (d.emit o).lnk = d.lnk := rfl
@[simp] theorem Dev.emit_wag (d : Dev) (o : Out) : (d.emit o).wag = d.wag := rfl
@[simp] theorem Dev.emit_tly (d : Dev) (o : Out) : (d.emit o).tly = d.tly := rfl
@[simp] theorem Dev.emit_grd (d : Dev) (o : Out) : (d.emit o).grd = d.grd := rfl
@[simp] theorem Dev.emit_pwr (d : Dev) (o : Out) : (d.emit o).pwr = d.pwr := rfl
@[simp] theorem Dev.emit_sec (d : Dev) (o : Out) : (d.emit o).sec = d.sec := rfl
@[simp] theorem Dev.emit_dbg (d : Dev) (o : Out) : (d.emit o).dbg = d.dbg := rfl
@[simp] theorem Dev.emit_fresh (d : Dev) (o : Out) : (d.emit o).fresh = d.fresh := rfl
@[simp] theorem Dev.emit_ns (d : Dev) (o : Out) : (d.emit o).ns = d.ns := rfl
@[simp] theorem Dev.emit_hostRead (d : Dev) (o : Out) : (d.emit o).hostRead = d.hostRead := rfl

@[simp] theorem Dev.write_fr (d : Dev) (pa : Nat) (bs : List Byte) (psn : Bool) : (d.write pa bs psn).fr = d.fr := rfl
@[simp] theorem Dev.write_insvc (d : Dev) (pa : Nat) (bs : List Byte) (psn : Bool) : (d.write pa bs psn).insvc = d.insvc := rfl
@[simp] theorem Dev.write_mkt (d : Dev) (pa : Nat) (bs : List Byte) (psn : Bool) : (d.write pa bs psn).mkt = d.mkt := rfl
@[simp] theorem Dev.write_hif (d : Dev) (pa : Nat) (bs : List Byte) (psn : Bool) : (d.write pa bs psn).hif = d.hif := rfl
@[simp] theorem Dev.write_xch (d : Dev) (pa : Nat) (bs : List Byte) (psn : Bool) : (d.write pa bs psn).xch = d.xch := rfl
@[simp] theorem Dev.write_lnk (d : Dev) (pa : Nat) (bs : List Byte) (psn : Bool) : (d.write pa bs psn).lnk = d.lnk := rfl
@[simp] theorem Dev.write_wag (d : Dev) (pa : Nat) (bs : List Byte) (psn : Bool) : (d.write pa bs psn).wag = d.wag := rfl
@[simp] theorem Dev.write_tly (d : Dev) (pa : Nat) (bs : List Byte) (psn : Bool) : (d.write pa bs psn).tly = d.tly := rfl
@[simp] theorem Dev.write_grd (d : Dev) (pa : Nat) (bs : List Byte) (psn : Bool) : (d.write pa bs psn).grd = d.grd := rfl
@[simp] theorem Dev.write_pwr (d : Dev) (pa : Nat) (bs : List Byte) (psn : Bool) : (d.write pa bs psn).pwr = d.pwr := rfl
@[simp] theorem Dev.write_sec (d : Dev) (pa : Nat) (bs : List Byte) (psn : Bool) : (d.write pa bs psn).sec = d.sec := rfl
@[simp] theorem Dev.write_dbg (d : Dev) (pa : Nat) (bs : List Byte) (psn : Bool) : (d.write pa bs psn).dbg = d.dbg := rfl
@[simp] theorem Dev.write_out (d : Dev) (pa : Nat) (bs : List Byte) (psn : Bool) : (d.write pa bs psn).out = d.out := rfl
@[simp] theorem Dev.write_fresh (d : Dev) (pa : Nat) (bs : List Byte) (psn : Bool) : (d.write pa bs psn).fresh = d.fresh := rfl
@[simp] theorem Dev.write_ns (d : Dev) (pa : Nat) (bs : List Byte) (psn : Bool) : (d.write pa bs psn).ns = d.ns := rfl
@[simp] theorem Dev.write_hostRead (d : Dev) (pa : Nat) (bs : List Byte) (psn : Bool) : (d.write pa bs psn).hostRead = d.hostRead := rfl

@[simp] theorem Dev.setJob_mem (d : Dev) (j : Nat) (x : Job) : (d.setJob j x).mem = d.mem := by
  unfold Dev.setJob; split <;> rfl
@[simp] theorem Dev.setJob_fr (d : Dev) (j : Nat) (x : Job) : (d.setJob j x).fr = d.fr := by
  unfold Dev.setJob; split <;> rfl
@[simp] theorem Dev.setJob_insvc (d : Dev) (j : Nat) (x : Job) : (d.setJob j x).insvc = d.insvc := by
  unfold Dev.setJob; split <;> rfl
@[simp] theorem Dev.setJob_mkt (d : Dev) (j : Nat) (x : Job) : (d.setJob j x).mkt = d.mkt := by
  unfold Dev.setJob; split <;> rfl
@[simp] theorem Dev.setJob_hif (d : Dev) (j : Nat) (x : Job) : (d.setJob j x).hif = d.hif := by
  unfold Dev.setJob; split <;> rfl
@[simp] theorem Dev.setJob_lnk (d : Dev) (j : Nat) (x : Job) : (d.setJob j x).lnk = d.lnk := by
  unfold Dev.setJob; split <;> rfl
@[simp] theorem Dev.setJob_wag (d : Dev) (j : Nat) (x : Job) : (d.setJob j x).wag = d.wag := by
  unfold Dev.setJob; split <;> rfl
@[simp] theorem Dev.setJob_tly (d : Dev) (j : Nat) (x : Job) : (d.setJob j x).tly = d.tly := by
  unfold Dev.setJob; split <;> rfl
@[simp] theorem Dev.setJob_grd (d : Dev) (j : Nat) (x : Job) : (d.setJob j x).grd = d.grd := by
  unfold Dev.setJob; split <;> rfl
@[simp] theorem Dev.setJob_pwr (d : Dev) (j : Nat) (x : Job) : (d.setJob j x).pwr = d.pwr := by
  unfold Dev.setJob; split <;> rfl
@[simp] theorem Dev.setJob_sec (d : Dev) (j : Nat) (x : Job) : (d.setJob j x).sec = d.sec := by
  unfold Dev.setJob; split <;> rfl
@[simp] theorem Dev.setJob_dbg (d : Dev) (j : Nat) (x : Job) : (d.setJob j x).dbg = d.dbg := by
  unfold Dev.setJob; split <;> rfl
@[simp] theorem Dev.setJob_out (d : Dev) (j : Nat) (x : Job) : (d.setJob j x).out = d.out := by
  unfold Dev.setJob; split <;> rfl
@[simp] theorem Dev.setJob_fresh (d : Dev) (j : Nat) (x : Job) : (d.setJob j x).fresh = d.fresh := by
  unfold Dev.setJob; split <;> rfl
@[simp] theorem Dev.setJob_ns (d : Dev) (j : Nat) (x : Job) : (d.setJob j x).ns = d.ns := by
  unfold Dev.setJob; split <;> rfl
@[simp] theorem Dev.setJob_hostRead (d : Dev) (j : Nat) (x : Job) : (d.setJob j x).hostRead = d.hostRead := by
  unfold Dev.setJob; split <;> rfl

@[simp] theorem Dev.draw_mem (d : Dev) : d.draw.1.mem = d.mem := rfl
@[simp] theorem Dev.draw_fr (d : Dev) : d.draw.1.fr = d.fr := rfl
@[simp] theorem Dev.draw_insvc (d : Dev) : d.draw.1.insvc = d.insvc := rfl
@[simp] theorem Dev.draw_mkt (d : Dev) : d.draw.1.mkt = d.mkt := rfl
@[simp] theorem Dev.draw_hif (d : Dev) : d.draw.1.hif = d.hif := rfl
@[simp] theorem Dev.draw_xch (d : Dev) : d.draw.1.xch = d.xch := rfl
@[simp] theorem Dev.draw_lnk (d : Dev) : d.draw.1.lnk = d.lnk := rfl
@[simp] theorem Dev.draw_wag (d : Dev) : d.draw.1.wag = d.wag := rfl
@[simp] theorem Dev.draw_tly (d : Dev) : d.draw.1.tly = d.tly := rfl
@[simp] theorem Dev.draw_grd (d : Dev) : d.draw.1.grd = d.grd := rfl
@[simp] theorem Dev.draw_pwr (d : Dev) : d.draw.1.pwr = d.pwr := rfl
@[simp] theorem Dev.draw_sec (d : Dev) : d.draw.1.sec = d.sec := rfl
@[simp] theorem Dev.draw_dbg (d : Dev) : d.draw.1.dbg = d.dbg := rfl
@[simp] theorem Dev.draw_out (d : Dev) : d.draw.1.out = d.out := rfl
@[simp] theorem Dev.draw_ns (d : Dev) : d.draw.1.ns = d.ns := rfl
@[simp] theorem Dev.draw_hostRead (d : Dev) : d.draw.1.hostRead = d.hostRead := rfl

@[simp] theorem Dev.draw_fresh (d : Dev) : d.draw.1.fresh = d.fresh + 1 := rfl
@[simp] theorem Dev.emit_out (d : Dev) (o : Out) : (d.emit o).out = d.out ++ [o] := rfl
@[simp] theorem Dev.write_mem (d : Dev) (pa : Nat) (bs : List Byte) (psn : Bool) :
    (d.write pa bs psn).mem = d.mem.write pa bs psn := rfl

/-! ### Frames -/

@[simp] theorem Dev.frame_setFrame (d : Dev) (f : FrameId) (x : Frame) : (d.setFrame f x).frame f = x := by
  simp [Dev.frame, Dev.setFrame]

theorem Dev.frame_setFrame_ne (d : Dev) (f g : FrameId) (x : Frame) (h : f ≠ g) :
    (d.setFrame f x).frame g = d.frame g := by
  have h' : f.val ≠ g.val := fun e => h (Fin.ext e)
  simp [Dev.frame, Dev.setFrame, h']

@[simp] theorem Dev.setFrame_setFrame (d : Dev) (f : FrameId) (x y : Frame) :
    (d.setFrame f x).setFrame f y = d.setFrame f y := by
  simp [Dev.setFrame]

@[simp] theorem Dev.frame_updFrame (d : Dev) (f : FrameId) (g : Frame → Frame) :
    (d.updFrame f g).frame f = g (d.frame f) := by
  simp [Dev.updFrame]

theorem Dev.frame_updFrame_ne (d : Dev) (f f' : FrameId) (g : Frame → Frame) (h : f ≠ f') :
    (d.updFrame f g).frame f' = d.frame f' := Dev.frame_setFrame_ne d f f' _ h

@[simp] theorem Dev.updFrame_updFrame (d : Dev) (f : FrameId) (g h : Frame → Frame) :
    (d.updFrame f g).updFrame f h = d.updFrame f (fun fr => h (g fr)) := by
  simp [Dev.updFrame]

@[simp] theorem Dev.setFrame_self (d : Dev) (f : FrameId) : d.setFrame f (d.frame f) = d := by
  simp [Dev.setFrame, Dev.frame]

@[simp] theorem Dev.setFrame_up (d : Dev) (f : FrameId) (x : Frame) : (d.setFrame f x).up = d.up := rfl

/-! ### Links and jobs -/

@[simp] theorem Dev.port_setPort (d : Dev) (p : Port) (x : LPort) : (d.setPort p x).port p = x := by
  simp [Dev.port, Dev.setPort]

theorem Dev.port_setPort_ne (d : Dev) (p q : Port) (x : LPort) (h : p ≠ q) :
    (d.setPort p x).port q = d.port q := by
  have h' : p.val ≠ q.val := fun e => h (Fin.ext e)
  simp [Dev.port, Dev.setPort, h']

@[simp] theorem Dev.setPort_setPort (d : Dev) (p : Port) (x y : LPort) :
    (d.setPort p x).setPort p y = d.setPort p y := by
  simp [Dev.setPort]

theorem Dev.job_setJob (d : Dev) (j : Nat) (x : Job) (h : j < 256) : (d.setJob j x).job j = x := by
  simp [Dev.job, Dev.setJob, h]

/-! ### The queue of commands -/

theorem State.stepDev_next (s : State) (d : Dev) : s.stepDev d = .next { s with toDev := d } := rfl

end Sys2Proof.Machine
end

