-- ==== Sys2Proof/Laws/Access.lean ====
section
/-! SUPPORT. What a translation can do to the device: it changes the TLBs and draws free values, nothing else. -/

namespace Sys2Proof.Machine

/-- The second device differs from the first in its TLBs and in how many free values are drawn. -/
def Dev.OnlyTlbs (d d' : Dev) : Prop :=
  ∃ (t : SMap (List TlbE)) (n : Nat), d' = { d with mem := { d.mem with tlbs := t }, fresh := n }

theorem Dev.OnlyTlbs.refl (d : Dev) : d.OnlyTlbs d := ⟨d.mem.tlbs, d.fresh, rfl⟩

theorem Dev.OnlyTlbs.trans {a b c : Dev} (h : a.OnlyTlbs b) (k : b.OnlyTlbs c) : a.OnlyTlbs c := by
  obtain ⟨t, n, rfl⟩ := h
  obtain ⟨t', n', rfl⟩ := k
  exact ⟨t', n', rfl⟩

theorem Dev.OnlyTlbs.frame {a b : Dev} (h : a.OnlyTlbs b) (f : FrameId) : b.frame f = a.frame f := by
  obtain ⟨t, n, rfl⟩ := h; rfl

theorem Dev.OnlyTlbs.byte {a b : Dev} (h : a.OnlyTlbs b) (pa : Nat) : b.mem.byte pa = a.mem.byte pa := by
  obtain ⟨t, n, rfl⟩ := h; rfl

theorem Dev.OnlyTlbs.wf {a b : Dev} (h : a.OnlyTlbs b) : b.mem.wf = a.mem.wf := by
  obtain ⟨t, n, rfl⟩ := h; rfl

theorem Dev.tlbInsert_only (d : Dev) (t : Nat) (e : TlbE) : d.OnlyTlbs (d.tlbInsert t e) := by
  unfold Dev.tlbInsert
  split <;> (simp only []; split <;> exact ⟨_, _, rfl⟩)

theorem Dev.leaf_only (d : Dev) (u : Nat) (c : BitVec 12) (va : Nat) : d.OnlyTlbs (d.leaf u c va).1 := by
  unfold Dev.leaf
  simp only []
  split
  · split
    · split
      · exact .refl d
      · exact d.tlbInsert_only _ _
    · exact .refl d
  · split
    · exact .refl d
    · generalize tlbChain u = l
      have : ∀ (l : List Nat) (a : Dev) (e : TlbE), a.OnlyTlbs (l.foldl (fun d i => d.tlbInsert i e) a) := by
        intro l
        induction l with
        | nil => exact fun a _ => .refl a
        | cons i l ih => exact fun a e => (a.tlbInsert_only i e).trans (ih _ e)
      exact this _ _ _

/-- A translation changes the TLBs only. -/
theorem Dev.xlate_only (d : Dev) (u : Nat) (c : BitVec 12) (va : Nat) (a : Acc6) : d.OnlyTlbs (d.xlate u c va a).1 := by
  have h := d.leaf_only u c va
  unfold Dev.xlate
  split
  · exact .refl d
  · split <;> simp_all only []
    split <;> exact h

theorem Dev.resolve_only (d : Dev) (u : Nat) (c : BitVec 12) (a : Acc6) (n va len : Nat) :
    d.OnlyTlbs (d.resolve u c a n va len).1 := by
  induction n generalizing d va len with
  | zero => exact .refl d
  | succ n ih =>
    unfold Dev.resolve
    split
    · exact .refl d
    · simp only []
      have h := d.xlate_only u c va a
      split <;> simp_all only []
      rename_i d1 r pa _
      have h2 := ih d1 (va + min len (0x10000 - va % 0x10000)) (len - min len (0x10000 - va % 0x10000))
      split <;> (simp_all only []; exact h.trans h2)

theorem Dev.range_only (d : Dev) (u : Nat) (c : BitVec 12) (a : Acc6) (va len : Nat) :
    d.OnlyTlbs (d.range u c a va len).1 := d.resolve_only u c a _ va len

theorem Dev.readVirt_only (d : Dev) (u : Nat) (c : BitVec 12) (va len : Nat) :
    d.OnlyTlbs (d.readVirt u c va len).1 := by
  have h := d.range_only u c .read va len
  unfold Dev.readVirt
  split <;> simp_all only []
  split <;> exact h

theorem Dev.pages_only (d : Dev) (f : FrameId) (c : BitVec 12) (a : Acc6) (ps : List Nat) :
    d.OnlyTlbs (d.pages f c a ps).1 := by
  induction ps generalizing d with
  | nil => exact .refl d
  | cons p ps ih =>
    unfold Dev.pages
    have h := d.xlate_only f.val c (p * 0x10000) a
    split <;> simp_all only []
    rename_i d1 r _
    have h2 := ih d1
    split <;> (simp_all only []; exact h.trans h2)

/-- Finding the pages of an operand changes the TLBs only. -/
theorem Dev.view_only (d : Dev) (f : FrameId) (s : Span) (a : Acc6) : d.OnlyTlbs (d.view f s a).1 := by
  unfold Dev.view
  split
  · exact .refl d
  · simp only []
    have h := d.pages_only f (d.frame f).ctx a ((List.range ((s.hi.toNat - 1) / 0x10000 + 1 - s.lo.toNat / 0x10000)).map
      (s.lo.toNat / 0x10000 + ·))
    split <;> simp_all only []

theorem Dev.scaleViews_only (d : Dev) (f : FrameId) (j : VecJob) : d.OnlyTlbs (d.scaleViews f j).1 := by
  have opt : ∀ (d : Dev) (s : List Span) (a : Acc6),
      d.OnlyTlbs (match s with | x :: _ => d.view f x a | [] => (d, .ok (lsView f))).1 := by
    intro d s a
    cases s with
    | nil => exact .refl d
    | cons x _ => exact d.view_only f x a
  unfold Dev.scaleViews
  simp only []
  split
  · exact .refl d
  · have h1 := opt d (j.a.scaleSpan false) .read
    have h2 := opt (match j.a.scaleSpan false with | x :: _ => d.view f x .read | [] => (d, .ok (lsView f))).1
      ((j.dst.map fun t => t.scaleSpan true).getD []) .write
    split <;> exact h1.trans h2

end Sys2Proof.Machine
end

