-- ==== Sys2Proof/Laws/Table.lean ====
section
/-! SUPPORT. The tables: reading after writing, and that writing keeps the indices rising. -/

namespace Sys2Proof

variable {α : Type}

theorem SMap.get?_put (m : SMap α) (i : Nat) (x : α) : SMap.get? (SMap.put m i x) i = some x := by
  induction m with
  | nil => simp [SMap.put, SMap.get?]
  | cons c m ih =>
    obtain ⟨k, v⟩ := c
    simp only [SMap.put]
    split
    · simp [SMap.get?]
    · split
      · simp [SMap.get?]
      · simp [SMap.get?, *]

theorem SMap.get?_put_ne (m : SMap α) (i j : Nat) (x : α) (h : j ≠ i) :
    SMap.get? (SMap.put m i x) j = SMap.get? m j := by
  induction m with
  | nil => simp [SMap.put, SMap.get?, h]
  | cons c m ih =>
    obtain ⟨k, v⟩ := c
    simp only [SMap.put]
    split
    · subst_vars; simp [SMap.get?, h]
    · split
      · simp only [SMap.get?, h, if_false]
        split
        · rw [if_neg (by omega), if_pos (by omega)]
        · rfl
      · simp [SMap.get?, ih]

theorem SMap.rising_iff (m : SMap α) : SMap.rising m = true ↔ m.Pairwise (fun a b => a.1 < b.1) := by
  induction m with
  | nil => simp [SMap.rising]
  | cons c m ih =>
    cases m with
    | nil => simp [SMap.rising]
    | cons c' m =>
      obtain ⟨k, v⟩ := c
      obtain ⟨k', v'⟩ := c'
      rw [SMap.rising, Bool.and_eq_true, ih, decide_eq_true_iff]
      refine ⟨fun ⟨h1, h2⟩ => List.pairwise_cons.2 ⟨fun a ha => ?_, h2⟩, fun h => ⟨?_, (List.pairwise_cons.1 h).2⟩⟩
      · rcases List.mem_cons.1 ha with rfl | ha
        · exact h1
        · exact lt_trans h1 ((List.pairwise_cons.1 h2).1 a ha)
      · exact (List.pairwise_cons.1 h).1 (k', v') (by simp)

theorem SMap.mem_put {m : SMap α} {i : Nat} {x : α} {c : Nat × α} (h : c ∈ SMap.put m i x) :
    c = (i, x) ∨ c ∈ m := by
  induction m with
  | nil => simpa [SMap.put] using h
  | cons e m ih =>
    obtain ⟨k, v⟩ := e
    simp only [SMap.put] at h
    split at h
    · rcases List.mem_cons.1 h with h | h
      · exact .inl h
      · exact .inr (by simp [h])
    · split at h
      · rcases List.mem_cons.1 h with h | h
        · exact .inl h
        · exact .inr h
      · rcases List.mem_cons.1 h with h | h
        · exact .inr (by simp [h])
        · rcases ih h with h | h
          · exact .inl h
          · exact .inr (by simp [h])

theorem SMap.mem_del {m : SMap α} {i : Nat} {c : Nat × α} (h : c ∈ SMap.del m i) : c ∈ m := by
  induction m with
  | nil => simp [SMap.del] at h
  | cons e m ih =>
    obtain ⟨k, v⟩ := e
    simp only [SMap.del] at h
    split at h
    · simp [h]
    · split at h
      · exact h
      · rcases List.mem_cons.1 h with h | h
        · simp [h]
        · simp [ih h]

theorem SMap.rising_put {m : SMap α} {i : Nat} {x : α} (h : SMap.rising m = true) :
    SMap.rising (SMap.put m i x) = true := by
  rw [SMap.rising_iff] at h ⊢
  induction m with
  | nil => simp [SMap.put]
  | cons e m ih =>
    obtain ⟨k, v⟩ := e
    obtain ⟨h1, h2⟩ := List.pairwise_cons.1 h
    simp only [SMap.put]
    split
    · subst_vars; exact List.pairwise_cons.2 ⟨h1, h2⟩
    · split
      · refine List.pairwise_cons.2 ⟨fun a ha => ?_, h⟩
        rcases List.mem_cons.1 ha with rfl | ha
        · assumption
        · have := h1 a ha; simp only at this ⊢; omega
      · refine List.pairwise_cons.2 ⟨fun a ha => ?_, ih h2⟩
        rcases SMap.mem_put ha with rfl | ha
        · simp only; omega
        · exact h1 a ha

theorem SMap.rising_del {m : SMap α} {i : Nat} (h : SMap.rising m = true) : SMap.rising (SMap.del m i) = true := by
  rw [SMap.rising_iff] at h ⊢
  induction m with
  | nil => simp [SMap.del]
  | cons e m ih =>
    obtain ⟨k, v⟩ := e
    obtain ⟨h1, h2⟩ := List.pairwise_cons.1 h
    simp only [SMap.del]
    split
    · exact h2
    · split
      · exact h
      · exact List.pairwise_cons.2 ⟨fun a ha => h1 a (SMap.mem_del ha), ih h2⟩

theorem SMap.get?_none {m : SMap α} {i : Nat} (h : ∀ c ∈ m, i < c.1) : SMap.get? m i = none := by
  cases m with
  | nil => rfl
  | cons c m =>
    obtain ⟨k, v⟩ := c
    have := h (k, v) (by simp)
    simp only at this
    simp [SMap.get?, this]
    omega

theorem SMap.get?_del {m : SMap α} (h : SMap.rising m = true) (i j : Nat) :
    SMap.get? (SMap.del m i) j = if j = i then none else SMap.get? m j := by
  rw [SMap.rising_iff] at h
  induction m with
  | nil => simp [SMap.del, SMap.get?]
  | cons e m ih =>
    obtain ⟨k, v⟩ := e
    obtain ⟨h1, h2⟩ := List.pairwise_cons.1 h
    simp only [SMap.del]
    split
    · subst_vars
      split
      · subst_vars; exact SMap.get?_none h1
      · simp only [SMap.get?]
        rw [if_neg (by assumption)]
        split
        · exact SMap.get?_none fun c hc => lt_trans ‹_› (h1 c hc)
        · rfl
    · split
      · split
        · subst_vars
          exact SMap.get?_none fun c hc => by
            rcases List.mem_cons.1 hc with rfl | hc
            · assumption
            · exact lt_trans ‹_› (h1 c hc)
        · rfl
      · simp only [SMap.get?, ih h2]
        split
        · subst_vars; simp; omega
        · split
          · simp
          · rfl

section
variable [DecidableEq α]

theorem SMap.rising_putD {d : α} {m : SMap α} {i : Nat} {x : α} (h : SMap.rising m = true) :
    SMap.rising (SMap.putD d m i x) = true := by
  unfold SMap.putD
  split
  · exact SMap.rising_del h
  · exact SMap.rising_put h

/-- Reading after writing, where an unlisted entry reads as `d`. -/
theorem SMap.get?_putD {d : α} {m : SMap α} (h : SMap.rising m = true) (i j : Nat) (x : α) :
    (SMap.get? (SMap.putD d m i x) j).getD d = if j = i then x else (SMap.get? m j).getD d := by
  unfold SMap.putD
  split
  · rw [SMap.get?_del h]; split <;> simp_all
  · split
    · subst_vars; simp [SMap.get?_put]
    · rw [SMap.get?_put_ne _ _ _ _ ‹_›]

theorem SMap.mem_putD {d : α} {m : SMap α} {i : Nat} {x : α} {c : Nat × α} (h : c ∈ SMap.putD d m i x) :
    (c = (i, x) ∧ x ≠ d) ∨ c ∈ m := by
  unfold SMap.putD at h
  split at h
  · exact .inr (SMap.mem_del h)
  · rcases SMap.mem_put h with h | h
    · exact .inl ⟨h, ‹_›⟩
    · exact .inr h
end

theorem SMap.rising_filter {m : SMap α} (p : Nat × α → Bool) (h : SMap.rising m = true) :
    SMap.rising (m.filter p) = true := by
  rw [SMap.rising_iff] at h ⊢
  exact h.filter p

end Sys2Proof
end

