-- ==== Sys2Proof/Laws/Memory.lean ====
section
/-! SUPPORT. Memory: reading after writing, what a write leaves alone, and that every operation on memory keeps
its canonical form. -/

namespace Sys2Proof.Machine

theorem Memory.wf_iff (m : Memory) : m.wf = true ↔
    SMap.rising m.mem = true ∧ (∀ c ∈ m.mem, c.2 ≠ m.dflt c.1) ∧ SMap.rising m.poison = true
      ∧ ∀ c ∈ m.poison, c.2 = true := by
  simp [Memory.wf, and_assoc]

theorem Memory.wf_empty : ({} : Memory).wf = true := rfl

/-- Two memories that agree in what `wf` speaks of have it together. -/
theorem Memory.wf_congr {m n : Memory} (h1 : n.mem = m.mem) (h2 : n.poison = m.poison) (h3 : n.lost = m.lost) :
    n.wf = m.wf := by
  simp [Memory.wf, Memory.dflt, h1, h2, h3]

/-! ### One byte -/

@[simp] theorem Memory.setByte_lost (m : Memory) (pa : Nat) (b : Byte) : (m.setByte pa b).lost = m.lost := rfl
@[simp] theorem Memory.setByte_poison (m : Memory) (pa : Nat) (b : Byte) : (m.setByte pa b).poison = m.poison := rfl
@[simp] theorem Memory.setByte_retired (m : Memory) (pa : Nat) (b : Byte) : (m.setByte pa b).retired = m.retired := rfl
@[simp] theorem Memory.setByte_region (m : Memory) (pa : Nat) (b : Byte) : (m.setByte pa b).region = m.region := rfl
@[simp] theorem Memory.setByte_dflt (m : Memory) (pa : Nat) (b : Byte) : (m.setByte pa b).dflt = m.dflt := rfl

theorem Memory.setByte_wf {m : Memory} (pa : Nat) (b : Byte) (h : m.wf = true) : (m.setByte pa b).wf = true := by
  rw [Memory.wf_iff] at h ⊢
  obtain ⟨h1, h2, h3, h4⟩ := h
  refine ⟨SMap.rising_putD h1, fun c hc => ?_, h3, h4⟩
  rcases SMap.mem_putD hc with ⟨rfl, hb⟩ | hc
  · exact hb
  · exact h2 c hc

/-- A byte read after a byte is written. -/
theorem Memory.byte_setByte {m : Memory} (h : m.wf = true) (pa : Nat) (b : Byte) (a : Nat) :
    (m.setByte pa b).byte a = if a = pa then b else m.byte a := by
  have h1 := ((Memory.wf_iff m).1 h).1
  unfold Memory.byte
  simp only [Memory.setByte_dflt]
  unfold Memory.setByte SMap.putD
  split
  · next hb => subst hb; simp only [SMap.get?_del h1]; split <;> simp_all
  · split
    · subst_vars; simp [SMap.get?_put]
    · simp only [SMap.get?_put_ne _ _ _ _ ‹¬a = pa›]

/-! ### Poison marks -/

@[simp] theorem Memory.markGran_mem (m : Memory) (pa : Nat) (p : Bool) : (m.markGran pa p).mem = m.mem := by
  unfold Memory.markGran; split <;> rfl
@[simp] theorem Memory.markGran_lost (m : Memory) (pa : Nat) (p : Bool) : (m.markGran pa p).lost = m.lost := by
  unfold Memory.markGran; split <;> rfl
@[simp] theorem Memory.markGran_retired (m : Memory) (pa : Nat) (p : Bool) :
    (m.markGran pa p).retired = m.retired := by
  unfold Memory.markGran; split <;> rfl
@[simp] theorem Memory.markGran_region (m : Memory) (pa : Nat) (p : Bool) :
    (m.markGran pa p).region = m.region := by
  unfold Memory.markGran; split <;> rfl

theorem Memory.dflt_congr {m n : Memory} (h : n.lost = m.lost) (a : Nat) : n.dflt a = m.dflt a := by
  simp [Memory.dflt, h]

theorem Memory.byte_congr {m n : Memory} (h1 : n.mem = m.mem) (h2 : n.lost = m.lost) (a : Nat) :
    n.byte a = m.byte a := by
  simp [Memory.byte, h1, Memory.dflt_congr h2]

@[simp] theorem Memory.markGran_byte (m : Memory) (pa : Nat) (p : Bool) (a : Nat) :
    (m.markGran pa p).byte a = m.byte a :=
  Memory.byte_congr (by simp) (by simp) a

theorem Memory.poison_putD_wf {ps : SMap Bool} (i : Nat) (p : Bool)
    (h : SMap.rising ps = true ∧ ∀ c ∈ ps, c.2 = true) :
    SMap.rising (SMap.putD false ps i p) = true ∧ ∀ c ∈ SMap.putD false ps i p, c.2 = true := by
  refine ⟨SMap.rising_putD h.1, fun c hc => ?_⟩
  rcases SMap.mem_putD hc with ⟨rfl, hp⟩ | hc
  · simpa using hp
  · exact h.2 c hc

theorem Memory.putPoison_wf {m : Memory} (i : Nat) (p : Bool) (h : m.wf = true) :
    ({ m with poison := m.poison.putD false i p } : Memory).wf = true := by
  rw [Memory.wf_iff] at h ⊢
  obtain ⟨h1, h2, h3⟩ := h
  exact ⟨h1, h2, Memory.poison_putD_wf _ _ h3⟩

theorem Memory.markGran_wf {m : Memory} (pa : Nat) (p : Bool) (h : m.wf = true) : (m.markGran pa p).wf = true := by
  unfold Memory.markGran
  split
  · exact Memory.putPoison_wf (m := { m with poison := m.poison.putD false (pa / 64 * 2) p }) _ p
      (Memory.putPoison_wf _ p h)
  · exact Memory.putPoison_wf _ p h

/-! ### Runs of bytes -/

theorem Memory.foldl_wf {β : Type} (g : Memory → β → Memory) (hg : ∀ m b, m.wf = true → (g m b).wf = true)
    (l : List β) {m : Memory} (h : m.wf = true) : (l.foldl g m).wf = true := by
  induction l generalizing m with
  | nil => exact h
  | cons b l ih => exact ih (hg m b h)

theorem Memory.storeBytes_wf (bs : List Byte) {m : Memory} (pa : Nat) (h : m.wf = true) :
    (m.storeBytes pa bs).wf = true := by
  induction bs generalizing m pa with
  | nil => exact h
  | cons b bs ih =>
    simp only [Memory.storeBytes]
    split
    · exact ih _ h
    · exact ih _ (Memory.setByte_wf _ _ h)

theorem Memory.afterWrite_wf {m : Memory} (pa len : Nat) (psn : Bool) (h : m.wf = true) :
    (m.afterWrite pa len psn).wf = true := by
  refine Memory.foldl_wf _ (fun m g hm => ?_) _ h
  split
  · exact Memory.markGran_wf _ _ hm
  · split
    · exact Memory.markGran_wf _ _ hm
    · exact hm

theorem Memory.staleBacks_wf {m : Memory} (pa len : Nat) : (m.staleBacks pa len).wf = m.wf := by
  unfold Memory.staleBacks
  split <;> rfl

/-- A write keeps the canonical form. -/
theorem Memory.write_wf {m : Memory} (pa : Nat) (bs : List Byte) (psn : Bool) (h : m.wf = true) :
    (m.write pa bs psn).wf = true := by
  unfold Memory.write
  rw [Memory.staleBacks_wf]
  exact Memory.afterWrite_wf _ _ _ (Memory.storeBytes_wf _ _ h)

theorem Memory.storeBytes_outside (bs : List Byte) {m : Memory} (pa a : Nat) (h : m.wf = true)
    (ha : a < pa ∨ pa + bs.length ≤ a) : (m.storeBytes pa bs).byte a = m.byte a := by
  induction bs generalizing m pa with
  | nil => rfl
  | cons b bs ih =>
    simp only [List.length_cons] at ha
    simp only [Memory.storeBytes]
    rw [ih _ (by split; exacts [h, Memory.setByte_wf _ _ h]) (by omega)]
    split
    · rfl
    · rw [Memory.byte_setByte h, if_neg (by omega)]

theorem Memory.afterWrite_byte (m : Memory) (pa len : Nat) (psn : Bool) (a : Nat) :
    (m.afterWrite pa len psn).byte a = m.byte a := by
  unfold Memory.afterWrite
  generalize grans pa len = l
  induction l generalizing m with
  | nil => rfl
  | cons g l ih =>
    simp only [List.foldl_cons]
    rw [ih]
    split
    · simp
    · split <;> simp

theorem Memory.staleBacks_byte (m : Memory) (pa len a : Nat) : (m.staleBacks pa len).byte a = m.byte a := by
  unfold Memory.staleBacks
  split <;> rfl

/-- A write leaves every byte outside the run it stores as it was. -/
theorem Memory.write_outside {m : Memory} (pa : Nat) (bs : List Byte) (psn : Bool) (a : Nat) (h : m.wf = true)
    (ha : a < pa ∨ pa + bs.length ≤ a) : (m.write pa bs psn).byte a = m.byte a := by
  unfold Memory.write
  rw [Memory.staleBacks_byte, Memory.afterWrite_byte, Memory.storeBytes_outside bs pa a h ha]

@[simp] theorem Memory.isRetired_setByte (m : Memory) (pa : Nat) (b : Byte) (a : Nat) :
    (m.setByte pa b).isRetired a = m.isRetired a := rfl

theorem Memory.storeBytes_inside (bs : List Byte) {m : Memory} (pa : Nat) (i : Nat) (h : m.wf = true)
    (hi : i < bs.length) (hr : m.isRetired (pa + i) = false) : (m.storeBytes pa bs).byte (pa + i) = bs[i] := by
  induction bs generalizing m pa i with
  | nil => simp at hi
  | cons b bs ih =>
    simp only [Memory.storeBytes]
    cases i with
    | zero =>
      simp only [Nat.add_zero] at hr ⊢
      simp only [hr, Bool.false_eq_true, if_false]
      rw [Memory.storeBytes_outside _ _ _ (Memory.setByte_wf _ _ h) (by omega), Memory.byte_setByte h]
      simp
    | succ i =>
      simp only [List.length_cons, Nat.add_lt_add_iff_right] at hi
      have e : pa + (i + 1) = pa + 1 + i := by omega
      rw [e] at hr ⊢
      rw [ih _ _ (by split; exacts [h, Memory.setByte_wf _ _ h]) hi (by split <;> simpa using hr)]
      simp

/-- A read of a byte just written gives it back, where its line or sector is not retired. -/
theorem Memory.write_inside {m : Memory} (pa : Nat) (bs : List Byte) (psn : Bool) (i : Nat) (h : m.wf = true)
    (hi : i < bs.length) (hr : m.isRetired (pa + i) = false) : (m.write pa bs psn).byte (pa + i) = bs[i] := by
  unfold Memory.write
  rw [Memory.staleBacks_byte, Memory.afterWrite_byte, Memory.storeBytes_inside bs pa i h hi hr]

/-! ### Clearing, copying, buffered writes -/

theorem Memory.clearRange_wf {m : Memory} (lo hi : Nat) (h : m.wf = true) : (m.clearRange lo hi).wf = true := by
  replace h := (Memory.staleBacks_wf lo (hi - lo)).trans h
  rw [Memory.wf_iff] at h ⊢
  obtain ⟨h1, h2, h3, h4⟩ := h
  exact ⟨SMap.rising_filter _ h1, fun c hc => h2 c (List.mem_filter.1 hc).1, SMap.rising_filter _ h3,
    fun c hc => h4 c (List.mem_filter.1 hc).1⟩

theorem Memory.copyRange_wf {m : Memory} (src dst len : Nat) (h : m.wf = true) :
    (m.copyRange src dst len).wf = true := by
  unfold Memory.copyRange
  extract_lets bs ps gone m1 m2 m3
  have h1 : m1.wf = true := (Memory.staleBacks_wf dst len).trans h
  have h2 : m2.wf = true := by
    rw [Memory.wf_iff] at h1 ⊢
    obtain ⟨a, b, c, e⟩ := h1
    exact ⟨SMap.rising_filter _ a, fun x hx => b x (List.mem_filter.1 hx).1, SMap.rising_filter _ c,
      fun x hx => e x (List.mem_filter.1 hx).1⟩
  refine Memory.foldl_wf _ (fun m a hm => ?_) _ (Memory.foldl_wf _ (fun m c hm => ?_) _ h2)
  · split
    · exact hm
    · exact Memory.markGran_wf _ _ hm
  · split
    · exact hm
    · exact Memory.setByte_wf _ _ hm

theorem Memory.applyBuf_wf {m : Memory} (b : WBuf) (psn : Bool) (h : m.wf = true) : (m.applyBuf b psn).wf = true := by
  have h1 := Memory.foldl_wf (fun m (c : Nat × Byte × Byte) =>
      if m.isRetired c.1 then m else m.setByte c.1 ((m.byte c.1 &&& ~~~c.2.2) ||| (c.2.1 &&& c.2.2)))
    (fun m c hm => by split; exacts [hm, Memory.setByte_wf _ _ hm]) b h
  have h2 := Memory.foldl_wf (fun m g =>
      if psn then m.markGran g true
      else if (List.range (gran g)).all fun i => ((SMap.get? b (g + i)).map (·.2)).getD 0 == 0xFF
        then m.markGran g false
      else m)
    (fun m g hm => by
      split
      · exact Memory.markGran_wf _ _ hm
      · split
        · exact Memory.markGran_wf _ _ hm
        · exact hm) (b.map fun c => c.1 / gran c.1 * gran c.1).dedup h1
  unfold Memory.applyBuf
  extract_lets m1 m2
  split
  · exact h2
  · exact Memory.foldl_wf _ (fun m l hm => (Memory.staleBacks_wf _ _).trans hm) _ h2

/-- Moving a region clears it and leaves its contents open (R199). -/
theorem Memory.moveRegion_wf {m : Memory} (n k : Nat) (r : Region) (h : m.wf = true) :
    ({ m.clearRange (n * 2 ^ 30) ((n + 1) * 2 ^ 30) with
      region := m.region.setIfInBounds n r, lost := SMap.put m.lost n k } : Memory).wf = true := by
  have hc := Memory.clearRange_wf (n * 2 ^ 30) ((n + 1) * 2 ^ 30) h
  rw [Memory.wf_iff] at hc ⊢
  obtain ⟨h1, h2, h3⟩ := hc
  refine ⟨h1, fun c hcm => ?_, h3⟩
  have hout := (List.mem_filter.1 hcm).2
  have hne : c.1 / 2 ^ 30 ≠ n := by
    simp only [Bool.or_eq_true, decide_eq_true_iff] at hout
    omega
  have hl : (m.clearRange (n * 2 ^ 30) ((n + 1) * 2 ^ 30)).lost = m.lost := by
    unfold Memory.clearRange Memory.staleBacks
    split <;> rfl
  have := h2 c hcm
  simp only [Memory.dflt, hl] at this ⊢
  rwa [SMap.get?_put_ne _ _ _ _ hne]

/-- A warm reset keeps the canonical form. -/
theorem Memory.warm_wf {m : Memory} (h : m.wf = true) : m.warm.wf = true := by
  rw [Memory.wf_iff] at h ⊢
  obtain ⟨h1, h2, h3, h4⟩ := h
  exact ⟨SMap.rising_filter _ h1, fun c hc => h2 c (List.mem_filter.1 hc).1, SMap.rising_filter _ h3,
    fun c hc => h4 c (List.mem_filter.1 hc).1⟩

/-- Memory after reset has the canonical form. -/
theorem reset_mem_wf : State.reset.mem.wf = true := rfl

end Sys2Proof.Machine
end

