-- ==== Sys2Proof/Machine/Render.lean ====
section
/-! DEFINITION. The text of a ledger record (R434, R436). -/

namespace Sys2Proof.Machine

/-- A digit, lowercase. -/
def digitChar (n : Nat) : Char := Char.ofNat (if n < 10 then 48 + n else 87 + n)

/-- `k` digits of a number in a base, most significant first. -/
def digitsOf (b n : Nat) : Nat → List Char
  | 0 => []
  | k + 1 => digitsOf b (n / b) k ++ [digitChar (n % b)]

/-- Decimal without leading zeros. -/
def decText (n : Nat) : List Char := digitsOf 10 n ((Nat.log2 (n + 1)) / 3 + 1) |>.dropWhile (· == '0') |> fun cs =>
  if cs.isEmpty then ['0'] else cs

/-- Groups of four hex digits, most significant first. -/
def hexGroups (n : Nat) : Nat → List (List Char)
  | 0 => []
  | k + 1 => hexGroups (n / 65536) k ++ [digitsOf 16 n 4]

/-- Join with a separator. -/
def joinChars (sep : Char) : List (List Char) → List Char
  | [] => []
  | [a] => a
  | a :: b :: r => a ++ sep :: joinChars sep (b :: r)

/-- 0x and groups of four digits, as many as the value needs. -/
def hexText (n : Nat) : List Char :=
  '0' :: 'x' :: joinChars '_' (hexGroups n (max 1 (ceilDiv (if n = 0 then 0 else Nat.log2 n + 1) 16)))

def hex4Text (n : Nat) : List Char := '0' :: 'x' :: digitsOf 16 n 4

/-- Year, month and day of a day number counted from 1970-01-01. -/
def civilDate (days : Nat) : Nat × Nat × Nat :=
  let z := days + 719468
  let era := z / 146097
  let doe := z % 146097
  let yoe := (doe - doe / 1460 + doe / 36524 - doe / 146096) / 365
  let doy := doe - (365 * yoe + yoe / 4 - yoe / 100)
  let mp := (5 * doy + 2) / 153
  let m := if mp < 10 then mp + 3 else mp - 9
  (yoe + era * 400 + (if m ≤ 2 then 1 else 0), m, doy - (153 * mp + 2) / 5 + 1)

/-- YYYY-MM-DDThh:mm:ss.nnnnnnnnnZ. -/
def wallText (s ns : Nat) : List Char :=
  let (y, m, d) := civilDate (s / 86400)
  let t := s % 86400
  digitsOf 10 y 4 ++ '-' :: digitsOf 10 m 2 ++ '-' :: digitsOf 10 d 2 ++ 'T' :: digitsOf 10 (t / 3600) 2
    ++ ':' :: digitsOf 10 (t / 60 % 60) 2 ++ ':' :: digitsOf 10 (t % 60) 2 ++ '.' :: digitsOf 10 ns 9 ++ ['Z']

/-- The names of R434: CLASS, then its CODEs from 1. -/
def classNames : List (String × List String) :=
  [("memory", ["uncorrectable", "misdirected", "row_spared", "retire_full"]),
   ("poison", ["commit_kill", "host_read"]),
   ("guard", ["sampled_lost", "guard_lost", "three_way", "unverified"]),
   ("frame", ["service_change"]),
   ("exchange", ["segment_mismatch", "result_mismatch", "overdue", "unknown_job", "cfg_mismatch"]),
   ("link", ["extra_neighbour", "missing_neighbour", "wrong_neighbour", "unknown_message", "retrain", "quarantine",
     "strap_mismatch"]),
   ("remote", ["access_refused", "bell_refused", "dispatch_refused"]),
   ("time", ["root_mismatch", "barrier_broken", "unknown_key"])]

/-- The name of a class and of one of its events, when R434 has them. -/
def eventNames (cls code : Nat) : Option (String × String) :=
  if cls = 0 ∨ code = 0 then none
  else match classNames[cls - 1]? with
    | none => none
    | some (n, es) => (es[code - 1]?).map fun e => (n, e)

/-- UNIT's name (R433, R436). -/
def unitName : Nat → String
  | 1 => "frame" | 2 => "cl" | 3 => "dd" | 4 => "ld" | 5 => "ap" | _ => "cn"

/-- The line of a record (R436): none where R434 has no name for its CLASS and CODE. -/
def renderRecord (r : List Byte) : Option (List Char) :=
  let f := field r
  let flags := f 0x32 2
  let pair (k : String) (v : List Char) : List (List Char) := [k.toList ++ '=' :: v]
  let opt (k : String) (show_ : Nat → List Char) (n : Nat) : List (List Char) := if n = 0 then [] else pair k (show_ n)
  (eventNames (f 1 1) (f 2 2)).map fun names =>
    let serial := joinChars '-' ((List.range 8).map fun i => digitsOf 16 (f (8 + 2 * i) 1) 2 ++ digitsOf 16 (f (9 + 2 * i) 1) 2)
    joinChars ' ' (pair "v" (decText (f 0 1)) ++ pair "seq" (decText (f 4 4))
      ++ pair "class" names.1.toList ++ pair "code" names.2.toList ++ pair "serial" serial ++ pair "fw" (hexText (f 0x18 8))
      ++ pair "waggle" (if bit flags 1 then decText (f 0x20 8) else "invalid".toList)
      ++ (if bit flags 0 then pair "wall" (wallText (f 0x28 6) (f 0x2E 4)) else [])
      ++ opt "dev" hex4Text (f 0x34 2) ++ opt "job" hex4Text (f 0x36 2) ++ opt "step" decText (f 0x38 4)
      ++ opt "att" decText (f 0x42 1) ++ (if f 0x3C 2 = 0xFFFF then [] else pair "ctx" (decText (f 0x3C 2)))
      ++ (if f 0x3E 1 = 0 then [] else pair "unit" ((unitName (f 0x3E 1)).toList ++ decText (f 0x40 2)))
      ++ opt "sub" decText (f 0x3F 1) ++ opt "addr" hexText (f 0x48 8) ++ opt "syn" hexText (f 0x50 8)
      ++ opt "ta" hexText (f 0x58 8) ++ opt "tb" hexText (f 0x60 8) ++ opt "aux0" hexText (f 0x68 8)
      ++ opt "aux1" hexText (f 0x70 8)) ++ ['\n']

end Sys2Proof.Machine
end

