-- ==== Sys2Proof/Safety.lean ====
section
/-! DEFINITION. What counts as a safe step, and the invariants that statements use. -/

namespace Sys2Proof.Machine

/-- A step that goes on: no fault and no refusal. -/
def SafeStep (s : State) : Prop := ∃ t, step s = .next t

/-- Memory is in its canonical form, and every waiting command is one that the interfaces can bring. -/
def State.Inv (s : State) : Prop := s.mem.wf = true ∧ s.pending.all Instr.wellFormed = true

end Sys2Proof.Machine
end

