-- ==== Sys2Proof/Tests/Slice0.lean ====
section
/-! SUPPORT. Tests of the model on small states, the refusals of the well-formedness check, and for every clause of every
statement a state that meets its hypotheses. -/

namespace Sys2Proof.Tests

set_option Elab.async false

open Sys2Proof Sys2Proof.Machine Sys2Proof.Machine.Claim

/-! ### Small states -/

/-- A frame in service with nothing on it. -/
def idle : Frame := { state := .idle, svc := { insvc := true } }

/-- A frame that runs a task. -/
def runs : Frame := { idle with state := .running }

/-- The device with its firmware up and every frame in service. -/
def up0 : Dev := { sec := { phase := .ready }, fr := Vector.replicate 384 idle }

/-- A device with no command waiting. -/
def st (d : Dev) : State := { toDev := d, pending := [] }

/-- That device with another frame 0. -/
def onF (fr : Frame) : State := st { up0 with fr := up0.fr.set 0 fr }

/-- The device a command leaves. -/
def after (i : Instr) (s : State) : Dev :=
  match exec i s with
  | .next t => t.toDev
  | _ => s.toDev

/-- A descriptor of 32 bytes in one row at a byte of the local store: format Q8, strides zero. -/
def row32 (base : Nat) : TReg :=
  { valid := true
    desc := BitVec.ofNat 512 (base + (32 + (1 + (1 + 2 ^ 32) * 2 ^ 32) * 2 ^ 32) * 2 ^ 64 + 2 * 2 ^ 384) }

/-- A frame whose s, t or a registers begin with these values. -/
def withS (vs : List Word) (fr : Frame := runs) : Frame :=
  { fr with regs := { fr.regs with s := Vector.ofFn fun i => (vs[i.val]?).getD 0 } }

def withT (ts : List TReg) (fr : Frame := runs) : Frame :=
  { fr with regs := { fr.regs with t := Vector.ofFn fun i => (ts[i.val]?).getD {} } }

def withA (vs : List Word) (fr : Frame := runs) : Frame :=
  { fr with regs := { fr.regs with a := Vector.ofFn fun i => (vs[i.val]?).getD 0 } }

/-- An operand of memory translated. -/
theorem ok_of {α β : Type} {p : β × Except XErr α} {v : α} (h : p.2.toOption = some v) : p.2 = .ok v := by
  obtain ⟨a, _ | w⟩ := p <;> simp_all [Except.toOption]

theorem frame_onF (fr : Frame) (f : FrameId) : (onF fr).toDev.frame f = if f = 0 then fr else idle := by
  simp only [onF, up0, Dev.frame, st, Vector.getElem_set, Vector.getElem_replicate, Fin.ext_iff, eq_comm]
  rfl

/-- Only frame 0 can meet what an idle frame does not. -/
theorem filter_onF (fr : Frame) (p : Frame → Bool) (h : p idle = false) :
    (allFrames.filter fun f => p ((onF fr).toDev.frame f)) = if p fr = true then [0] else [] := by
  have e : allFrames = 0 :: (List.finRange 383).map Fin.succ := List.finRange_succ
  rw [e, List.filter_cons, frame_onF, if_pos rfl]
  have : ((List.finRange 383).map Fin.succ).filter (fun f => p ((onF fr).toDev.frame f)) = [] := by
    refine List.filter_eq_nil_iff.mpr fun f hf => ?_
    obtain ⟨g, -, rfl⟩ := List.mem_map.mp hf
    rw [frame_onF, if_neg (Fin.succ_ne_zero g), h]
    exact Bool.false_ne_true
  rw [this]

theorem any_onF (fr : Frame) (p : Frame → Bool) (h : p idle = false) :
    (allFrames.any fun f => p ((onF fr).toDev.frame f)) = p fr := by
  have e : allFrames = 0 :: (List.finRange 383).map Fin.succ := List.finRange_succ
  have : ((List.finRange 383).map Fin.succ).any (fun f => p ((onF fr).toDev.frame f)) = false := by
    refine List.any_eq_false.mpr fun f hf => ?_
    obtain ⟨g, -, rfl⟩ := List.mem_map.mp hf
    rw [frame_onF, if_neg (Fin.succ_ne_zero g), h]
    exact Bool.false_ne_true
  rw [e, List.any_cons, frame_onF, if_pos rfl, this, Bool.or_false]

/-! ### Well-formedness refuses what no interface can bring -/

def pkt (n : Nat) : XPkt :=
  { src := 0, job := 0, poison := false, kind := 0, flags := 0, ctrl := 0, fmt := 0, step := 0, bucket := 0, srcRank := 0
    index := 0, data := zeros n }

/-- Fields of a command that no key has signed. -/
def anAuth : Auth := { flags := 0, session := 0, seq := 0, body := [], sig := [] }

theorem test_wellFormed_sizes :
    [Instr.moveLineLanded 0 0 { line := 0 } (zeros 65) false, .rampRiseInterval 0 { demand := 16385 }, .rampFallInterval 0 16385,
      .contextBind 0 384, .stallReset 384, .createCtx 131072, .registerWrite true 0 0 0, .registerReadClear 0 9,
      .hostAccessAbort 0x8000000 1 true, .bar2Access (.read 0 0 []), .bar2Access (.write (2 ^ 36) [0] false []),
      .bar2Access (.resize 37), .rampRiseInterval 0 { demand := 0, held := 7 }].all
      (fun i => i.wellFormed == false) = true := by decide +kernel

theorem test_wellFormed_messages :
    [Instr.data (pkt 225), .tally (pkt 225), .segAck (pkt 225), .resend (pkt 225), .jobHello (pkt 225), .stepAbort (pkt 225),
      .jobAbort (pkt 225), .resultTally (pkt 225), .dataFlit 0 { bytes := zeros 255 }, .linkControlFlit 0 { bytes := zeros 257 },
      .unsupported 0 (zeros 11), .laneDrop 0 0 9].all (fun i => i.wellFormed == false) = true := by decide +kernel

theorem test_wellFormed_remote :
    [Instr.bReadRequest { src := 0, job := 0, addr := 0, len := 4097, tag := 0 },
      .bReadData { tag := 0, off := 0, data := zeros 225, poison := false },
      .bWrite { src := 0, job := 0, addr := 0, tag := 0, data := zeros 225, poison := false },
      .scrubRead 0x40C000000 {}, .scrubRead 0 { errs := [(68, 1)] }, .scrubRead 0 { errs := [(0, 0)] },
      .scrubRead 0 { words := [(8, none)] },
      .chunkData 3 0 0 [], .chunkData 0 0 64 [], .chunkData 0 0 0 (zeros 1025), .mgmtKey anAuth (zeros 56),
      .frameSelfTestComplete [(0, { rows := [130] })], .frameSelfTestComplete [(0, { grps := [16] })],
      .frameSelfTestComplete [(0, { cells := [(0, 128)] })]].all (fun i => i.wellFormed == false) = true := by decide +kernel

theorem test_wellFormed_accepts :
    [Instr.nop 0 {}, .scrubRead 0 { errs := [(67, 255)] }, .chunkData 2 0 63 [], .mgmtKey anAuth (zeros 57),
      .contextBind 0 383].all Instr.wellFormed = true := by decide +kernel

/-! ### Words of R137, bit by bit: OP, DST, SRCA, SRCB, SRCC, MOD -/

theorem test_word_sub :
    decodeInsn 0b00000010_000101_000110_000111_000000_00000000000000000000000000000000
      = some (.sub, { dst := 5, a := 6, b := 7 }) := by decide +kernel

theorem test_word_cmpi :
    decodeInsn 0b00001111_000001_000010_000000_000000_11111111111111111111111100000100
      = some (.cmpi, { dst := 1, a := 2, mod := 0xFFFFFF04 }) := by decide +kernel

theorem test_word_mmaH2 :
    decodeInsn 0b00100001_001000_000110_000111_000101_00000000000000000000000000110010
      = some (.mmaH2, { dst := 8, a := 6, b := 7, c := 5, mod := 0x32 }) := by decide +kernel

theorem test_word_vsel :
    decodeInsn 0b01001001_000001_000010_000011_000100_00000000000000000000000000000000
      = some (.vsel, { dst := 1, a := 2, b := 3, c := 4 }) := by decide +kernel

theorem test_word_sts :
    decodeInsn 0b01101001_000000_111111_000001_000000_11111111111111111111111111111000
      = some (.sts, { a := 63, b := 1, mod := 0xFFFFFFF8 }) := by decide +kernel

theorem test_word_gadd :
    decodeInsn 0b10000010_011111_000010_000011_000000_00000000000000000000000000000000
      = some (.gadd, { dst := 31, a := 2, b := 3 }) := by decide +kernel

theorem test_word_tywr :
    decodeInsn 0b10100011_000000_000010_000000_000000_00000000000000000000000000111111
      = some (.tywr, { a := 2, mod := 63 }) := by decide +kernel

theorem test_word_bell :
    decodeInsn 0b11000110_000000_000001_000010_000011_00000000000000000000000000000101
      = some (.bell, { a := 1, b := 2, c := 3, mod := 5 }) := by decide +kernel

theorem test_word_reserved : decodeInsn 0x2300000000000000 = none ∧ decodeInsn 0xFF00000000000000 = none := by decide +kernel

/-! ### The queue -/

theorem test_step_front :
    ∃ t, step { onF runs with pending := [.nop 0 {}, .nop 1 {}] } = .next t ∧ t.pending = [.nop 1 {}]
      ∧ (t.frame 0).pc = 8 := ⟨_, rfl, by decide +kernel⟩

theorem witness_EmptyQueueTicks : (onF runs).pending = [] ∧ SMap.rising (onF runs).mkt.stallIdle = true := ⟨rfl, rfl⟩

/-! ### Scalar instructions -/

theorem test_add_wraps :
    ((after (.add 0 { dst := 1, a := 1, b := 2 }) (onF (withS [0, 0xFFFFFFFFFFFFFFFF, 2]))).frame 0).regs.getS 1 = 1 := by
  decide +kernel

theorem test_sra_negative :
    ((after (.sra 0 { dst := 3, a := 1, b := 2 }) (onF (withS [0, 0x8000000000000000, 65]))).frame 0).regs.getS 3
      = 0xC000000000000000 := by decide +kernel

theorem test_addi_negative :
    ((after (.addi 0 { dst := 0, a := 0, mod := 0xFFFFFFFF }) (onF (withS [5]))).frame 0).regs.getS 0 = 4 := by decide +kernel

theorem test_cmp_signed :
    ((after (.cmp 0 { dst := 1, a := 0, b := 1, mod := 2 }) (onF (withS [0xFFFFFFFFFFFFFFFF, 1]))).frame 0).regs.getK 1
      = BitVec.allOnes 256 := by decide +kernel

theorem test_cmp_unsigned :
    ((after (.cmp 0 { dst := 1, a := 0, b := 1, mod := 4 }) (onF (withS [0xFFFFFFFFFFFFFFFF, 1]))).frame 0).regs.getK 1
      = 0 := by decide +kernel

theorem test_branch_back :
    ((after (.b 0 { mod := 0xFFFFFFFE }) (onF { runs with pc := 0x100 })).frame 0).pc = 0xF0 := by decide +kernel

theorem test_br_misaligned :
    ((after (.br 0 { a := 1 }) (onF (withS [0, 0x104]))).frame 0).pend.map (·.code) = some 0x0A := by decide +kernel

theorem test_illegal_field :
    ((after (.knot 0 { dst := 8, a := 1 }) (onF runs)).frame 0).pend.map (·.code) = some 0x01 := by decide +kernel

/-! ### Hypotheses of the statements on scalar instructions are met -/

theorem witness_ScalarThreeRegister :
    Ready (onF runs) 0 [.s 1, .s 1, .s 2] ∧ ({ dst := 1, a := 1, b := 2 } : Insn).c = 0 := by
  unfold Ready; decide +kernel

theorem witness_ScalarImmediate :
    Ready (onF runs) 0 [.s 63, .s 0] ∧ ({ dst := 63, a := 0, mod := 63 } : Insn).mod.toNat < 64
      ∧ ({ dst := 63, a := 0, mod := 63 } : Insn).b = 0 := by
  unfold Ready; decide +kernel

theorem witness_Comparisons :
    (5 < 6 ∧ Ready (onF (withS [1, 1])) 0 ([.s 0, .s 1] ++ []) ∧ holds 0 1 1 ∧ ¬ holds 5 1 2)
      ∧ ((0x80000005 : BitVec 32).toNat % 256 < 6 ∧ Ready (onF runs) 0 ([.s 63] ++ [.k 7]) ∧ holds 2 (-1) 1 ∧ ¬ holds 3 (-1) 1)
      ∧ (Ready (onF runs) 0 [] ∧ (7 : BitVec 32).toNat = 7 ∧ (0x106 : BitVec 32).toNat % 256 = 6) := by
  unfold Ready; simp only [holds]; decide +kernel

theorem witness_PredicateLogic :
    Ready (onF runs) 0 (([7, 0, 7] : List (BitVec 6)).filter (· != 0) |>.map .k)
      ∧ Ready (onF runs) 0 (([0, 3] : List (BitVec 6)).filter (· != 0) |>.map .k) := by
  unfold Ready; decide +kernel

theorem witness_AddressRegisters :
    Ready (onF runs) 0 [] ∧ Ready (onF runs) 0 [.s 63] ∧ (15 : BitVec 6).toNat < 16 := by
  unfold Ready; decide +kernel

theorem witness_TwoWordForms : Ready (onF runs) 0 [.s 63] ∧ Ready (onF runs) 0 [] := by unfold Ready; decide +kernel

theorem witness_Branches :
    Ready (onF runs) 0 [] ∧ Ready (onF (withS [0, 0x108])) 0 [.s 1]
      ∧ (((onF (withS [0, 0x108])).frame 0).regs.getS 1).toNat % 8 = 0 := by
  unfold Ready; decide +kernel

theorem witness_BranchOnPredicate : Ready (onF runs) 0 [] ∧ Ready (onF runs) 0 [.k 7] := by unfold Ready; decide +kernel

theorem witness_BranchRegisterMisaligned :
    Ready (onF (withS [0, 0x104])) 0 [.s 1] ∧ (((onF (withS [0, 0x104])).frame 0).regs.getS 1).toNat % 8 ≠ 0 := by
  unfold Ready; decide +kernel

/-! ### Waits -/

def waiting : Frame := { runs with held := some { op := .waitAc, x := { dst := 3, mod := 1 } } }

theorem test_wait_holds :
    ((after (.waitAc 0 { dst := 3, mod := 1 }) (onF runs)).frame 0).held = some { op := .waitAc, x := { dst := 3, mod := 1 } }
      ∧ ((after (.waitAc 0 { dst := 3, mod := 1 }) (onF runs)).frame 0).pc = 0 := by decide +kernel

theorem witness_CounterWaits :
    (Ready (onF runs) 0 [] ∧ (15 : BitVec 6).toNat < 16)
      ∧ (((onF (withS [0xFFFFFFFF])).frame 0).regs.getS 0).toNat < 2 ^ 32 ∧ Ready (onF (withS [0xFFFFFFFF])) 0 [.s 0]
      ∧ (7 : BitVec 6).toNat < 8 := by
  unfold Ready; decide +kernel

theorem witness_WaitAll :
    Ready (onF runs) 0 [] ∧ ((onF runs).frame 0).mmaQ = [] ∧ ((onF runs).frame 0).vecQ = []
      ∧ ((onF runs).frame 0).tyQ = [] ∧ ((onF runs).frame 0).loads = []
      ∧ ((onF runs).frame 0).stores = [] ∧ (∀ m ∈ ((onF runs).frame 0).moves, m.acked = true)
      ∧ Ready (onF { runs with stores := [{ word := 0 }] }) 0 []
      ∧ ((onF { runs with stores := [{ word := 0 }] }).frame 0).stores ≠ [] := by
  unfold Ready; decide +kernel

theorem witness_HoldRelease :
    (onF waiting).up = true ∧ ((onF waiting).frame 0).mayIssue = true
      ∧ ((onF waiting).frame 0).held = some { op := .waitAc, x := { dst := 3, mod := 1 } } ∧ ((onF waiting).frame 0).mmaQ = []
      ∧ ((onF waiting).frame 0).tyQ = []
      ∧ (((onF waiting).frame 0).regs.ac[3]).toNat < 1 := by decide +kernel

theorem witness_HoldRelease_reached :
    let fr : Frame := { runs with held := some { op := .waitAc, x := { dst := 3 } } }
    (onF fr).up = true ∧ ((onF fr).frame 0).mayIssue = true ∧ ((onF fr).frame 0).held = some { op := .waitAc, x := { dst := 3 } }
      ∧ 0 ≤ (((onF fr).frame 0).regs.ac[3]).toNat := by decide +kernel

theorem witness_IllegalFields :
    Machine.Claim.classes .kand = some (some 8, some 8, some 8, none) ∧ wrong (some 8) 8 ∧ wrong none 1
      ∧ Ready (onF runs) 0 [] ∧ (unitOf .tywr = 5 → ((onF runs).frame 0).tyQ = []) := by
  unfold Ready wrong; decide +kernel

/-! ### Tallies and descriptors -/

theorem test_tywr_wide :
    ((after (.tywr 0 { a := 0, mod := 1 }) (onF { withS [0x100000000] with
      chans := (Vector.replicate 64 {}).set 1 { crc32 := true } })).frame 0).pend.map (·.code) = some 0x01 := by decide +kernel

theorem test_taddb_wraps :
    ((((after (.taddb 0 { dst := 1, mod := 32 }) (onF (withT [{}, row32 0x7FFFF0]))).frame 0).regs.getT 1).desc.toNat % 2 ^ 64
      = 0x10) := by decide +kernel

theorem test_trd_invalid :
    ((after (.trd 0 { dst := 0, a := 5 }) (onF runs)).frame 0).pend.map (·.code) = some 0x03 := by decide +kernel

theorem witness_TallyChannels :
    ((onF runs).frame 0).tyQ = [] ∧ (∀ m ∈ ((onF runs).frame 0).moves, m.tch = some 0 → m.acked = true ∨ m.front = m.lines)
      ∧ Ready (onF runs) 0 [.s 60, .s 61, .s 62, .s 63] ∧ (((onF runs).frame 0).chans[63]).poison = false
      ∧ (((onF runs).frame 0).chans[63]).crc32 = false ∧ Ready (onF (withS [0x100000000])) 0 [.s 0]
      ∧ 2 ^ 32 ≤ (((onF (withS [0x100000000])).frame 0).regs.getS 0).toNat := by
  unfold Ready; decide +kernel

theorem witness_TallyData :
    let s := onF (withT [row32 0x7FFFE0])
    let r := (s.frame 0).regs.getT 0
    Ready s 0 [.t 0] ∧ r.ok = true ∧ r.shape.space = false ∧ r.known = true ∧ r.shape.scaled = false ∧ 0 ≤ r.shape.lo
      ∧ r.shape.hi ≤ 0x800000 ∧ (s.frame 0).tyQ = [] ∧ (∀ m ∈ (s.frame 0).moves, m.acked = true)
      ∧ (s.frame 0).overlaps [r.shape.span false] = false := by
  unfold Ready; decide +kernel

/-- A frame whose move, issued before, still feeds channel 0. -/
def feeding : Frame :=
  { withT [row32 0x7FFFE0] with
    stamp := 1, moves := [{ word := 0, src := .tensor (row32 0).shape, dst := .tensor (row32 0x1000).shape, lines := 1, tch := some 0 }] }

theorem test_tydata_waits :
    ((after (.tydata 0 { a := 0 }) (onF feeding)).frame 0).tyQ.length = 1 := by decide +kernel

theorem witness_TallyData_feeds :
    let r := ((onF feeding).frame 0).regs.getT 0
    Ready (onF feeding) 0 [.t 0] ∧ r.ok = true ∧ r.known = true ∧ ((onF feeding).frame 0).overlaps [r.shape.span false] = false
      ∧ ((onF feeding).frame 0).tyQ = [] ∧ ((onF feeding).frame 0).stamp = 1
      ∧ ∃ m ∈ ((onF feeding).frame 0).moves, m.tch = some 0 ∧ m.acked = false ∧ m.front ≠ m.lines ∧ m.stamp < 1 := by
  unfold Ready; decide +kernel

/-- One instruction, or 16, in the queue, the first of which waits for the move that feeds its channel. -/
theorem witness_TallyData_queued :
    let r := ((onF feeding).frame 0).regs.getT 0
    let e : TyEnt := { stamp := 1, job := .data 0 r.shape }
    let full := onF { feeding with tyQ := List.replicate 16 e }
    let one := onF { feeding with tyQ := [e] }
    (Ready full 0 [.t 0] ∧ (full.frame 0).tyQ.length = 16 ∧ (full.frame 0).overlaps [r.shape.span false] = false)
      ∧ (Ready one 0 [.t 0] ∧ (one.frame 0).tyQ = [e] ∧ (one.frame 0).overlaps [r.shape.span false] = false)
      ∧ ∃ m ∈ (one.frame 0).moves, m.tch = some 0 ∧ m.stamp < e.stamp ∧ m.acked = false ∧ m.front ≠ m.lines := by
  unfold Ready; decide +kernel

theorem witness_DescriptorRegisters :
    let s := onF (withT [row32 0] (withS [0, 5]))
    Ready s 0 (.t 31 :: ((List.range 8).map fun k => (56 : BitVec 6) + BitVec.ofNat 6 k).map .s)
      ∧ Ready s 0 [.t 0] ∧ Ready s 0 [.t 0, .s 1] ∧ ((s.frame 0).regs.getT 0).valid = true
      ∧ ((s.frame 0).regs.getS 1).toNat < 2 ^ 32 := by
  unfold Ready; decide +kernel

theorem witness_InvalidDescriptorRegister :
    Ready (onF runs) 0 (.t 31 :: ((List.range 8).map fun k => (56 : BitVec 6) + BitVec.ofNat 6 k).map .s)
      ∧ Ready (onF runs) 0 [.t 31, .s 0] ∧ (((onF runs).frame 0).regs.getT 31).valid = false := by
  unfold Ready; decide +kernel

/-! ### Loads and stores -/

/-- A frame granted R, W and X on the first 64 MiB of its context's addresses. -/
def granted (fr : Frame := runs) : Frame :=
  { fr with eff := fr.eff.set 0 (BitVec.ofNat 128 (2 ^ 20 * 2 ^ 64 + 7 * 2 ^ 96)) }

/-- Page 0 of context 0 translated for frame 0 to the physical page at 0x10000. -/
def onV (fr : Frame) : State :=
  let d := (onF fr).toDev
  st { d with mem := { d.mem with tlbs := [(0, [{ ctx := 0, level := 3, vpn := 0, pte := 0x1001F }])] } }

theorem test_sts_stores :
    let d := after (.sts 0 { a := 0, b := 1, mod := 8 }) (onV (granted (withS [0, 0x1122334455667788])))
    d.mem.byte 0x10008 = 0x88 ∧ d.mem.byte 0x1000F = 0x11 ∧ d.mem.byte 0x10010 = 0 := by decide +kernel

theorem test_sts_ungranted :
    ((after (.sts 0 { a := 0, b := 1 }) (onV (withS [0, 1]))).frame 0).pend.map (·.code) = some 0x04 := by decide +kernel

theorem test_ldsl_locks :
    ((after (.ldsl 0 { dst := 1, a := 0 }) (onF (withS [8]))).frame 0).locked [.s 1] = true := by decide +kernel

theorem witness_LocalLoads :
    let s := onF (withS [0x7FFFC0])
    Ready s 0 [.t 31, .s 0] ∧ Ready s 0 [.s 0, .s 0] ∧ Free s 0 false 0x7FFFC0 64 false
      ∧ ((s.frame 0).regs.getS 0).toNat / 64 * 64 + 64 ≤ 0x800000 := by
  unfold Ready Free; decide +kernel

theorem witness_VirtualLoads :
    let s := onV (granted (withS [0x1000] (withA [0x40])))
    Ready s 0 [.t 31, .s 0] ∧ Ready s 0 [.s 0, .s 0] ∧ Ready s 0 [.s 5] ∧ Free s 0 true 0x1000 64 false
      ∧ (s.frame 0).ungranted .r 0x1000 0x1040 = none ∧ (s.frame 0).ungranted .r 0x40 0x48 = none
      ∧ ((s.frame 0).regs.getA 0).toNat = 0x40 ∧ Free s 0 true 0x40 8 false := by
  unfold Ready Free; decide +kernel

theorem witness_VirtualLoads_translated :
    ((onV (granted runs)).toDev.xlate 0 0 0x1000 .read).2 = .ok (none, 0x11000)
      ∧ ((onV (granted runs)).toDev.xlate 0 0 0x40 .read).2 = .ok (none, 0x10040) :=
  ⟨ok_of (by decide +kernel), ok_of (by decide +kernel)⟩

theorem witness_LocalStore :
    let s := onF (withS [0x7FFFF8])
    Ready s 0 [.s 0, .s 63] ∧ 0x7FFFF8 + 8 ≤ 0x800000 ∧ Free s 0 false 0x7FFFF8 8 true ∧ s.mem.wf = true
      ∧ s.mem.isRetired (lsAddr 0 0x7FFFF8) = false := by
  unfold Ready Free; decide +kernel

theorem witness_VirtualStores :
    let s := onV (granted (withT [row32 0] (withS [0x1000] (withA [0x40]))))
    Ready s 0 [.s 0, .t 0] ∧ Ready s 0 [.s 0, .s 63] ∧ Ready s 0 [.s 1] ∧ ((s.frame 0).regs.getT 0).valid = true
      ∧ Free s 0 true 0x1000 64 true ∧ (s.frame 0).ungranted .w 0x1000 0x1040 = none ∧ Free s 0 true 0x40 8 true := by
  unfold Ready Free; decide +kernel

theorem witness_VirtualStores_translated :
    ((onV (granted runs)).toDev.xlate 0 0 0x1000 .write).2 = .ok (none, 0x11000) := ok_of (by decide +kernel)

def loading (d : Dest) : Frame := { runs with loads := [{ dst := d, word := 0, data := [1, 2, 0, 0, 0, 0, 0, 0] }] }

theorem test_load_lands :
    ((after (.lockedRegisterUnlock 0 { load := 0 }) (onF (loading (.s 9)))).frame 0).regs.getS 9 = 0x201 := by decide +kernel

theorem witness_LoadsAndStoresEnd :
    let l : Load := { dst := .s 9, word := 0, data := [1, 2, 0, 0, 0, 0, 0, 0], pa := some 0x10000 }
    ((onF { runs with loads := [l] }).frame 0).loads[0]? = some l ∧ l.ready = true ∧ l.err = none ∧ l.poison = false
      ∧ (∀ e ∈ ([(7, {})] : LineErrs), e.1 ∉ linesOf 0x10000 l.data.length)
      ∧ ((onF (loading (.t 9))).frame 0).loads[0]? = some { dst := .t 9, word := 0, data := [1, 2, 0, 0, 0, 0, 0, 0] }
      ∧ ((onF (loading (.t 9))).frame 0).killing = false ∧ ((onF (loading (.t 9))).frame 0).preempt = false
      ∧ ((onF { runs with stores := [{ word := 7 }] }).frame 0).stores[0]? = some { word := 7 } := by decide +kernel

theorem test_load_uncorrectable :
    let l : Load := { dst := .s 9, word := 0, data := [1, 2, 0, 0, 0, 0, 0, 0], pa := some 0x10000 }
    (after (.lockedRegisterUnlock 0 { load := 0, errs := [(0x400, { misdir := true })] }) (onF { runs with loads := [l] })).mem.derr.toList.any
      (·.ue == 1) = true := by decide +kernel

theorem witness_AccessErrors :
    let x : XErr := { cause := 8, va := 64 }
    ((onF { runs with loads := [{ dst := .s 0, word := 0, err := some x }] }).frame 0).loads[0]?
        = some { dst := .s 0, word := 0, err := some x } ∧ x.bell = false
      ∧ ((onF { runs with stores := [{ word := 0, err := some x }] }).frame 0).stores[0]? = some { word := 0, err := some x } := by
  decide +kernel

theorem witness_FetchOutsideEffects :
    ((onF runs).up = true ∧ ((onF runs).frame 0).mayIssue = true ∧ ((onF runs).frame 0).held = none)
      ∧ ∀ e ∈ ((onF runs).frame 0).eff.toList, effGrants e .x ((onF runs).frame 0).pc.toNat = none :=
  ⟨by decide +kernel, fun e he => by
    obtain rfl : e = 0 := (List.mem_replicate.mp (show e ∈ List.replicate 16 (0 : BitVec 128) from he)).2
    decide +kernel⟩

/-! ### Moves, matrix and vector -/

/-- An access that is answered. -/
theorem ok_of_isOk {α β : Type} {p : β × Except XErr α} (h : p.2.toBool = true) : ∃ v, p.2 = .ok v := by
  obtain ⟨a, _ | w⟩ := p
  · simp [Except.toBool] at h
  · exact ⟨w, rfl⟩

theorem some_of {α β : Type} {p : β × Option α} (h : p.2.isSome = true) : ∃ v, p.2 = some v := by
  obtain ⟨a, _ | w⟩ := p
  · simp at h
  · exact ⟨w, rfl⟩

/-- A two-dimensional descriptor: base, extents, stride, format code, attributes. -/
def mat (base e0 e1 s1 fmt att : Nat) : TReg :=
  { valid := true
    desc := BitVec.ofNat 512 (base + (e0 + (e1 + (1 + 2 ^ 32) * 2 ^ 32) * 2 ^ 32) * 2 ^ 64 + s1 * 2 ^ 192
      + fmt * 2 ^ 384 + att * 2 ^ 392) }

theorem witness_MoveIssues :
    let s := onF (withT [row32 0x1000, row32 0])
    let d := (s.frame 0).regs.getT 0
    let a := (s.frame 0).regs.getT 1
    Ready s 0 [.t 0, .t 1] ∧ d.ok false = true ∧ a.ok false = true ∧ d.known = true ∧ a.known = true
      ∧ a.shape.e0 = d.shape.e0 ∧ a.shape.e1 = d.shape.e1 ∧ a.shape.e2 = d.shape.e2 ∧ a.shape.e3 = d.shape.e3
      ∧ descField d.desc 0x30 1 = descField a.desc 0x30 1 ∧ lsRange ([a.shape.span false, d.shape.span true] ++ []) = none
      ∧ (s.frame 0).spanEffect .w (d.shape.span true) = none ∧ (∀ p ∈ [a.shape.span false], (s.frame 0).spanEffect .r p = none)
      ∧ (s.frame 0).regs.ac[15].toNat + (s.frame 0).acPending 15 + d.shape.lines.length < 2 ^ 32
      ∧ (s.frame 0).regs.mc[7].toNat + (s.frame 0).mcPending 7 + 1 < 2 ^ 32
      ∧ ((s.frame 0).moves.filter (!·.acked)).length < 64
      ∧ (s.frame 0).overlaps ([a.shape.span false, d.shape.span true] ++ []) = false := by
  unfold Ready; decide +kernel

def aMove : Move := { word := 0, src := .tensor (row32 0).shape, dst := .tensor (row32 0x1000).shape, lines := 1 }

theorem test_move_line :
    let d0 : Dev := { (onF { runs with moves := [aMove] }).toDev with mem := { mem := [(lsAddr 0 3, 7)] } }
    let d := after (.moveLineLanded 0 0 { line := 0 } [] false) (st d0)
    d.mem.byte (lsAddr 0 0x1003) = 7 ∧ (d.frame 0).regs.ac[0] = 1 := by decide +kernel

theorem witness_MoveLineLands :
    let fr : Frame := { runs with moves := [aMove] }
    fr.moves[0]? = some aMove ∧ (row32 0).shape.fmt = (row32 0x1000).shape.fmt ∧ (row32 0).shape.space = false
      ∧ (row32 0x1000).shape.space = false ∧ (row32 0).shape.scaleSpace = false
      ∧ (∃ ps, (row32 0x1000).shape.lines[0]? = some ps)
      ∧ fr.mayLand 0 0 ((List.range 32).map fun i => 0x1000 + i) = true := by
  refine ⟨by decide +kernel, by decide +kernel, by decide +kernel, by decide +kernel, by decide +kernel, ?_, by decide +kernel⟩
  exact Option.isSome_iff_exists.mp (by decide +kernel)

theorem witness_MoveAcknowledged :
    let m : Move := { aMove with front := 1 }
    let s := onF { runs with moves := [m] }
    (s.frame 0).killing = false ∧ (s.frame 0).preempt = false ∧ (s.frame 0).moves[0]? = some m ∧ m.acked = false
      ∧ m.front = m.lines ∧ m.copy = false ∧ (s.frame 0).tyQ = [] := by decide +kernel

/-- Weights of 32 rows and 8 columns, an activation row of 32, a result row of 8. -/
def mmaS : State :=
  onF (withT [mat 0x1000 8 1 0 4 0, mat 0 32 1 0 2 0, mat 0x2000 8 32 8 2 4, mat 0x3000 8 1 0 4 0]
    { runs with geom := { rows := 128, colgrp := 16 } })

theorem test_mma_queues :
    ((after (.mmaF 0 { dst := 0, a := 1, b := 2, mod := 0x18 }) mmaS).frame 0).mmaQ.length = 1 := by decide +kernel

theorem witness_MatrixIssues :
    let s := mmaS
    let fr := s.frame 0
    let x : Insn := { dst := 0, a := 1, b := 2, mod := 0x18 }
    let w : Kept := { shape := .f, fmt := .q8, signed := false, half := false, n := 8, k := 32, scaled := false, scales := [] }
    let t := (fr.regs.getT 0).shape
    let a := (fr.regs.getT 1).shape
    let b := (fr.regs.getT 2).shape
    mmaLegal .f x = true ∧ Ready s 0 ((mmaBody .f .mmaF).uses x) ∧ weightsOf .f (mmaMod x) fr a b = some w
      ∧ operandOk (fr.regs.getT 0) none false = true ∧ operandOk (fr.regs.getT 1) (some false) true = true
      ∧ operandOk (fr.regs.getT 2) (some true) false = true ∧ (fr.regs.getT 2).known = true ∧ b.fmt.arrayOperand = true
      ∧ b.scaled = false ∧ usesThird (mmaMod x) = false ∧ a.e0 = w.k ∧ t.e1 = a.e1 ∧ t.e0 = w.n
      ∧ (fr.regs.getT 0).known = true ∧ (fr.regs.getT 1).known = true ∧ a.fmt.arrayOperand = true ∧ a.scaled = false
      ∧ t.fmt ≠ .x8 ∧ t.fmt ≠ .g32 ∧ t.scaled = false ∧ (mmaMod x).start = true ∧ w.k ≤ Shape.f.groupRows
      ∧ w.n ≤ 8 * fr.geom.colgrp ∧ (mmaMod x).final = true ∧ lsRange [a.span false, b.span false, t.span true] = none
      ∧ fr.mmaQ.length < 4 ∧ fr.overlaps [a.span false, b.span false, t.span true] = false
      ∧ (s.toDev.allOwnComb 0 [(a.span false, .read), (b.span false, .read), (t.span true, .write)]).2 = true := by
  unfold Ready weightsOf; decide +kernel

/-- With a third operand (mode 2, added at the end), and with the weights of an earlier instruction (KEEP). -/
theorem witness_MatrixIssues_forms :
    let s := mmaS
    let fr := s.frame 0
    let x : Insn := { dst := 0, a := 1, b := 2, c := 3, mod := 0x1A }
    let y : Insn := { dst := 0, a := 1, mod := 0x98 }
    let w : Kept := { shape := .f, fmt := .q8, signed := false, half := false, n := 8, k := 32, scaled := false, scales := [] }
    let fy : Frame := { fr with arr := { fr.arr with loadedBy := #v[some w, none, none, none, none, none, none] } }
    (mmaLegal .f x = true ∧ Ready s 0 ((mmaBody .f .mmaF).uses x) ∧ usesThird (mmaMod x) = true
        ∧ operandOk (fr.regs.getT 3) none false = true ∧ (fr.regs.getT 3).known = true ∧ (fr.regs.getT 3).shape.e1 = 1
        ∧ (fr.regs.getT 3).shape.e0 = w.n ∧ (fr.regs.getT 3).shape.fmt = .q32)
      ∧ (mmaLegal .f y = true ∧ (mmaMod y).keep = true ∧ Ready (onF fy) 0 ((mmaBody .f .mmaF).uses y)
        ∧ weightsOf .f (mmaMod y) fy (fr.regs.getT 1).shape (fr.regs.getT 0).shape = some w
        ∧ w.half = ((fr.regs.getT 1).shape.fmt.half && w.fmt.half)) := by
  unfold Ready weightsOf; decide +kernel

def mmaJob : MmaJob :=
  { word := 0, shape := .f, group := 0, mode := 0, start := true, final := true, fast := false, merge := false, keep := false
    cbase := 0, k := 2, m := 1, n := 1, act := (mat 0 2 1 0 2 0).shape, wgt := some (mat 0x2000 1 2 2 3 4).shape
    wfmt := .q16, wsigned := false, dst := (mat 0x1000 1 1 0 4 0).shape, third := none, int := true, planes := 2 }

theorem witness_WeightPlanes :
    let s := onF { runs with mmaQ := [mmaJob] }
    let j : MmaJob := { mmaJob with loaded := 1 }
    (nextPlane (s.frame 0).mmaQ = some 0 ∧ (s.frame 0).mmaQ[0]? = some mmaJob ∧ (s.frame 0).arr.shape = none
        ∧ mmaJob.loaded + 1 < mmaJob.planes)
      ∧ nextPlane [j] = some 0 ∧ j.loaded + 1 = j.planes
      ∧ ∃ p, ((onF { runs with mmaQ := [j] }).toDev.readWeights 0 j (mat 0x2000 1 2 2 3 4).shape).2 = some p :=
  ⟨by decide +kernel, by decide +kernel, by decide +kernel, some_of (by decide +kernel)⟩

theorem witness_MatrixCompletes :
    let j : MmaJob := { mmaJob with loaded := 2, streaming := true }
    let s := onF { runs with mmaQ := [j] }
    (s.frame 0).mmaQ[0]? = some j ∧ j.streaming = true ∧ j.group = (0 : Fin 4).val
      ∧ (∀ k e, k < 0 → (s.frame 0).mmaQ[k]? = some e → e.streaming = false ∨ e.group ≠ 0)
      ∧ ∃ dv, (s.toDev.drainViews 0 j).2 = .ok dv :=
  ⟨by decide +kernel, rfl, rfl, fun _ _ h => absurd h (Nat.not_lt_zero _), ok_of_isOk (by decide +kernel)⟩

/-- Its one tile is over, or waits for the guard buffer; and with guard passes off it waits for nothing. -/
theorem witness_MatrixCompletes_tiles :
    let j : MmaJob := { mmaJob with loaded := 2, streaming := true }
    let on := fun (j : MmaJob) (e : Bool) => st { (onF { runs with mmaQ := [j] }).toDev with grd := { enable := e } }
    let ends := fun (j : MmaJob) (e : Bool) => match ((on j e).toDev.drainViews 0 j).2 with
      | .ok dv => some (((on j e).toDev.drainViews 0 j).1.streamTiles 0 0 dv (ceilDiv j.m 512 + 1)).2
      | .error _ => none
    ends j true = some true ∧ ends { j with bufHold := true } true = some false ∧ ends j false = some true
      ∧ (on j false).grd.enable = false ∧ j.bufHold = false := by decide +kernel

theorem test_mma_sum :
    let fr : Frame := { runs with geom := { rows := 128, colgrp := 16 }, mmaQ := [{ mmaJob with
      wgt := some (mat 0x2000 1 2 1 2 4).shape, wfmt := .q8, planes := 1 }] }
    let d0 : Dev := { (onF fr).toDev with
      grd := { enable := false }
      mem := { mem := [(lsAddr 0 0, 3), (lsAddr 0 1, 5), (lsAddr 0 0x2000, 7), (lsAddr 0 0x2001, 2)] } }
    let d := after (.mmaComplete { frame := 0, group := 0 }) (st (after (.weightPlaneLoaded 0) (st d0)))
    d.mem.byte (lsAddr 0 0x1000) = 31 := by decide +kernel

theorem test_wrong_shape :
    let fr : Frame := { runs with mmaQ := [mmaJob], arr := { shape := some .h2, rows := [(0, 1)] } }
    ((after (.weightPlaneLoaded 0) (onF fr)).frame 0).pend.map (·.code) = some 0x08 := by decide +kernel

/-- Three rows of 32 Q8 numbers. -/
def vecS : State := onF (withT [row32 0, row32 0x20, row32 0x40, row32 0x60])

theorem witness_VectorIssues :
    let s := vecS
    let r := (s.frame 0).regs
    let x : Insn := { dst := 2, a := 0, b := 1 }
    let sp := vecSpans .vadd x r
    Op.vadd ∈ vecOps ∧ vecLegal .vadd x = true ∧ Ready s 0 (vecUses .vadd x)
      ∧ (∀ i ∈ vecRegs .vadd x, (r.getT i).ok = true ∧ (r.getT i).known = true ∧ (r.getT i).shape.space = false)
      ∧ vecExtents .vadd (r.getT 2).shape (r.getT 0).shape (r.getT 1).shape (r.getT 0).shape (r.getT 0) = true
      ∧ vecFormats .vadd x (r.getT 2).shape (r.getT 0).shape (r.getT 1).shape (r.getT 0).shape = true
      ∧ lsRange (sp.1 ++ sp.2) = none ∧ sp.2 = [] ∧ (s.frame 0).vecQ.length < 8
      ∧ (s.frame 0).overlaps (sp.1 ++ sp.2) = false ∧ vecLegal .vcmp { dst := 7, a := 0, b := 1, mod := 0x57 } = true
      ∧ vecLegal .cvtg { dst := 0, a := 1, b := 2 } = true ∧ (r.getS 2).toNat < 256 := by
  unfold Ready vecOps vecRegs vecSpans; decide +kernel

def addJob : VecJob :=
  { word := 0, op := .vadd, x := { dst := 2, a := 0, b := 1 }, dst := some (mat 0x40 1 1 0 2 0).shape, a := (mat 0 1 1 0 2 0).shape
    b := some (mat 0x20 1 1 0 2 0).shape, pred := BitVec.allOnes 256 }

theorem witness_VectorCompletes :
    let s := onF { runs with vecQ := [addJob] }
    (s.frame 0).vecQ = addJob :: [] ∧ (s.frame 0).killing = false ∧ (s.frame 0).preempt = false ∧ addJob.op ≠ .vcmp
      ∧ ∃ sv, (s.toDev.scaleViews 0 addJob).2 = .ok sv :=
  ⟨by decide +kernel, by decide +kernel, by decide +kernel, by decide, ok_of_isOk (by decide +kernel)⟩

/-- A VCMP whose first operand is poisoned, and one that reads none. -/
theorem witness_VectorCompletes_compare :
    let j : VecJob := { addJob with op := .vcmp, x := { dst := 1, a := 0, b := 1 }, dst := none }
    let s := onF { runs with vecQ := [j] }
    let p := st { s.toDev with mem := s.mem.markGran (lsAddr 0 0) true }
    let psn := fun t : State => match (t.toDev.scaleViews 0 j).2 with
      | .ok sv => some (vecPoison j (t.toDev.scaleViews 0 j).1.mem { f := 0, space := false } sv)
      | .error _ => none
    (p.frame 0).vecQ = j :: [] ∧ j.op = .vcmp ∧ psn s = some false ∧ psn p = some true := by decide +kernel

theorem test_vadd_saturates :
    let d0 : Dev := { (onF { runs with vecQ := [addJob] }).toDev with mem := { mem := [(lsAddr 0 0, 200), (lsAddr 0 0x20, 100)] } }
    let d := after (.vectorComplete 0) (st d0)
    d.mem.byte (lsAddr 0 0x40) = 255 ∧ (d.frame 0).vecQ = [] := by decide +kernel

/-! ### The end of a task, the ramp, control and guard work -/

/-- A task of graph 5, context 1, queue 3. -/
def aTask : Task := { state := .taken, frame := some 0, ctr := 2, prog := 0x1000 }
def aGraph : Graph := { id := 5, ctx := 1, queue := 3, seq := 9, kind := .graph, tasks := [aTask] }
def ref0 : TaskRef := { graph := 5, idx := 0 }

/-- Context 1 ACTIVE, bound to stall 0, owning semaphores 0 to 15. -/
def ctx1 : Ctx := { state := .active, bound := true, weight := 1, semCount := 16, maxFrames := 384 }

/-- The device with context 1 and a graph, and another frame 0. -/
def onG (g : Graph) (fr : Frame) : State :=
  let d := (onF fr).toDev
  st { d with mkt := { d.mkt with ctxs := [(1, ctx1)], graphs := [g], nextGraph := 6 } }

/-- A frame of context 1 that may ring the bells of device 0 from its first semaphore on. -/
def ringer : Frame :=
  { withS [0x0F0006000000, 7, 100] with
    ctx := 1, ctxV := true, task := some ref0
    eff := (Vector.replicate 16 0).set 0 (BitVec.ofNat 128 (0x0F0006000000 + 2 ^ 64 + 8 * 2 ^ 96 + 2 ^ 104)) }

theorem witness_DoneEnds :
    Ready (onF ringer) 0 [] ∧ Ready (onF ringer) 0 [.s 0, .s 1]
      ∧ ((onF ringer).frame 0).grantsBell (((onF ringer).frame 0).regs.getS 0 &&& 0x7FFFFFFFFFFFFFF8#64).toNat = true
      ∧ ((onF runs).frame 0).grantsBell 0 = false ∧ Ready (onF runs) 0 [.s 0, .s 1] := by
  unfold Ready; decide +kernel


theorem test_bell_updates :
    (after (.bell 0 { a := 0, b := 1, mod := 1 }) (onG aGraph ringer)).mkt.semQ = [{ sem := 0, value := 7, add := true }] := by
  decide +kernel

theorem witness_BellRings :
    let s := onG aGraph ringer
    let t := st { s.toDev with wag := { s.wag with valid := true } }
    (s.frame 0).grantsBell 0x0F0006000000 = true ∧ (s.frame 0).quiet = true ∧ fabDev 0x0F0006000000 = s.lnk.devId
      ∧ Ready s 0 [.s 0, .s 1] ∧ 0 < semCount ∧ 0x0F0006000000 % 2 ^ 48 = semBase + 8 * 0 ∧ s.toDev.semOwner 0 = some 1
      ∧ (s.toDev.ctx 1).job = (s.toDev.ctx (s.frame 0).ctx).job ∧ Ready t 0 [.s 0, .s 1, .s 2] ∧ t.wag.valid = true
      ∧ t.toDev.waggle < ((t.frame 0).regs.getS 2).toNat := by
  unfold Ready; decide +kernel

theorem witness_TaskEnds :
    let s := onG aGraph { ringer with state := .ending }
    let t := onG aGraph { ringer with state := .faulted, pend := some { code := 3 } }
    ((s.frame 0).task = some ref0 ∧ (s.frame 0).quiet = true ∧ (s.frame 0).killing = false ∧ (s.frame 0).moves = []
        ∧ (s.frame 0).state = .ending ∧ (s.frame 0).ringing = none)
      ∧ (t.frame 0).task = some ref0 ∧ (t.frame 0).quiet = true ∧ (t.frame 0).state = .faulted ∧ (t.frame 0).pend = some { code := 3 }
      ∧ t.toDev.graph? ref0.graph = some aGraph ∧ aGraph.kind = .graph := by decide +kernel

theorem test_ramp_rises :
    ((after (.rampRiseInterval 0 { demand := 2049 }) (onF { runs with ramp := { level := 2 } })).frame 0).ramp.level = 3
      ∧ ((after (.rampRiseInterval 0 { demand := 2048 }) (onF { runs with ramp := { level := 2 } })).frame 0).ramp.level = 2 := by decide +kernel

theorem test_ramp_hold_counts :
    ((after (.rampRiseInterval 0 { demand := 6000, held := 4 }) (onF { runs with ramp := { level := 2 } })).frame 0).ramp.rampHold = 4 := by decide +kernel

theorem witness_RampRises :
    let s := onF { runs with mmaQ := [{ mmaJob with streaming := true }] }
    (s.frame 0).ramp.startHold = false ∧ (s.frame 0).ramp.level = 0 ∧ (∃ j ∈ (s.frame 0).mmaQ, j.streaming = true)
      ∧ 0 < (s.frame 0).ramp.cap ∧ (s.wag.starts.filter fun t => decide (s.toDev.waggle < t + 1024)).length < 96
      ∧ ((onF { runs with ramp := { startHold := true } }).frame 0).ramp.startHold = true
      ∧ 0 < ((onF { runs with ramp := { level := 2 } }).frame 0).ramp.level
      ∧ let b := st { s.toDev with wag := { s.wag with starts := List.replicate 96 0 } }
        96 ≤ (b.wag.starts.filter fun t => decide (b.toDev.waggle < t + 1024)).length := by decide +kernel

theorem test_ramp_falls :
    ((after (.rampFallInterval 0 2048) (onF { runs with ramp := { level := 3 } })).frame 0).ramp.level = 2
      ∧ ((after (.rampFallInterval 0 1) (onF { runs with ramp := { level := 1 } })).frame 0).ramp.level = 1 := by decide +kernel

theorem witness_FrameControl :
    let s := onF { runs with stores := [{ word := 0 }] }
    (s.frame 0).state = .running ∧ (s.frame 0).killing = false ∧ (s.frame 0).quiet = false
      ∧ (s.toDev.ctx (s.frame 0).ctx).orphanStop = false ∧ ((onF runs).frame 0).quiet = true := by decide +kernel

/-- A tile without rows, whose tally is that of its prefix alone: a byte of zero. -/
def aTile : GTile :=
  { id := 4, frame := 1, ctx := 1, seq := 0, n := 8, half := false, bytes := 64, mirror := { job := mmaJob }, pfx := [0]
    tally := some (crc64 [0]) }

/-- Frame 0 runs guard work on a tile of frame 1. -/
def onGuard (t : GTile) : State :=
  let d := (onF { idle with guardRun := some 4, guardWork := [4] }).toDev
  st { d with grd := { d.grd with tiles := [t] } }

theorem test_guard_passes : (after (.guardRunComplete 0 0) (onGuard aTile)).grd.tiles = [] := by decide +kernel

theorem witness_GuardRunsStart :
    let j : MmaJob := { mmaJob with bufHold := true }
    (((onF { runs with mmaQ := [j] }).frame 0).mmaQ[0]? = some j ∧ j.bufHold = true)
      ∧ let s := onF { idle with guardWork := [4] }
        (s.frame 0).guardWork = 4 :: [] ∧ s.up = true ∧ (s.frame 0).svc.insvc = true ∧ (s.frame 0).state = .idle
          ∧ (s.frame 0).task = none ∧ (s.frame 0).granted = none ∧ (s.frame 0).guardRun = none
          ∧ s.toDev.clusterUp 0 = true := by decide +kernel

/-- A later tile of an instruction that streams waits too. -/
theorem witness_GuardRunsStart_later :
    let j : MmaJob := { mmaJob with bufHold := true, streaming := true, tile := 1 }
    ((onF { runs with mmaQ := [j] }).frame 0).mmaQ[0]? = some j ∧ j.bufHold = true ∧ j.streaming = true := by decide +kernel

theorem witness_GuardVerdicts :
    let s := onGuard aTile
    let own := crc64 [0]
    let tally := fun fault : Word => aTile.mirror.tally aTile.pfx ^^^ fault
    let r := onGuard { aTile with guardTally := some (own ^^^ 6), guard := some 2 }
    ((s.frame 0).guardRun = some 4 ∧ (s.grd.tiles.find? (·.id == 4)) = some aTile ∧ aTile.tally = some own
        ∧ aTile.guardTally = none ∧ tally 0 = own ∧ tally 6 ≠ own)
      ∧ (r.grd.tiles.find? (·.id == 4)) = some { aTile with guardTally := some (own ^^^ 6), guard := some 2 }
      ∧ own ^^^ 6 ≠ own ∧ tally 6 = own ^^^ 6 := by
  decide +kernel

theorem witness_GuardWaitExpires :
    let w : Held430 := { ctx := 1, what := .graph 5, tiles := [4] }
    let d := (onGuard aTile).toDev
    let s := st { d with grd := { d.grd with waits := [w] } }
    s.grd.waits = w :: [] ∧ w.ctx = 1 ∧ w.begun = true ∧ w.tiles = [4] ∧ (s.grd.tiles.find? fun t => t.id == 4 && !t.unver) = some aTile := by
  decide +kernel

def flagged : State := onF { idle with svc := { insvc := true, flagged := true } }

theorem test_flagged_leaves :
    ((after (.flaggedFrameRemoval 0) flagged).frame 0).svc.cause = 2
      ∧ (after (.flaggedFrameRemoval 0) flagged).insvc.gen = 1 := by decide +kernel

theorem witness_FlaggedFrameLeaves :
    flagged.up = true ∧ (flagged.frame 0).svc.flagged = true ∧ (flagged.frame 0).svc.insvc = true
      ∧ (flagged.frame 0).state = .idle ∧ (flagged.frame 0).task = none ∧ (flagged.frame 0).granted = none
      ∧ (flagged.frame 0).guardRun = none ∧ (flagged.frame 0).guardWork = [] := by decide +kernel

/-! ### The Task Market -/

/-- An idle frame of stall 0 that asks for a task. -/
def asks : Frame := { idle with stallV := true, wantTake := true }
def offered : Graph := { aGraph with tasks := [{ aTask with state := .offered, frame := none }] }
def pendingG (n : Nat) : Graph := { aGraph with tasks := [{ aTask with state := .pending, frame := none, ctr := n }] }

theorem test_take_grant :
    let d := after (.takeGrant 0 none) (onG offered asks)
    (d.frame 0).granted = some ref0 ∧ (d.task? ref0).map (·.state) = some .taken := by decide +kernel

theorem witness_TakeIsRequested :
    let s := onF { asks with wantTake := false }
    s.up = true ∧ (s.frame 0).svc.insvc = true ∧ (s.frame 0).stallV = true ∧ (s.frame 0).svc.flagged = false
      ∧ (s.frame 0).granted = none ∧ (s.frame 0).guardRun = none ∧ s.toDev.clusterUp 0 = true
      ∧ (s.frame 0).state = .idle := by decide +kernel

theorem witness_TakeIsGranted :
    let s := onG offered asks
    let none' := onG aGraph asks
    let x : Task := { aTask with state := .offered, frame := none }
    (s.frame 0).wantTake = true ∧ s.toDev.clusterUp 0 = true ∧ (s.frame 0).granted = none ∧ (s.frame 0).svc.flagged = false
      ∧ (s.frame 0).guardWork = [] ∧ (s.frame 0).stallV = true ∧ s.toDev.graph? 5 = some offered ∧ offered.tasks[0]? = some x
      ∧ x.fits (s.frame 0) = true ∧ s.toDev.mayGrant offered.ctx = true
      ∧ (s.toDev.ctx offered.ctx).stall.toNat = (s.frame 0).stall.toNat ∧ (s.toDev.chooseTake 0).2 = some ref0
      ∧ (none'.toDev.chooseTake 0).2 = none ∧ (none'.frame 0).wantTake = true := by decide +kernel

theorem witness_DispatchRefused :
    (onF idle).toDev.task? ref0 = none
      ∧ (let s := onG aGraph asks
        s.toDev.graph? 5 = some aGraph ∧ aGraph.tasks[0]? = some aTask ∧ aTask.state ≠ .offered)
      ∧ let s := onG offered { asks with stall := 5 }
        s.toDev.graph? 5 = some offered ∧ (s.toDev.ctx offered.ctx).stall.toNat ≠ (s.frame 0).stall.toNat := by decide +kernel

/-- A dispatch is refused whether or not the frame asks for a task. -/
theorem test_dispatch_refused :
    (after (.takeGrant 0 (some ref0)) (onG aGraph idle)).mkt.dispatchRefused = true := by decide +kernel

theorem test_take_starts :
    ((after (.takeComplete 0) (onG aGraph { asks with granted := some ref0 })).frame 0).pc = 0x1000 := by decide +kernel

theorem witness_TakeCompletes :
    let s := onG aGraph { asks with granted := some ref0 }
    (s.frame 0).granted = some ref0 ∧ (s.frame 0).state = .idle ∧ (s.frame 0).task = none ∧ (s.frame 0).guardRun = none
      ∧ s.toDev.graph? 5 = some aGraph ∧ aGraph.tasks[0]? = some aTask ∧ aTask.effN = 0 ∧ aGraph.kind = .graph := by
  decide +kernel

/-- A task with an effect list of one entry at virtual address 0x100, which this entry spells. -/
def effS (entry : Nat) (tlb : Bool := true) : State :=
  let g : Graph := { aGraph with tasks := [{ aTask with eff := 0x100, effN := 1 }] }
  let d := (onG g { asks with granted := some ref0 }).toDev
  let m := d.mem.storeBytes 0x10100 (le 16 entry)
  st { d with mem := { m with tlbs := if tlb then [(0, [{ ctx := 1, level := 3, vpn := 0, pte := 0x1001F }])] else [] } }

theorem witness_TakeReadsEffects :
    let good := 0x40 + 64 * 2 ^ 64 + 15 * 2 ^ 96
    let s := effS good
    let taken := fun s : State => s.toDev.setFrame 0 ((s.frame 0).taken 0 1 ref0 { aTask with eff := 0x100, effN := 1 } s.ns)
    let seg : Seg := { pa := 0x10100, len := 16, remote := none }
    ((s.frame 0).granted = some ref0 ∧ (s.frame 0).state = .idle ∧ (s.frame 0).task = none ∧ (s.frame 0).guardRun = none
        ∧ (s.frame 0).preempt = false ∧ (s.toDev.task? ref0).map (·.effN) = some 1
        ∧ (((taken s).range 0 1 .read 0x100 16).2.toOption = some [seg]) ∧ s.mem.readPoison seg.pa seg.len = false
        ∧ goodEffect (unle (s.mem.read 0x10100 16)) ∧ unle (s.mem.read 0x10100 16) / 2 ^ 64 % 2 ^ 32 ≠ 0)
      ∧ ¬ goodEffect (unle ((effS (good + 2 ^ 100)).mem.read 0x10100 16))
      ∧ ((taken (effS good false)).range 0 1 .read 0x100 16).2.toOption = none := by
  unfold goodEffect; decide +kernel

theorem test_take_reads_effects :
    ((after (.takeComplete 0) (effS (0x40 + 64 * 2 ^ 64 + 15 * 2 ^ 96))).frame 0).eff[0]
        = BitVec.ofNat 128 (0x40 + 64 * 2 ^ 64 + 15 * 2 ^ 96)
      ∧ ((after (.takeComplete 0) (effS (0x41 + 64 * 2 ^ 64 + 15 * 2 ^ 96))).frame 0).pend.map (·.code) = some 4 := by
  decide +kernel

/-- A decrement on its way to the task, in a graph of its own. -/
def aDec : Dec := { task := ref0, ctx := 1, queue := 3, tag := 0 }

def decsOn (gs : List Graph) (cr : SMap Credit := []) : State :=
  let d := (onG aGraph idle).toDev
  st { d with mkt := { d.mkt with graphs := gs, credits := cr, decs := [aDec] } }

def decs (n : Nat) : State := decsOn [pendingG n]

theorem test_decrement_offers : ((after .successorDecrement (decs 1)).task? ref0).map (·.state) = some .offered := by
  decide +kernel

theorem test_decrement_underflow :
    ((after .successorDecrement (decsOn [])).ctx 1).state = .faulted := by decide +kernel

/-- The task is PENDING with a counter of 0, 1 or 2. -/
theorem witness_Decrements :
    (∀ n ∈ [0, 1, 2], (decs n).mkt.decs = aDec :: [] ∧ (decs n).toDev.graph? 5 = some (pendingG n)
      ∧ (pendingG n).tasks[0]? = some { aTask with state := .pending, frame := none, ctr := n }
      ∧ (pendingG n).aborted = false ∧ (pendingG n).destroyed = false) ∧ aTask.credit = false := by decide +kernel

/-- A decrement whose graph is gone, one whose graph is aborted, one whose task is TAKEN, and two of a task with credits. -/
theorem witness_Decrements_others :
    let g : Graph := { aGraph with tasks := [{ aTask with state := .pending, frame := none, ctr := 1, credit := true, crdCh := 6 }] }
    let c : SMap Credit := [(6, { v := true })]
    ((decsOn []).mkt.decs = aDec :: [] ∧ (decsOn []).toDev.task? ref0 = none)
      ∧ ((decsOn [{ aGraph with aborted := true }]).toDev.graph? 5 = some { aGraph with aborted := true })
      ∧ ((decsOn [aGraph]).toDev.graph? 5 = some aGraph ∧ aGraph.tasks[0]? = some aTask ∧ aTask.state ≠ .pending)
      ∧ ((decsOn [g] c).toDev.graph? 5 = some g ∧ ((decsOn [g] c).toDev.credit 6).v = true)
      ∧ ((decsOn [g]).toDev.graph? 5 = some g ∧ ((decsOn [g]).toDev.credit 6).v = false) := by decide +kernel

/-- An update of semaphore 7 under way, with a watcher of the task. -/
def semS (ws : List Watcher) : State :=
  let d := (onG (pendingG 2) idle).toDev
  st { d with mkt := { d.mkt with semQ := [{ sem := 7, value := 3, add := false }], watchers := ws } }

theorem test_sem_add_wraps :
    let d := (onG (pendingG 2) idle).toDev
    let s := st { d with mkt := { d.mkt with
      semQ := [{ sem := 7, value := 3, add := true }], sems := [(7, 0xFFFFFFFFFFFFFFFF)] } }
    (after .semaphoreUpdate s).sem 7 = 2 := by decide +kernel

theorem witness_SemaphoreUpdates :
    let s := semS []
    let u : SemUpd := { sem := 7, value := 3, add := false }
    let e : Entry := { seq := 9, bytes := zeros 64 }
    let on (r : QRec) : State := st { s.toDev with hif := { s.hif with queues := [(3, r)] } }
    let w := on { state := .fetching, ctx := 1, entries := [e] }
    let tail : QRec := { state := .idle, ctx := 1, tailSem := true, sem := 7 }
    (s.mkt.semQ = u :: [] ∧ s.hif.queues = [] ∧ s.mkt.watchers = [] ∧ s.mkt.credits = [])
      ∧ (w.toDev.entry? 3 9 = some e ∧ ∀ q ∈ w.hif.queues, q.2.tailSem = false)
      ∧ ((on tail).hif.queues = [(3, tail)] ∧ tail.state = .idle ∧ tail.tailSem = true ∧ tail.sem.toNat = u.sem) := by
  decide +kernel

/-- With watchers and credit channels of other semaphores, and the tail's queue between two others. -/
theorem witness_SemaphoreUpdates_among :
    let tail : QRec := { state := .idle, ctx := 1, tailSem := true, sem := 7 }
    let d := (semS [{ sem := 8, target := 1, what := .task aDec }]).toDev
    let s := st { d with
      mkt := { d.mkt with credits := [(2, { v := true, sem := 9 })] }
      hif := { d.hif with queues := [(1, { tail with sem := 8 }), (3, tail), (5, { tail with state := .free })] } }
    (∀ w ∈ s.mkt.watchers, w.sem ≠ 7) ∧ (∀ c ∈ s.mkt.credits, c.2.v = false ∨ c.2.sem.toNat ≠ 7)
      ∧ SMap.rising s.hif.queues = true ∧ SMap.get? s.hif.queues 3 = some tail
      ∧ (∀ p ∈ s.hif.queues, p.1 ≠ 3 → p.2.state = .free ∨ p.2.tailSem = false ∨ p.2.sem.toNat ≠ 7) := by decide +kernel

theorem test_semaphore_rings_tail :
    let tail : QRec := { state := .idle, ctx := 1, tailSem := true, sem := 7 }
    let d := (semS []).toDev
    let s := st { d with hif := { d.hif with queues := [(1, { tail with sem := 8 }), (3, tail)] } }
    ((after .semaphoreUpdate s).queue 3).state = .fetching ∧ ((after .semaphoreUpdate s).queue 1).state = .idle := by
  decide +kernel

theorem witness_WatcherFires :
    let w : Watcher := { sem := 7, target := 3, what := .task aDec }
    let s := semS [w]
    let one := st { s.toDev with mkt := { s.mkt with graphs := [pendingG 1] } }
    (s.mkt.semQ = { sem := 7, value := 3, add := false } :: [] ∧ s.hif.queues = [] ∧ s.mkt.watchers = [w]
      ∧ w.target ≤ (3 : Word).toNat ∧ s.mkt.credits = [] ∧ s.toDev.graph? 5 = some (pendingG 2)
      ∧ (pendingG 2).tasks[0]? = some { aTask with state := .pending, frame := none, ctr := 2 } ∧ 1 < aTask.ctr)
      ∧ one.toDev.graph? 5 = some (pendingG 1)
      ∧ (pendingG 1).tasks[0]? = some { aTask with state := .pending, frame := none, ctr := 1 } ∧ aTask.credit = false := by
  decide +kernel

/-- The watcher stands between one of another semaphore and one whose target is higher. -/
theorem witness_WatcherFires_among :
    let w : Watcher := { sem := 7, target := 3, what := .task aDec }
    let o : List Watcher := [{ w with sem := 6 }, { w with target := 4 }]
    (semS [{ w with sem := 6 }, w, { w with target := 4 }]).mkt.watchers = [{ w with sem := 6 }] ++ w :: [{ w with target := 4 }]
      ∧ ∀ x ∈ o, x.sem ≠ 7 ∨ (3 : Word).toNat < x.target := by decide +kernel

theorem witness_HungGraph :
    let d := (onG aGraph idle).toDev
    let s := st { d with hif := { d.hif with queues := [(3, { state := .fetching, ctx := 1, hangMs := 10 })] } }
    s.toDev.graph? 5 = some aGraph ∧ aGraph.completed = false ∧ aGraph.aborted = false ∧ aGraph.destroyed = false
      ∧ aGraph.hung = false ∧ aGraph.kind = .graph ∧ (s.toDev.ctx aGraph.ctx).state = .active
      ∧ (s.toDev.ctx aGraph.ctx).bound = true ∧ (s.toDev.queue aGraph.queue).hangMs ≠ 0 := by decide +kernel

/-! ### Contexts, stalls and saves -/

/-- Context 1 in another form, with frame 0. -/
def onC (x : Ctx) (fr : Frame) : State :=
  let d := (onF fr).toDev
  st { d with mkt := { d.mkt with ctxs := [(1, x)], graphs := [aGraph] } }

/-- A frame that runs the task of context 1 in stall 0. -/
def busy : Frame := { runs with ctx := 1, ctxV := true, task := some ref0, stallV := true }

theorem not_busy (x : Ctx) : (onC x idle).toDev.ctxBusy 1 = false :=
  any_onF idle (fun y => (y.task.isSome && y.ctx == 1) || match y.granted with
    | some t => (((onC x idle).toDev.graph? t.graph).map (·.ctx)) == some 1 | none => false) rfl

theorem is_busy (x : Ctx) (fr : Frame) (h : (fr.task.isSome && fr.ctx == 1) = true) : (onC x fr).toDev.ctxBusy 1 = true :=
  (any_onF fr (fun y => (y.task.isSome && y.ctx == 1) || match y.granted with
    | some t => (((onC x fr).toDev.graph? t.graph).map (·.ctx)) == some 1 | none => false) rfl).trans
      (by rw [h, Bool.true_or])

/-- The frames of stall 0 when only frame 0 can be in a stall. -/
theorem stall_of (d : Dev) (fr : Frame) (h : d.fr = (onF fr).toDev.fr) :
    d.stallFrames 0 = if (fr.stallV && fr.stall.toNat == 0) = true then [0] else [] := by
  have e : ∀ f, d.frame f = (onF fr).toDev.frame f := fun f => by simp only [Dev.frame, h]
  simp only [Dev.stallFrames, e]
  exact filter_onF fr (fun y => y.stallV && y.stall.toNat == 0) rfl

theorem witness_BindAndUnbind :
    let s := onC { ctx1 with bound := false } { idle with stallV := true }
    ((s.toDev.ctx 1).state = .active ∧ (s.toDev.ctx 1).bound = false ∧ s.toDev.schedUp = true
        ∧ s.toDev.stallFits (s.toDev.ctx 1) 0 = true)
      ∧ (((onC ctx1 idle).toDev.ctx 1).bound = true ∧ ((onC ctx1 idle).toDev.ctx 1).unbinding = false
        ∧ (onC ctx1 idle).toDev.ctxBusy 1 = false)
      ∧ (onC ctx1 busy).toDev.ctxBusy 1 = true ∧ (onC { ctx1 with bound := false } { idle with stallV := true }).toDev.hasSaved 1 = false := by
  refine ⟨⟨by decide +kernel, by decide +kernel, by decide +kernel, ?_⟩, ⟨by decide +kernel, by decide +kernel,
    not_busy _⟩, is_busy _ _ (by decide +kernel), by decide +kernel⟩
  have e := stall_of (onC { ctx1 with bound := false } { idle with stallV := true }).toDev { idle with stallV := true } rfl
  rw [Dev.stallFits, e]
  decide +kernel

/-- A SAVED context whose images lie at 0x1000, with its task, its stall's frame and that frame's column groups. -/
def savedS (bs : List Byte) (cols : Nat) : State :=
  let g : Graph := { aGraph with tasks := [{ aTask with state := .saved, frame := none }] }
  let img : SaveImg := { ctx := 1, gen := 4, images := [{ pa := 0, frame := 0, colgrp := 16, task := ref0, st := busy }] }
  let x : Ctx := { ctx1 with state := .saved, bound := false, saveGen := 4, saveArea := 0x1000 }
  let d := (onC x { idle with stallV := true, geom := { colgrp := cols } }).toDev
  st { d with mem := d.mem.storeBytes 0x1000 bs, mkt := { d.mkt with graphs := [g], saves := [img] } }

theorem witness_BindAndUnbind_saved :
    let img : SaveImg := { ctx := 1, gen := 4, images := [{ pa := 0, frame := 0, colgrp := 16, task := ref0, st := busy }] }
    let hdr := le 8 4 ++ zeros 48 ++ le 8 4
    ((savedS hdr 16).toDev.ctx 1).state = .saved ∧ ((savedS hdr 16).toDev.ctx 1).orphaned = false
      ∧ (savedS [] 16).toDev.goodImage 1 = none ∧ (savedS hdr 16).toDev.goodImage 1 = some img
      ∧ (img.images.filter fun i => (((savedS hdr 16).toDev.task? i.task).map (·.state)) == some .saved) = img.images
      ∧ ((savedS hdr 16).toDev.placeImages 0 img.images []).isSome = true
      ∧ (savedS hdr 12).toDev.placeImages 0 img.images [] = none := by
  refine ⟨by decide +kernel, by decide +kernel, by decide +kernel, by decide +kernel, by decide +kernel, ?_, ?_⟩
  · have e := stall_of (savedS (le 8 4 ++ zeros 48 ++ le 8 4) 16).toDev { idle with stallV := true, geom := { colgrp := 16 } } rfl
    simp only [Dev.placeImages, e]
    decide +kernel
  · have e := stall_of (savedS (le 8 4 ++ zeros 48 ++ le 8 4) 12).toDev { idle with stallV := true, geom := { colgrp := 12 } } rfl
    simp only [Dev.placeImages, e]
    decide +kernel

theorem witness_PreemptWaitExpires :
    let d := (onC { ctx1 with unbinding := true, insnPreempt := true } busy).toDev
    let s := st { d with hif := { d.hif with agreed := 5 } }
    s.toDev.schedUp = true ∧ (s.toDev.ctx 1).unbinding = true ∧ (s.toDev.ctx 1).insnPreempt = true
      ∧ s.hif.agreed.getLsbD 2 = true ∧ (s.toDev.ctx 1).state = .active ∧ s.toDev.ctxBusy 1 = true := by decide +kernel

theorem witness_StallsReallocated :
    ((onF idle).toDev.schedUp = true ∧ ((onF idle).frame 0).state = .idle ∧ ((onF idle).frame 0).task = none
        ∧ ((onF idle).frame 0).granted = none ∧ ((onF idle).frame 0).guardRun = none
        ∧ ((onF idle).frame 0).svc.insvc = true)
      ∧ ∀ g : FrameId, ((onF idle).frame g).svc.flagged = false ∧ ((onF idle).frame g).svc.excluded = false :=
  ⟨by decide +kernel, fun g => by rw [show (onF idle).frame g = _ from frame_onF idle g, ite_self]; decide⟩

theorem witness_SaveCompletes :
    (onC { ctx1 with state := .saving } { busy with state := .saving }).toDev.drained 1 = true := by
  let fr : Frame := { busy with state := .saving }
  let s := onC { ctx1 with state := .saving } fr
  have h1 : s.toDev.ctxFrames 1 = [0] := filter_onF fr (fun y => y.task.isSome && y.ctx == 1) rfl
  have h2 : s.toDev.grantedTo 1 = [] := filter_onF fr (fun y => match y.granted with
    | some t => ((s.toDev.graph? t.graph).map (·.ctx)) == some 1 | none => false) rfl
  change s.toDev.drained 1 = true
  rw [Dev.drained, h1, h2]
  decide +kernel

theorem witness_RestoreCompletes :
    let img : SaveImg := { ctx := 1, gen := 4, images := [{ pa := 0, frame := 0, colgrp := 16, task := ref0, st := busy }] }
    let d := (onC { ctx1 with state := .restoring, saveGen := 4 } { busy with state := .restoring }).toDev
    let s := st { d with mkt := { d.mkt with saves := [img] } }
    (s.toDev.ctx 1).state = .restoring
      ∧ (s.mkt.saves.find? fun i => i.ctx == 1 && i.gen == (s.toDev.ctx 1).saveGen) = some img
      ∧ (s.frame 0).state = .restoring ∧ (s.frame 0).ctx = 1 ∧ (∃ i ∈ img.images, some i.task = (s.frame 0).task)
      ∧ (∀ g ∈ s.mkt.graphs, g.completed = false) ∧ (∀ i ∈ img.images, i.st.killing = false ∧ i.st.quiet = true) := by
  decide +kernel

theorem witness_ContextIsGone :
    let s := onC { ctx1 with state := .destroying } idle
    SMap.rising s.mkt.ctxs = true ∧ (s.toDev.ctx 1).state = .destroying ∧ s.toDev.ctxBusy 1 = false
      ∧ (s.toDev.ctx 1).disc.entry = none :=
  ⟨by decide +kernel, by decide +kernel, not_busy _, by decide +kernel⟩

/-- A destroy that an entry of queue 0 asked for. -/
def destroyS : State :=
  let s := onC { ctx1 with state := .destroying, disc := { entry := some 4 } } idle
  let e : Entry := { seq := 4, bytes := zeros 64 }
  st { s.toDev with hif := { s.hif with queues := [(0, { state := .fetching, ctx := 0xFFFF, entries := [e] })] } }

theorem witness_ContextIsGone_entry :
    (destroyS.toDev.ctx 1).disc.entry = some 4 ∧ (destroyS.toDev.entry? 0 4).isSome = true
      ∧ SMap.rising destroyS.mkt.ctxs = true ∧ (destroyS.toDev.ctx 1).state = .destroying
      ∧ destroyS.toDev.ctxBusy 1 = false :=
  ⟨by decide +kernel, by decide +kernel, by decide +kernel, by decide +kernel, not_busy _⟩

theorem witness_StallResets :
    let t := onC { ctx1 with state := .saving } { busy with state := .saving }
    let u := onC { ctx1 with state := .saving, resetWait := true } { busy with state := .saving }
    let p : Frame := { busy with preempt := true }
    ((onC ctx1 p).toDev.schedUp = true ∧ (onC ctx1 p).toDev.savingOn 0 = []
        ∧ ((onC ctx1 p).frame 0).stallV = true ∧ ((onC ctx1 p).frame 0).stall.toNat = 0 ∧ ((onC ctx1 p).frame 0).task ≠ none
        ∧ ((onC ctx1 p).frame 0).preempt = true ∧ ((onC ctx1 p).frame 0).state ≠ .faulted)
      ∧ (t.toDev.savingOn 0 = [1] ∧ (t.frame 0).stallV = true ∧ (t.frame 0).task ≠ none ∧ (t.frame 0).state = .saving)
      ∧ ((u.toDev.ctx 1).state = .saving ∧ (u.toDev.ctx 1).resetWait = true ∧ (u.toDev.ctx 1).destroyWait = false)
      ∧ (u.toDev.setCtx 1 { u.toDev.ctx 1 with
          state := .stateLost, resetWait := false, saveFault := false, orphanStop := false, unbinding := false }).savingOn 0
        = [] := by
  refine ⟨⟨by decide +kernel, ?_, by decide +kernel⟩, ⟨?_, by decide +kernel⟩, by decide +kernel, ?_⟩
  · rw [Dev.savingOn, stall_of (onC ctx1 { busy with preempt := true }).toDev { busy with preempt := true } rfl]
    decide +kernel
  · have e := stall_of (onC { ctx1 with state := .saving } { busy with state := .saving }).toDev { busy with state := .saving } rfl
    rw [Dev.savingOn, e]
    decide +kernel
  · have e := stall_of ((onC { ctx1 with state := .saving, resetWait := true } { busy with state := .saving }).toDev.setCtx 1
      { ctx1 with state := .stateLost }) { busy with state := .saving } rfl
    change Dev.savingOn (Dev.setCtx _ 1 { ctx1 with state := .stateLost }) 0 = []
    rw [Dev.savingOn, e]
    decide +kernel

/-- No frame of a stall that nobody asked to stop calls for its reset. -/
theorem witness_StallResets_not_due :
    ¬ ∃ f : FrameId, ((onC ctx1 busy).frame f).stallV = true ∧ ((onC ctx1 busy).frame f).stall.toNat = 0
      ∧ ((onC ctx1 busy).frame f).task ≠ none
      ∧ (((onC ctx1 busy).frame f).killing = true
        ∨ ((onC ctx1 busy).frame f).preempt = true ∧ ((onC ctx1 busy).frame f).state ≠ .faulted
        ∨ ((onC ctx1 busy).frame f).state = .saving) := by
  intro ⟨f, h⟩
  rw [show (onC ctx1 busy).frame f = _ from frame_onF busy f] at h
  split at h
  · exact absurd h (by decide)
  · exact absurd h (by decide)

/-! ### Queues -/

/-- An entry of queue 3: TYPE and FLAGS, then fields at their offsets. -/
def entry (type flags : Nat) (fs : List Byte := []) : Entry :=
  { seq := 9, bytes := [BitVec.ofNat 8 type, BitVec.ofNat 8 flags] ++ zeros 14 ++ fs ++ zeros (48 - fs.length) }

/-- Queue 3 of context 1 with these entries open. -/
def onQ (es : List Entry) (st_ : QState := .fetching) (holder : Option Nat := none) : State :=
  let d := (onC ctx1 idle).toDev
  st { d with
    mkt := { d.mkt with graphs := [] }
    hif := { d.hif with queues := [(3, { state := st_, ctx := 1, cring := 2, log2 := 6, head := 9, entries := es, holder := holder })] } }

theorem test_nop_entry : ((after (.nopEntry 3) (onQ [entry 8 0])).queue 3).completed = 1 := by decide +kernel

theorem test_doorbell_idle : ((after (.doorbell 3) (onQ [] .idle)).queue 3).state = .fetching := by decide +kernel

theorem witness_Doorbells :
    (onQ []).up = true ∧ ((onQ [] .free).toDev.queue 3).state = .free ∧ ((onQ [] .idle).toDev.queue 3).state = .idle
      ∧ ((onQ [] .stopped).toDev.queue 3).state = .stopped
      ∧ ((onQ [] .held).toDev.queue 3).state = .held ∧ ((onQ [] .held).toDev.queue 3).holder = none := by decide +kernel

/-- Queue 3 with one entry to fetch at virtual address 0, through a translation of the queue fetchers. -/
def fetchS : State :=
  let d := (onC ctx1 idle).toDev
  st { d with
    mem := { d.mem with
      mem := [(0x10000, 8)], tlbs := [(448, [{ ctx := 1, level := 3, vpn := 0, pte := 0x1001F }])] }
    hif := { d.hif with queues := [(3, {
      state := .fetching, ctx := 1, log2 := 6, tail := 1, snap := true, headA := 0x8000 })] } }

theorem witness_EntryFetched :
    let s := fetchS
    let r := s.toDev.queue 3
    let e : Entry := { seq := 0, bytes := 8 :: zeros 63 }
    let d0 := s.toDev.updQueue 3 fun r => { r with state := .fetching }
    s.up = true ∧ s.toDev.mayFetch 3 = true ∧ r.holder = none ∧ s.toDev.frontEntry 3 = none ∧ r.state = .fetching
      ∧ r.snap = true ∧ r.head < r.tail ∧ (d0.ringRead r.ctx (r.ringAddrOf r.head) 64).2.toOption = some (8 :: zeros 63, false)
      ∧ ((d0.ringRead r.ctx (r.ringAddrOf r.head) 64).1.ringWrite r.ctx r.headA.toNat (le 8 (r.head + 1))).2.toOption = some ()
      ∧ e.type = 8 ∧ e.ordered = false ∧ r.headOwed = false ∧ fetchS.toDev.badEntry 3 e = none
      ∧ let q : QRec := { state := .fetching, ctx := 1, snap := true }
        let t := st { s.toDev with hif := { s.hif with queues := [(3, q)] } }
        t.toDev.mayFetch 3 = true ∧ t.toDev.frontEntry 3 = none ∧ q.tail ≤ q.head ∧ q.rung = false := by decide +kernel

theorem witness_EntriesStart :
    let w := entry 4 0 ([7] ++ zeros 7 ++ [5])
    let c := entry 3 0
    let v := { entry 4 0 (zeros 16 ++ [1]) with state := .watching }
    ((onQ [entry 8 0]).toDev.starting 3 8 = some (entry 8 0))
      ∧ ((onQ [w]).toDev.starting 3 4 = some w ∧ ((onQ [w]).toDev.sem (field w.bytes 0x10 4)).toNat < field w.bytes 0x18 8
        ∧ (onQ [w]).mkt.watchers.length < 262144)
      ∧ ((onQ [entry 4 0]).toDev.starting 3 4 = some (entry 4 0)
        ∧ field (entry 4 0).bytes 0x18 8 ≤ ((onQ [entry 4 0]).toDev.sem 0).toNat)
      ∧ (((onQ [v]).toDev.queue 3).entries = [v] ∧ v.state = .watching ∧ field v.bytes 0x20 4 ≠ 0)
      ∧ (onQ [c]).toDev.starting 3 3 = some c ∧ ((onQ [c]).toDev.queue 3).ctx = (1 : BitVec 12).setWidth 16 := by
  decide +kernel

theorem witness_EntryCompletes :
    bit (field (entry 8 0).bytes 1 1) 0 = false ∧ bit (field (entry 8 1).bytes 1 1) 0 = true ∧ Status.noQuota ≠ .ok := by
  decide +kernel

/-- Queue 3 with a TASK_BATCH of one task whose record is at virtual address 0, for a context with a quota. -/
def batchS (quota : BitVec 32) (gs : List Graph) : State :=
  let e := entry 2 0 (zeros 8 ++ [1])
  let d := (onQ [e]).toDev
  st { d with
    mem := { d.mem with tlbs := [(450, [{ ctx := 1, level := 3, vpn := 0, pte := 0x1001F }])] }
    mkt := { d.mkt with ctxs := [(1, { ctx1 with maxTasks := quota })], graphs := gs } }

theorem test_task_batch : (after (.taskBatch 3) (batchS 4 [])).mkt.graphs.map (fun g => g.tasks.map (·.state)) = [[.offered]] := by
  decide +kernel

theorem witness_Launches :
    let e := entry 2 0 (zeros 8 ++ [1])
    (∀ s ∈ [batchS 4 [], batchS 1 [aGraph], batchS 0 []], (s.toDev.queue 3).ctx = (1 : BitVec 12).setWidth 16
        ∧ s.toDev.starting 3 2 = some e)
      ∧ ((batchS 4 []).toDev.launchEntry 1 3 e true).2 = .started
      ∧ ((batchS 1 [aGraph]).toDev.launchEntry 1 3 e true).2 = .held
      ∧ ((batchS 0 []).toDev.launchEntry 1 3 e true).2 = .noQuota := by decide +kernel

theorem witness_BatchRegisters :
    let e := entry 2 0 (zeros 8 ++ [1])
    let s := batchS 4 []
    let r := s.toDev.readVirt unitMkt 1 0 64
    s.toDev.starting 3 2 = some e ∧ (s.toDev.queue 3).ctx = (1 : BitVec 12).setWidth 16 ∧ field e.bytes 0x18 4 = 1
      ∧ field e.bytes 0x10 8 = 0 ∧ s.toDev.liveOf 1 + 1 ≤ (s.toDev.ctx 1).maxTasks.toNat ∧ s.mkt.watchers.length ≤ watcherCap
      ∧ r.2.toOption = some (zeros 64, false) ∧ (Task.records 0 true (zeros 64) 1).isSome = true := by decide +kernel

theorem witness_SignalSets :
    let e := entry 5 0 (le 8 0x0F0006000008)
    let s := onQ [e]
    let addr : Word := BitVec.ofNat 64 (field e.bytes 0x10 8)
    s.toDev.starting 3 5 = some e ∧ (s.toDev.queue 3).ctx = (1 : BitVec 12).setWidth 16 ∧ fabDev addr = s.lnk.devId
      ∧ addr.toNat % 2 ^ 48 / 8 * 8 = semBase + 8 * 1 ∧ 1 < semCount ∧ s.toDev.semOwner 1 = some 1
      ∧ (s.toDev.ctx 1).job = (s.toDev.ctx 1).job := by decide +kernel

/-- Barrier group 2 of context 1: two devices, this one member 0. -/
def aGroup : Group := { state := .idle, nIn := 2, nOut := 1, ctx := 1, key := 77, job := 5, members := [0, 1], relSem := 0xFFFFFFFF }

theorem witness_BarrierEntryArrives :
    let e := entry 6 0 [2]
    let d := (onQ [e]).toDev
    let s := st { d with wag := { d.wag with groups := [(2, aGroup)] } }
    s.toDev.starting 3 6 = some e ∧ field e.bytes 0x10 2 = 2 ∧ (s.toDev.group 2).state ≠ .free
      ∧ (s.toDev.group 2).ctx = (s.toDev.queue 3).ctx ∧ ((onQ [e]).toDev.group 2).state = .free := by decide +kernel

theorem witness_CompletionRings :
    let w : WaitRec := { ring := 2, ctx := 1, bytes := zeros 64, irq := false }
    let d := (onQ []).toDev
    let ring (c : CRing) : State := st { d with hif := { d.hif with crings := [(2, c)], waiting := [w] } }
    let tlb (s : State) : State := st { s.toDev with mem := { s.mem with
      tlbs := [(448, [{ ctx := 1, level := 3, vpn := 0, pte := 0x1001F }])] } }
    let c : CRing := { active := true, ctx := 1, log2 := 6, headA := 0x8000 }
    (((tlb (ring c)).hif.waiting = [w] ∧ w.ctx = ((tlb (ring c)).toDev.cring 2).ctx ∧ w.graph = none
        ∧ ((tlb (ring c)).toDev.tryRecord w).2 = true ∧ ((tlb (ring c)).toDev.tryRecord w).1.hif.waiting = [w]))
      ∧ ((ring c).toDev.tryRecord w).2 = false
      ∧ ((ring { c with modRunning := true }).toDev.cring 2).modRunning = true
      ∧ ((ring { c with modRunning := true }).toDev.cring 2).modPending = false
      ∧ ((ring { c with modRunning := true, modPending := true }).toDev.cring 2).modPending = true := by decide +kernel

/-- Two records wait for the ring; and one that waits for another context's. -/
theorem witness_CompletionRings_order :
    let w : WaitRec := { ring := 2, ctx := 1, bytes := zeros 64, irq := false }
    let v : WaitRec := { w with bytes := 1 :: zeros 63 }
    let d := (onQ []).toDev
    let c : CRing := { active := true, ctx := 1, log2 := 6, headA := 0x8000 }
    let on := fun ws : List WaitRec => st { d with
      mem := { d.mem with tlbs := [(448, [{ ctx := 1, level := 3, vpn := 0, pte := 0x1001F }])] }
      hif := { d.hif with crings := [(2, c)], waiting := ws } }
    let t := (on [w, v]).toDev.tryRecord w
    ((on [w, v]).hif.waiting = w :: [v] ∧ t.2 = true ∧ t.1.hif.waiting = w :: [v] ∧ (t.1.cring 2).ctx = c.ctx
        ∧ v.ring = 2)
      ∧ ∀ x ∈ (on [{ w with ctx := 7 }]).hif.waiting, x.ctx ≠ c.ctx := by decide +kernel

/-- Both are written by the one poll. -/
theorem test_ring_poll_order :
    let w : WaitRec := { ring := 2, ctx := 1, bytes := zeros 64, irq := false }
    let d := (onQ []).toDev
    let s := st { d with
      mem := { d.mem with tlbs := [(448, [{ ctx := 1, level := 3, vpn := 0, pte := 0x1001F }])] }
      hif := { d.hif with
        crings := [(2, { active := true, ctx := 1, log2 := 6, headA := 0x8000 })]
        waiting := [{ w with bytes := 5 :: zeros 63 }, { w with bytes := 6 :: zeros 63 }] } }
    let e := after (.cringHeadPoll 2) s
    e.hif.waiting = [] ∧ e.mem.byte 0x10000 = 5 ∧ e.mem.byte 0x10040 = 6 := by decide +kernel

theorem witness_HostReadFails :
    let g : Graph := { aGraph with kind := .copy 0 0 64 true false }
    let m : Move := { word := 0, src := .host 0, dst := .virt 0, copy := true, lines := 1 }
    let e : Entry := { entry 3 0 with graph := some 5 }
    let fr : Frame := { runs with ctx := 1, task := some ref0, moves := [m] }
    let d := (onG g fr).toDev
    let s := st { d with hif := { d.hif with queues := [(3, { state := .fetching, ctx := 1, entries := [e] })] } }
    let d1 := ({ s.toDev with hif := { s.hif with aer := s.hif.aer + 1 } } : Dev)
    (s.frame 0).task = some ref0 ∧ (s.frame 0).killing = false ∧ (s.frame 0).moves = [m] ∧ m.copy = true ∧ m.acked = false
      ∧ s.toDev.graph? 5 = some g ∧ s.toDev.entry? g.queue g.seq = some e
      ∧ ((d1.updTask ref0 fun x => { x with state := .discarded, frame := none }).endOnFrame 0).entry? g.queue g.seq
        = some e := by decide +kernel

/-! ### CTX_CTRL -/

/-- Queue 0 with a CTX_CTRL entry: OP, context, queue, ARG0. -/
def ctlE (op ctx q arg : Nat) : Entry := entry 7 0 (le 2 op ++ le 2 ctx ++ le 2 q ++ zeros 2 ++ le 8 arg)

def onCtl (e : Entry) (d : Dev := (onF idle).toDev) : State :=
  st { d with hif := { d.hif with queues := (0, { state := .fetching, admin := true, ctx := 0xFFFF, entries := [e] }) :: d.hif.queues } }

/-- Memory that holds bytes from 0x1000 on. -/
def holding (bs : List Byte) (d : Dev) : Dev := { d with mem := d.mem.storeBytes 0x1000 bs }

/-- A context image: weight 1, one task, 1 to 384 frames. -/
def ctxImage : List Byte := [0, 0, 0, 1] ++ zeros 28 ++ le 4 1 ++ le 2 1 ++ le 2 384 ++ zeros 216

theorem ctxGate_of (d : Dev) (h : d.fr = (onF idle).toDev.fr) (b : List Byte) (want first : Nat)
    (hq : ((d.mkt.ctxs.filter (·.2.state != .free)).map (·.2.maxTasks.toNat)).sum + field b 0x20 4 ≤ moduleTasks)
    (hs : d.pickSems want (field b 0x54 4) = some first) (hf : field b 0x24 2 ≤ 384) (hw : field b 0x58 8 = 0) :
    d.ctxGate b want = .ok first := by
  have e : (allFrames.filter fun f => (d.frame f).svc.insvc) = allFrames := by
    refine List.filter_eq_self.mpr fun f _ => ?_
    rw [show d.frame f = (onF idle).toDev.frame f by simp only [Dev.frame, h], frame_onF, ite_self]
    rfl
  have l : allFrames.length = 384 := List.length_finRange
  simp only [Dev.ctxGate, e, l, hs, hw, Nat.not_lt.mpr hq, Nat.not_lt.mpr hf]
  simp

theorem witness_CreatesContext :
    let k : Ctl := { e := ctlE 1 2 0 0x1000, ctx := 2, queue := 0, arg0 := 0x1000 }
    let s := onCtl (ctlE 1 2 0 0x1000) (holding ctxImage (onF idle).toDev)
    (s.toDev.ctl 1 = some k ∧ k.ctx ≤ 4095 ∧ k.queue ≤ 16383) ∧ s.toDev.physRead k.arg0 256 = some ctxImage
      ∧ badCtxImage ctxImage = false ∧ (s.toDev.ctx k.c).state = .free ∧ s.toDev.ctxGate ctxImage 0 = .ok 0 := by
  exact ⟨⟨by decide +kernel, by decide, by decide⟩, by decide +kernel, by decide +kernel, by decide +kernel,
    ctxGate_of _ (by rfl) _ _ _ (by decide +kernel) (by decide +kernel) (by decide +kernel) (by decide +kernel)⟩

theorem witness_ContextOperations :
    let d (x : Ctx) : Dev := (onC x idle).toDev
    let k (op arg : Nat) : Ctl := { e := ctlE op 1 0 arg, ctx := 1, queue := 0, arg0 := arg }
    ((onCtl (ctlE 2 1 0 0) (d ctx1)).toDev.ctl 2 = some (k 2 0) ∧ (onCtl (ctlE 6 1 0 0) (d ctx1)).toDev.ctl 6 = some (k 6 0)
        ∧ (onCtl (ctlE 9 1 0 0x1800000100) (d ctx1)).toDev.ctl 9 = some (k 9 0x1800000100)
        ∧ (onCtl (ctlE 3 1 0 0) (d ctx1)).toDev.ctl 3 = some (k 3 0))
      ∧ ctx1.state = .active ∧ ctx1.destroyWait = false ∧ 0x1800000100 / 2 ^ 8 % 2 ^ 8 = 1
      ∧ 0x1800000100 / 2 ^ 32 % 2 ^ 9 = 24 ∧ ctx1.minFrames.toNat ≤ 24
      ∧ (((onCtl (ctlE 3 1 0 0) (d { ctx1 with state := .faulted })).toDev.ctx 1).state = .faulted) :=
  ⟨by decide +kernel, by decide +kernel, by decide +kernel, by decide, by decide, by decide +kernel, by decide +kernel⟩

/-- Images of a queue of context 1 that reports to ring 2, and of a ring of context 1 on vector 3. -/
def queueImage : List Byte := [0, 0] ++ le 2 1 ++ [6, 0] ++ le 2 2 ++ zeros 56
def ringImage : List Byte := [1, 1] ++ le 2 1 ++ [6, 0] ++ le 2 3 ++ zeros 24

theorem witness_QueueOperations :
    let d := (onC ctx1 idle).toDev
    let d := { d with hif := { d.hif with crings := [(2, { active := true, ctx := 1 })] } }
    let k (op q arg : Nat) : Ctl := { e := ctlE op 0 q arg, ctx := 0, queue := q, arg0 := arg }
    ((onCtl (ctlE 4 0 3 0x1000) (holding queueImage d)).toDev.ctl 4 = some (k 4 3 0x1000)
        ∧ (onCtl (ctlE 7 0 4 0x1000) (holding ringImage d)).toDev.ctl 7 = some (k 7 4 0x1000)
        ∧ (onCtl (ctlE 8 0 2 0) d).toDev.ctl 8 = some (k 8 2 0) ∧ (onCtl (ctlE 5 0 3 0) d).toDev.ctl 5 = some (k 5 3 0)) :=
  by decide +kernel

theorem witness_QueueOperations_images :
    let d := (onC ctx1 idle).toDev
    let d := { d with hif := { d.hif with crings := [(2, { active := true, ctx := 1 })] } }
    let b := queueImage
    let r := ringImage
    (holding queueImage d).physRead 0x1000 64 = some b ∧ field b 1 1 < 8 ∧ bit (field b 1 1) 0 = false ∧ field b 2 2 = 1
      ∧ field b 4 1 = 6 ∧ field b 5 1 = 0 ∧ field b 0x38 8 = 0 ∧ bit (field b 1 1) 2 = false
      ∧ (d.cring (field b 6 2)).active = true ∧ (d.cring (field b 6 2)).ctx.toNat = field b 2 2 ∧ d.ctxDead 1 = false
      ∧ (d.queue 3).state = .free ∧ (holding ringImage d).physRead 0x1000 32 = some r ∧ field r 0 1 ≤ 1 ∧ field r 1 1 ≤ 1
      ∧ field r 2 2 = 1 ∧ field r 4 1 = 6 ∧ field r 5 1 = 0 ∧ field r 6 2 = 3 ∧ field r 0x1C 4 = 0
      ∧ (d.cring 4).active = false ∧ (d.cring 2).active = true ∧ d.hif.queues = []
      ∧ ((onQ []).toDev.queue 3).state = .fetching := by decide +kernel

theorem queueBusy_of (d : Dev) (fr : Frame) (h : d.fr = (onF fr).toDev.fr) (q : Nat) :
    d.queueBusy q = match fr.task with
      | some t => ((d.mkt.graphs.filter fun g => g.queue == q).map (·.id)).contains t.graph | none => false := by
  have e (p : TaskRef → Bool) :
      d.framesOf p = if (match fr.task with | some t => p t | none => false) = true then [0] else [] := by
    cases d
    cases h
    exact filter_onF fr (fun y => match y.task with | some t => p t | none => false) rfl
  simp only [Dev.queueBusy, e]
  cases fr.task with
  | none => rfl
  | some t => simp only []; split <;> simp_all

theorem witness_QueueEnds :
    let s (fr : Frame) (gs : List Graph) (c : Discards) : State :=
      let d := (onC ctx1 fr).toDev
      st { d with mkt := { d.mkt with graphs := gs }, hif := { d.hif with queues := [(3, { state := .destroying, ctx := 1, disc := c })] } }
    (((s idle [] {}).toDev.queue 3).state = .destroying ∧ (s idle [] {}).toDev.queueBusy 3 = false)
      ∧ (s busy [aGraph] { entry := some 9 }).toDev.queueBusy 3 = true
      ∧ (((s busy [aGraph] { entry := some 9 }).toDev.queue 3).disc.late = false
        ∧ ((s busy [aGraph] { entry := some 9 }).toDev.queue 3).ctx = (1 : BitVec 12).setWidth 16
        ∧ ((s busy [aGraph] { entry := some 9 }).toDev.queue 3).disc.entry = some 9) := by
  exact ⟨⟨by decide +kernel, Eq.trans (queueBusy_of _ idle (by rfl) 3) (by decide +kernel)⟩,
    Eq.trans (queueBusy_of _ busy (by rfl) 3) (by decide +kernel), by decide +kernel⟩

/-! ### The host -/

/-- A request for queue 0 and its ring at 0x10000 and 0x11000, sizes 64 and 64, every feature. -/
def attachReq : List Byte :=
  zeros 8 ++ le 8 0x10000 ++ le 32 0xFF ++ le 32 1 ++ zeros 16 ++ le 8 0x11000 ++ zeros 16 ++ [6, 6] ++ zeros 6

theorem witness_DriverAttaches :
    let d := (onF idle).toDev
    let s := st { d with hif := { d.hif with
      fwReady := true, mbxReq := (List.zip (List.range 128) attachReq).filter (·.2 != 0) } }
    s.toDev.fwRuns = true ∧ s.hif.mbxBusy = false ∧ s.hif.mbxHeld = none ∧ s.hif.fwReady = true ∧ s.toDev.schedUp = true
      ∧ s.hif.refusal s.hif.request = none ∧ s.mkt.ctxs = [] := by decide +kernel

theorem witness_DriverAttaches_beats :
    let s (b : Bool) (n : Nat) : State :=
      let d := (onC { ctx1 with orphaned := true } idle).toDev
      st { d with hif := { d.hif with attached := true, beat := b, misses := n } }
    (s true 0).hif.attached = true ∧ (s true 0).toDev.schedUp = true ∧ (s true 0).hif.beat = true
      ∧ (s false 1).hif.beat = false ∧ (s false 1).hif.misses < 2 ∧ 2 ≤ (s false 2).hif.misses
      ∧ ((s true 0).toDev.ctx 1).orphaned = true ∧ (s true 0).hif.orphanLimit ≠ 0xFFFFFFFF := by decide +kernel

theorem test_tlbi_drops :
    (after (.memTlbiVa 0 0x1234) (onV runs)).mem.tlbs.map (·.2) = [[]] := by decide +kernel

theorem witness_InvalidatesAndScans :
    let d := (onF idle).toDev
    let sc : Scan := { pa := 0x1000, len := 64 }
    let s := st { d with
      mem := { d.mem with tlbiIssued := 3 }
      tly := { d.tly with kind := 1, unit := 2, ch := 5, dram := [(2 * 64 + 4, { scan := some sc })] } }
    s.toDev.fwRuns = true ∧ (s.mem.tlbiIssued - s.mem.tlbiDone).toNat < 16 ∧ (s.mem.tlbiIssued - s.mem.tlbiDone).toNat ≠ 0
      ∧ (1 : Word).getLsbD 0 = true ∧ s.tly.kind = 1 ∧ s.tly.chan.scan = none
      ∧ s.tly.dram.get? (2 * 64 + 4) = some { scan := some sc } ∧ s.toDev.invDone (s.mem.tlbiDone + 1) = true
      ∧ s.mem.tlbiWait = [] := by decide +kernel

/-- 16 invalidations are pending and a write waits, with the oldest done, and with an access open that came through what it
removed. -/
theorem witness_InvalidatesAndScans_full :
    let d := (onF { runs with loads := [{ dst := .s 1, word := 0, ready := false, inv := some 1 }] }).toDev
    let m : Memory := { tlbiIssued := 16, tlbiWait := [.all] }
    let s := st { up0 with mem := m }
    let t := st { d with mem := m }
    (s.toDev.fwRuns = true ∧ 16 ≤ (s.mem.tlbiIssued - s.mem.tlbiDone).toNat ∧ s.mem.tlbiDone ≠ s.mem.tlbiIssued
        ∧ s.toDev.invDone 1 = true ∧ s.mem.tlbiWait = .all :: [])
      ∧ t.toDev.invDone 1 = false := by decide +kernel

theorem test_tlbi_waits :
    (after .memTlbiAll (st { up0 with mem := { tlbiIssued := 16 } })).mem.tlbiWait = [.all] := by decide +kernel

theorem test_power_register_read :
    (after (.registerReadClear 0x0F0000000018 8) (onF idle)).hostRead = some (zeros 8) := by decide +kernel

theorem witness_HostAccesses :
    let s := onF idle
    let d := s.toDev
    s.toDev.fwRuns = true
      ∧ (0x0F0000000018 % 8 = 0 ∧ d.readReg 0x0F0000000018 = some 0 ∧ 0x0F0000000018 < semBase)
      ∧ (0x0F000000001C % 4 = 0 ∧ d.readReg (0x0F000000001C / 8 * 8) = some 0)
      ∧ (0x18 < 0x4000000 ∧ 0x18 % 8 = 0 ∧ 0x19 % 2 ≠ 0)
      ∧ (64 ≤ 2 ^ s.hif.bar2Log2 ∧ isMmio d.bar2Base = false ∧ d.isMem d.bar2Base 64 = true
        ∧ s.mem.readPoison d.bar2Base 64 = false) := by decide +kernel

theorem witness_HostAccesses_others :
    let d := (onF idle).toDev
    let p : Dev := { d with mem := d.mem.markGran d.bar2Base true }
    let far : Dev := { d with hif := { d.hif with bar2Map := 0x020000000000 } }
    (0x104 % 4 = 0 ∧ (d.readReg (0x0F0000000000 + 0x104 / 8 * 8)).isSome = true)
      ∧ (0x10008 % 8 = 0 ∧ (d.readReg (0x0F0000000000 + 0x10008 / 8 * 8)).isSome = true)
      ∧ (0x4000000 ≤ 0x4003004 ∧ 0x4003004 < 0x8000000 ∧ 0x4003004 % 0x1000 < 8)
      ∧ (p.isMem p.bar2Base 64 = true ∧ p.mem.readPoison p.bar2Base 64 = true)
      ∧ (isMmio far.bar2Base = false ∧ far.isMem far.bar2Base 64 = false ∧ far.hif.bar2Log2 = 28) := by decide +kernel

theorem test_bar2_poison :
    let d := (onF idle).toDev
    (after (.bar2Access (.read 0 4 [])) (st { d with mem := d.mem.markGran d.bar2Base true })).hostRead
      = some [0xFF, 0xFF, 0xFF, 0xFF] := by decide +kernel

/-! ### Resets, boot and management -/

def inPhase (p : BootPhase) : Dev := { up0 with sec := { phase := p }, dbg := { perst := false } }

theorem test_rail_fault : (after (.railFault 7) (st (inPhase .ready))).dbg.rail = 7
    ∧ (after (.railFault 7) (st (inPhase .ready))).dbg.cause = 5
    ∧ (after (.railFault 7) (st (inPhase .ready))).sec.phase = .reset := by decide +kernel

theorem witness_ColdResets :
    ((inPhase .ready).sec.phase ≠ .off ∧ (inPhase .ready).sec.phase ≠ .reset ∧ (inPhase .ready).dbg.perst = false
        ∧ (inPhase .ready).sec.phase ≠ .thermalHold)
      ∧ (State.reset.sec.phase ≠ .off ∧ State.reset.dbg.perst = true) ∧ (inPhase .thermalHold).sec.phase = .thermalHold
      ∧ (inPhase .off).sec.phase = .off := by decide +kernel

theorem witness_ColdResets_holds :
    ({ (inPhase .reset).dbg with railHold := true } : Pins).railHold = true
      ∧ ({ (inPhase .reset).dbg with jtagHold := true } : Pins).jtagHold = true := ⟨rfl, rfl⟩

theorem witness_WarmResets :
    let s := st { up0 with sec := { phase := .ready, restarting := [.security, .scheduler, .control 3] } }
    s.toDev.fwRuns = true ∧ (0xA504 : Word).toNat / 256 % 256 = 0xA5 ∧ (0xA504 : Word).toNat % 8 = 4
      ∧ (0xA505 : Word).toNat % 8 = 5 ∧ (0xA405 : Word).toNat / 256 % 256 ≠ 0xA5 ∧ CoreId.security ∈ s.sec.restarting
      ∧ CoreId.power ∉ s.sec.restarting ∧ CoreId.scheduler ∈ s.sec.restarting ∧ s.sec.cmdWait = []
      ∧ CoreId.control 3 ∈ s.sec.restarting ∧ s.sec.phase ≠ .off ∧ (0x125 : BitVec 9).toNat < 0x126 := by decide +kernel

theorem witness_WarmResetKeeps :
    let d : Dev := { up0 with mem := { mem := [(5, 9)] } }
    d.mem.wf = true ∧ 5 < dramEnd ∧ d.mem.region = ({} : Memory).region := by
  refine ⟨by decide +kernel, by decide, rfl⟩

theorem witness_Boots :
    let l : BootLoad := { length := 4096, nchunk := 0, server := 0 }
    let l3 : BootLoad := { l with frags := [(1, zeros 1024), (2, zeros 1024), (3, zeros 1024)] }
    let s (p : BootPhase) (x : Option BootLoad) : State := st { up0 with sec := { phase := p, load := x } }
    ((s .apiaryUp none).sec.phase = .apiaryUp ∧ (s .fetching none).sec.load = none ∧ (s .backoff none).sec.phase = .backoff)
      ∧ ((s .fetching (some l)).sec.load = some l ∧ l.header = none ∧ (zeros 1024).length = 1024
        ∧ ({ l with frags := SMap.put l.frags 0 (zeros 1024) } : BootLoad).piece 0 0 = none
        ∧ (({ l3 with frags := SMap.put l3.frags 0 (zeros 1024) } : BootLoad).piece 0 0).isSome = true)
      ∧ (s .started none).sec.repairDone = false ∧ (s .started none).hif.mbxHeld = none
      ∧ ({ badFrames := 1 } : Fuses).badFrames.getLsbD 0 = true := by decide +kernel

/-- The causes that the frame self-test tells apart. -/
theorem witness_Boots_tests :
    let s (x : Service) : State := st { (onF { idle with svc := x }).toDev with sec := { phase := .started } }
    let bist : RepairEntry := { die := (({} : Memory).home 0x1000).2.1, row := true, addr := 0x1000 }
    (s {}).sec.phase = .started ∧ repairPlan [] [] [] ≠ none ∧ repairPlan [3, 4, 5] [] [] = none
      ∧ ((s { cause := 5 }).frame 0).svc.cause = 5 ∧ ((s { excluded := true }).frame 0).svc.excluded = true
      ∧ ((s { excluded := true }).frame 0).svc.cause ≠ 5 ∧ ({ fail := true } : SelfTest).fail = true
      ∧ [bist].filter ({} : Memory).knows = [bist] := by decide +kernel

/-! A key under which one signature checks for every message, so that one message of any type meets what a statement asks. -/

/-- A multiple of the neutral point. -/
def neutral (t : Curve.Point) : Prop := t.x = 0 ∧ t.y = t.z

theorem curve_sub_zero (a : Nat) : Curve.sub (a % Curve.p) 0 = a % Curve.p := by
  rw [Curve.sub, Nat.sub_zero, Nat.add_mod_right, Nat.mod_mod]

theorem curve_sub_self (a : Nat) : Curve.sub a a = 0 := by
  rw [Curve.sub, Nat.add_sub_cancel_left, Nat.mod_self]

theorem neutral_add {s t : Curve.Point} (hs : neutral s) (ht : neutral t) : neutral (Curve.add s t) := by
  obtain ⟨x, y, z⟩ := s
  obtain ⟨x', y', z'⟩ := t
  obtain ⟨rfl, rfl⟩ : x = 0 ∧ y = z := hs
  obtain ⟨rfl, rfl⟩ : x' = 0 ∧ y' = z' := ht
  simp only [neutral, Curve.add, Nat.zero_mul, Nat.zero_mod, Nat.mul_zero, Nat.zero_add, Nat.add_zero, curve_sub_zero, curve_sub_self, Nat.mod_mod]
  refine ⟨trivial, ?_⟩
  generalize y * y' % Curve.p = a
  rw [Nat.mul_right_comm, ← Nat.mod_mul_mod]

theorem neutral_mulBits (n : Nat) : ∀ {acc t : Curve.Point} (k : Nat), neutral acc → neutral t →
    neutral (Curve.mulBits acc t k n) := by
  induction n with
  | zero => exact fun _ h _ => h
  | succ n ih =>
    intro acc t k h g
    rw [Curve.mulBits]
    refine ih _ ?_ (neutral_add g g)
    split
    exacts [neutral_add h g, h]

theorem neutral_mul (k : Nat) {t : Curve.Point} (h : neutral t) : neutral (Curve.mul k t) :=
  neutral_mulBits 448 k ⟨rfl, rfl⟩ h

theorem neutral_same {s t : Curve.Point} (hs : neutral s) (ht : neutral t) : s.same t = true := by
  simp [Curve.Point.same, hs.1, hs.2, ht.1, ht.2, Nat.mul_comm]

/-- Under the neutral point as a key, and as a signature's first half, a signature over any message checks. -/
theorem neutral_verifies (m : List Byte) : ed448Verify (le 57 1) m (le 57 1 ++ zeros 57) = true := by
  have d : Curve.decode (le 57 1) = some Curve.zero := by decide +kernel
  have z : neutral Curve.zero := ⟨rfl, rfl⟩
  have t : (le 57 1 ++ zeros 57).take 57 = le 57 1 := by decide +kernel
  have s : unle ((le 57 1 ++ zeros 57).drop 57) = 0 := by decide +kernel
  have l : (le 57 1 ++ zeros 57).length = 114 := by decide +kernel
  have b : neutral (Curve.mul 0 Curve.base) := by unfold neutral; decide +kernel
  rw [ed448Verify]
  simp only [d, t, s, l, Bool.and_eq_true, decide_eq_true_eq, beq_self_eq_true, true_and]
  exact ⟨by decide +kernel, neutral_same (neutral_mul 4 b) (neutral_mul 4 (neutral_add z (neutral_mul _ z)))⟩

/-- The owner's key, and what it signs. -/
def theKey : List Byte := le 57 1
def au (n : Word) : Auth := { flags := 1, session := 0, seq := n, body := [], sig := le 57 1 ++ zeros 57 }

theorem au_signed (n : Word) (type : Nat) : Auth.signedBy (au n) type false theKey = true := by
  simp [Auth.signedBy, Auth.parts, au, theKey, neutral_verifies]

/-- The device under management, with SEQ 5 the last. -/
def managed (d : Dev := up0) : Dev := { d with sec := { phase := .ready, key := some theKey, lastSeq := some 5, lastResult := [1] } }

/-- A plan entry that joins every port to the same port of device 1. -/
def anEntry : PlanEntry := { peerId := 1, peerPort := 0 }

def planned : Dev := { managed with lnk := { devV := true, plan := some (List.replicate 32 anEntry) } }

/-! An image of one chunk of 64 zeros, signed by that key. -/

def chunk64 : List Byte := zeros 64
def chunkHash : List Byte := shake256 (le 4 0 ++ chunk64) 64
def imageHeader : List Byte :=
  le 4 0x4C455249 ++ le 2 1 ++ zeros 14 ++ le 4 1 ++ le 8 64 ++ shake256 chunkHash 64 ++ theKey ++ zeros 519
    ++ (le 57 1 ++ zeros 57) ++ zeros 3310

def imageFuses : Fuses := { keyDigests := Vector.replicate 4 (shake256 theKey 64) }

theorem image_fields :
    slice imageHeader 0x60 57 = le 57 1 ∧ slice imageHeader 0x2A0 114 = le 57 1 ++ zeros 57
      ∧ field imageHeader 6 1 = 0 ∧ field imageHeader 0x14 4 = 1 ∧ field imageHeader 0x18 8 = 64
      ∧ field imageHeader 0 4 = 0x4C455249 ∧ field imageHeader 4 2 = 1 ∧ field imageHeader 0x10 2 = 0 := by decide +kernel

theorem four_slices (b : List Byte) (h : b.length = 4096) :
    [slice b 0 1024, slice b 1024 1024, slice b 2048 1024, slice b 3072 1024].flatten = b := by
  simp only [slice, List.flatten_cons, List.flatten_nil, List.append_nil, List.drop_zero]
  rw [List.take_of_length_le (l := b.drop 3072) (by simp [h])]
  have e1 : b.drop 3072 = (b.drop 2048).drop 1024 := by rw [List.drop_drop]
  have e2 : b.drop 2048 = (b.drop 1024).drop 1024 := by rw [List.drop_drop]
  rw [e1, List.take_append_drop, e2, List.take_append_drop, List.take_append_drop]

/-- The header checks, and does not with another key in the fuses; it comes in four fragments. -/
theorem witness_Boots_header :
    let l : BootLoad := { length := 64, nchunk := 1, server := 0, frags := (List.range 4).map fun i =>
      (i, slice imageHeader (1024 * i) 1024) }
    headerBad imageFuses imageHeader = none ∧ headerBad {} imageHeader = some .key ∧ l.piece 0 0 = some imageHeader := by
  refine ⟨?_, by decide +kernel, congrArg some (four_slices imageHeader (by decide +kernel))⟩
  obtain ⟨h1, h2, h3, h4, h5, h6, h7, h8⟩ := image_fields
  simp [headerBad, h1, h2, h3, h4, h5, h6, h7, h8, neutral_verifies, imageFuses, theKey, ceilDiv]

/-- Its hash list and its chunk check, and zeros in their place do not; a chunk that failed four times ends the load. -/
theorem witness_Boots_pieces :
    let l : BootLoad := { length := 64, nchunk := 1, server := 0, header := some imageHeader }
    let list := fun bs : List Byte => ({ l with frags := [(fragKey 1 0 0, bs)] } : BootLoad).piece 1 0
    let c : BootLoad := { l with hashes := some chunkHash, asked := 1 }
    let whole := ({ c with frags := [(fragKey 2 0 0, chunk64)] } : BootLoad).piece 2 0
    (0 < l.nchunk ∧ l.nchunk ≤ 1024 ∧ 0 < l.frags_ 1 0 ∧ chunkHash.length = min 1024 (64 * l.nchunk - 1024 * 0)
        ∧ list chunkHash = some chunkHash ∧ shake256 chunkHash 64 = slice imageHeader 0x20 64
        ∧ list (zeros 64) = some (zeros 64) ∧ shake256 (zeros 64) 64 ≠ slice imageHeader 0x20 64)
      ∧ (0 < c.asked ∧ 0 ∉ c.chunks ∧ 0 < c.frags_ 2 0 ∧ chunk64.length = min 1024 (c.pieceSize 2 0 - 1024 * 0)
        ∧ whole = some chunk64 ∧ shake256 (le 4 0 ++ chunk64) 64 = slice chunkHash (64 * 0) 64
        ∧ shake256 (le 4 0 ++ 1 :: zeros 63) 64 ≠ slice chunkHash (64 * 0) 64
        ∧ (c.tries.get? 0).getD 0 < 4 ∧ 4 ≤ (({ c with tries := [(0, 4)] } : BootLoad).tries.get? 0).getD 0) := by
  decide +kernel

/-- A core with a section of the image. -/
theorem witness_WarmResets_sections :
    let x : Section := { off := 0, len := 16, target := 2, entry := 4 }
    ([x].find? fun y => y.target == CoreId.target .scheduler) = some x := by decide +kernel

/-- Every command is accepted there. -/
theorem witness_Accept (i : ApiaryCmd) (h : ApiaryCmd.more i = false) : Accept (st managed) (au 6) i := by
  refine ⟨by decide +kernel, ?_, fun n h => ?_, by decide +kernel, by decide +kernel⟩
  · rw [Dev.authentic, show (st managed).toDev.sec.key = some theKey from rfl]
    simp [h, au_signed, st, managed, up0]
    rfl
  · obtain rfl : 5 = n := Option.some.inj h
    decide

/-- So is a fragment of REPAIR_LIST with more to come. -/
theorem witness_Accept_more (es : List RepairEntry) :
    Accept (st managed) { au 6 with flags := 3 } (.repairList true es) := by
  refine ⟨by decide +kernel, ?_, fun n h => ?_, by decide +kernel, by decide +kernel⟩
  · rw [Dev.authentic, show (st managed).toDev.sec.key = some theKey from rfl]
    simp [Auth.signedBy, Auth.parts, au, theKey, neutral_verifies, ApiaryCmd.more, st, managed]
  · obtain rfl : 5 = n := Option.some.inj h
    decide

theorem witness_ManagesDevice :
    (((planned.setPort 8 { state := .quarantined }).port 8).state = .quarantined
        ∧ (planned.setPort 8 { state := .quarantined }).mayTrain 8 = true)
      ∧ (planned.port 9).state ≠ .active ∧ ((planned.setPort 9 { state := .active }).port 9).state = .active
      ∧ ((List.replicate 32 anEntry).length = 32 ∧ (0 : BitVec 16).getLsbD 15 = false
        ∧ (0 : BitVec 16).toNat / 8 % 8 = managed.dbg.board.toNat ∧ (0 : BitVec 16).toNat % 8 = managed.dbg.slot.toNat)
      ∧ ((List.range 32).filter fun i => (0x100 : BitVec 32).getLsbD i) = [8] ∧ managed.mkt.ctxs = []
      ∧ ((0x1000 + 64 ≤ dramEnd) ∧ (managed.mem.home 0x1000).2.1 = (managed.mem.home 0x1000).2.1)
      ∧ (List.replicate 384 (0 : BitVec 2)).length = 384 := by decide +kernel

/-- FRAME_EXCLUDE is accepted by firmware whose frames are not yet in use. -/
theorem witness_ManagesDevice_early :
    Accept (st { managed with sec := { managed.sec with phase := .started } }) (au 6) (.frameExclude 1)
      ∧ (st { managed with sec := { managed.sec with phase := .started } }).up = false :=
  ⟨⟨by decide +kernel, (witness_Accept (.frameExclude 1) rfl).2.1, (witness_Accept (.frameExclude 1) rfl).2.2.1,
    by decide +kernel, by decide +kernel⟩, by decide +kernel⟩

/-- Of the frames FRAME_EXCLUDE names, one is idle, in no stall and in service. -/
theorem witness_ManagesDevice_exclude :
    let e : State := st { managed with fr := Vector.replicate 384 { idle with stallV := true } |>.set 3 idle }
    let now := allFrames.filter fun f =>
      (0xF : BitVec 384).getLsbD f.val && (e.frame f).svc.insvc && !(e.frame f).stallV && (e.frame f).free
    e.up = true ∧ ((allFrames.filter fun f => (0xF : BitVec 384).getLsbD f.val).filter fun f =>
      (e.frame f).svc.insvc && !(e.frame f).stallV && (e.frame f).free) = [3] ∧ now = [3] := by decide +kernel

/-- A job of one rank on this device. -/
def aReq : JobReq :=
  { policy := 0, job := 5, ctx := 1, queue := 3, barrier := 0, nrank := 1, rank := 0, nboard := 1, pos := 0, slotmask := 1
    nplane := 0, timeout := 100, rankmapA := 0x2000, ringplanA := 0x3000, cring := 0, chead := 0x8000, csem := 0
    stepSem := 1, clog2 := 6, rankmap := [0], ring := [0], planes := [] }

theorem witness_ManagesJobs :
    let d := managed (onQ []).toDev
    let d := { d with mkt := { d.mkt with ctxs := [(1, { ctx1 with job := 5 })] } }
    let r : BarReq := { group := 2, mode := 0, nIn := 2, nOut := 1, member := 0, key := 7, ctx := 1, job := 5, membersA := 0x2000
                        relSem := 0xFFFFFFFF, members := [0, 1] }
    (JobReq.wellSized aReq = true ∧ d.jobRefusal (JobReq.withDefaults aReq) = none
        ∧ ((List.range 256).find? fun j => (d.job j).state == .free) = some 0)
      ∧ managed.jobRefusal (JobReq.withDefaults aReq) = some 8 ∧ BarReq.wellSized r = true ∧ (d.group 2).state ≠ .arrived
      ∧ ((d.setGroup 2 { aGroup with state := .arrived }).group 2).state = .arrived := by decide +kernel

theorem witness_ManagesJobs_open :
    let d := managed.setJob 0 { state := .open, job := 5 }
    let c := managed.setJob 0 { state := .committing, job := 5 }
    d.jobById 5 = some 0 ∧ (d.job 0).state = .open ∧ (c.job 0).state = .committing
      ∧ (({ managed with grd := { managed.grd with written := 3 } } : Dev).grd.exported.toNat
        < min ((2 : BitVec 32).toNat + 1) (3 : BitVec 32).toNat) ∧ (20 ≤ 20) ∧ (zeros 32).length = 32 := by decide +kernel

theorem witness_AcceptsCommands :
    (st managed).toDev.fwRuns = true ∧ managed.authentic { au 6 with flags := 0 } (.waggleRoot 1) = false ∧ managed.sec.lastSeq = some 5 ∧ managed.sec.lastResult ≠ []
      ∧ ({ managed with sec := { managed.sec with restarting := [.scheduler] } } : Dev).schedUp = false
      ∧ managed.sec.cmdWait.length < 8 ∧ up0.sec.lastSeq = none := by decide +kernel

theorem witness_Reports :
    up0.fwRuns = true ∧ up0.sec.key = none
      ∧ ({ up0.grd with written := 3 } : Guard).written.toNat = up0.grd.exported.toNat + 3 ∧ up0.sec.reports = [] := by
  decide +kernel

theorem witness_WallClock : up0.fwRuns = true ∧ up0.sec.addrs = [] ∧ up0.sec.leap = none := by decide +kernel

theorem test_powerCfg_range :
    (managed.runCmd (.powerCfg 600 80)).1.pwr.next = some (600, 80)
      ∧ (managed.runCmd (.powerCfg 600 79)).1.pwr.next = none := by decide +kernel

/-! ### Links and other devices -/

def active (x : LPort := {}) : LPort := { x with state := .active, lanes := 8, laneMask := 0xFF, peerV := true }
def onPort (x : LPort) : State := st (up0.setPort 8 x)
def aFlit (dst : BitVec 15) : Flit := { cls := 1, proto := 5, job := 3, dst := dst, src := 9, payload := [1, 2, 3] }

theorem field_crc (b : List Byte) (n : Nat) (hb : b.length = 252) (hn : n < 2 ^ 32) : field (b ++ le 4 n) 252 4 = n := by
  have h : (b ++ le 4 n).drop 252 = le 4 n := by rw [← hb, List.drop_left]
  rw [field, slice, h]
  simp only [le, List.take, unle, BitVec.toNat_ofNat]
  omega

theorem take_crc (b : List Byte) (n : Nat) (hb : b.length = 252) : (b ++ le 4 n).take 252 = b := by rw [← hb, List.take_left]

theorem flitCrc_lt (s : BitVec 32) (b : List Byte) : flitCrc s b < 2 ^ 32 := (crc32c _).isLt

/-- The flit before its check value. -/
def flitHead : List Byte := [1, 5, 3, 0, 0, 0, 9, 0, 7, 0, 3, 0, 1, 2, 3] ++ zeros 237
def goodFlit : List Byte := flitHead ++ le 4 (flitCrc 7 flitHead)
def badFlit : List Byte := flitHead ++ le 4 ((flitCrc 7 flitHead + 1) % 2 ^ 32)

theorem witness_FlitsArrive :
    let x := active { rxSeq := 7 }
    ((onPort x).toDev.port 8).state = .active ∧ goodFlit.length = 256 ∧ field goodFlit 0 2 ≠ 3
      ∧ field goodFlit 252 4 = flitCrc 7 (goodFlit.take 252) ∧ malformedFlit 7 goodFlit = false ∧ Flit.ofBytes goodFlit = aFlit 0
      ∧ x.heldOf 1 < x.share 1 ∧ (aFlit 0).dst = (onPort x).lnk.devId := by
  refine ⟨by decide +kernel, by decide +kernel, by decide +kernel, ?_, by decide +kernel, by decide +kernel, by decide +kernel,
    by decide +kernel⟩
  rw [goodFlit, field_crc _ _ (by decide +kernel) (flitCrc_lt _ _), take_crc _ _ (by decide +kernel)]

theorem witness_FlitsArrive_others :
    field badFlit 252 4 ≠ flitCrc 7 (badFlit.take 252) ∧ badFlit.length = 256 ∧ field badFlit 0 2 ≠ 3
      ∧ (aFlit 4).dst ≠ up0.lnk.devId := by
  refine ⟨?_, by decide +kernel, by decide +kernel, by decide +kernel⟩
  have h := flitCrc_lt 7 flitHead
  rw [badFlit, field_crc _ _ (by decide +kernel) (Nat.mod_lt _ (by decide)), take_crc _ _ (by decide +kernel)]
  omega

/-- A flit of a PROTO beyond the table, and one whose LEN is beyond the payload. -/
theorem witness_FlitsArrive_violations :
    let head (proto len : Byte) : List Byte := [1, proto, 3, 0, 0, 0, 9, 0, 7, 0, len, 0] ++ zeros 240
    let sealed (b : List Byte) : List Byte := b ++ le 4 (flitCrc 7 b)
    let x := active { rx := List.replicate 2560 (aFlit 0) }
    (field (sealed (head 10 3)) 252 4 = flitCrc 7 ((sealed (head 10 3)).take 252)
        ∧ field (sealed (head 5 0xFF)) 252 4 = flitCrc 7 ((sealed (head 5 0xFF)).take 252))
      ∧ malformedFlit 7 (head 10 3) = false ∧ 9 < (Flit.ofBytes (head 10 3)).proto.toNat
      ∧ malformedFlit 7 (head 5 0xFF) = true ∧ x.share 1 ≤ x.heldOf 1 := by
  refine ⟨⟨?_, ?_⟩, by decide +kernel, by decide +kernel, by decide +kernel, by decide +kernel⟩ <;>
    exact (field_crc _ _ (by decide +kernel) (flitCrc_lt _ _)).trans (congrArg (flitCrc 7) (take_crc _ _ (by decide +kernel)).symm)

/-- A link-control flit that acknowledges count 6 and asks for count 7. -/
def controlHead : List Byte := [3, 0, 6, 0, 0, 0, 7, 0, 0, 0, 1, 0] ++ zeros 240
def controlFlit : List Byte := controlHead ++ le 4 (flitCrc 0 controlHead)

theorem witness_LinkMessages :
    let x := active
    (((onPort x).toDev.port 8).state = .active ∧ controlFlit.length = 256 ∧ field controlFlit 0 1 = 3 ∧ field controlFlit 1 1 ≤ 6
        ∧ field controlFlit 252 4 = flitCrc 0 (controlFlit.take 252) ∧ field controlFlit 10 2 < 512)
      ∧ ((onPort { x with state := .hello }).toDev.port 8).state = .hello
      ∧ (6 : Byte).toNat ≤ x.lanes ∧ x.laneMask.getLsbD 7 = true
      ∧ laneCount (goodLanes ((1 : Byte) &&& ~~~(1#8 <<< 0))) = 0
      ∧ ((onPort { x with state := .quarantined }).toDev.port 8).state = .quarantined
      ∧ laneCount (goodLanes (x.laneMask &&& ~~~(1#8 <<< 7))) < x.lanes ∧ laneCount (goodLanes 0x7F) ≠ 0
      ∧ 6 ≤ laneCount (goodLanes (0x7F &&& ~~~(1#8 <<< 6))) := by
  refine ⟨⟨by decide +kernel, by decide +kernel, by decide +kernel, by decide +kernel, ?_, by decide +kernel⟩, by decide +kernel⟩
  rw [controlFlit, field_crc _ _ (by decide +kernel) (flitCrc_lt _ _), take_crc _ _ (by decide +kernel)]

/-- LANE_DROP for lanes that are in service here, and for lanes none of which is. -/
theorem witness_LinkMessages_lanes :
    let x := active
    let y := active { laneMask := 0x0F, lanes := 4 }
    min 6 (laneCount (goodLanes (x.laneMask &&& 0x3F))) ≠ 0 ∧ (6 : Byte).toNat ≤ x.lanes
      ∧ min 4 (laneCount (goodLanes (({ y with laneMask := 0x0F } : LPort).laneMask &&& 0xF0))) = 0
      ∧ (4 : Byte).toNat ≤ ({ y with lanes := 4 } : LPort).lanes
      ∧ ((onPort { x with state := .fecLock }).toDev.port 8).state = .fecLock := by decide +kernel

theorem witness_FlitSlots :
    let x := active { slot := 20 }
    let y := active { slot := 3, resend := 1, replay := [(6, aFlit 4)] }
    (((onPort x).toDev.port 8).state = .active ∧ ((onPort x).toDev.port 8).slot = 20)
      ∧ (((onPort y).toDev.port 8).slot < 20 ∧ 0 < y.resend ∧ y.tokenCnt < 49
        ∧ y.replay[y.replay.length - y.resend]? = some (6, aFlit 4))
      ∧ up0.up = true ∧ (∀ q : Port, (up0.port q).replay = []) := by decide +kernel

/-- Slots of a port with nothing to send again: the replay buffer full, nothing queued, a class W flit with a token and a credit;
and a slot of a QUARANTINED port. -/
theorem witness_FlitSlots_idle :
    let x := active { slot := 3 }
    let full := active { slot := 3, replay := List.replicate 4096 (0, aFlit 4) }
    let w := active { slot := 3, tokens := 1, egW := [aFlit 4] }
    (((onPort x).toDev.port 8).state = .active ∧ x.slot < 20 ∧ x.resend = 0 ∧ x.tokenCnt < 49 ∧ x.replay.length < 4096
        ∧ x.egW = [] ∧ x.egC = [] ∧ x.egB = [])
      ∧ full.resend = 0 ∧ 4096 ≤ full.replay.length
      ∧ (w.egW = aFlit 4 :: [] ∧ 0 < w.tokens ∧ 0 < w.credit classW ∧ w.credit classW < 2 ^ 15)
      ∧ ((onPort { x with state := .quarantined }).toDev.port 8).state = .quarantined := by decide +kernel

theorem test_idle_slot :
    (after (.flitSlot 8) (onPort (active { slot := 3 }))).out.length = 1 := by decide +kernel

theorem witness_PortsTrain :
    let d := planned.setPort 8 { state := .failed }
    (planned.up = true ∧ planned.lnk.plan ≠ none ∧ planned.lnk.wave = none)
      ∧ ((onPort { state := .detect }).toDev.port 8).parked = false ∧ ((onPort { state := .eq }).toDev.port 8).state = .eq
      ∧ laneCount (goodLanes 0xFF) ≠ 0 ∧ ((d.port 8).state = .failed ∧ d.mayTrain 8 = true ∧ ∀ q : Port, (d.port q).busy = false)
      ∧ laneCount (goodLanes 0) = 0 ∧ ((onPort { state := .detect, parked := true }).toDev.port 8).parked = true
      ∧ ((planned.setPort 8 { state := .detect, parked := true }).mayTrain 8 = true)
      ∧ (onPort { state := .detect, parked := true }).toDev.mayTrain 8 = false
      ∧ ((onPort { state := .eq, fromHint := true }).toDev.port 8).fromHint = true
      ∧ ((onPort { state := .hello }).toDev.port 8).state = .hello ∧ ((onPort { state := .laneMap }).toDev.port 8).state = .laneMap
      ∧ ((onPort { state := .fecLock }).toDev.port 8).state = .fecLock := by
  decide +kernel

/-- Windows for job 3 on page 0, to read and write, and on context 1's semaphores, to ring. -/
def window0 : RWin := { base := 0, job := 3, pages := 1, r := true, w := true, v := true }
def window1 : RWin := { base := BitVec.ofNat 36 (0x0F0006000000 / 4096), job := 3, pages := 1, bell := true, v := true }

def windows : Dev :=
  { (onC { ctx1 with job := 3 } idle).toDev with mem := { rwin := ((Vector.replicate 32 {}).set 0 window0).set 1 window1 } }

theorem test_bell_flit :
    (after (.bellFlit { src := 9, job := 3, addr := 0x0F0006000008, value := 5, add := false, tag := 0 }) (st windows)).mkt.semQ
      = [{ sem := 1, value := 5, add := false }] := by decide +kernel

theorem witness_RemoteBells :
    let d := windows.consume 0x02 3
    windows.up = true ∧ d.remoteMay 3 .bell 0x0F0006000008 8 = true ∧ 1 < semCount
      ∧ 0x0F0006000008 % 2 ^ 48 = semBase + 8 * 1 ∧ d.semOwner 1 = some 1 ∧ (d.ctx 1).job = 3
      ∧ (windows.consume 0x02 4).remoteMay 4 .bell 0x0F0006000008 8 = false := by decide +kernel

theorem witness_RemoteAccesses :
    let d := windows.consume 0x05 3
    let r (o : Origin) : Req := { tag := 6, origin := o, addr := 0, bytes := 64 }
    let e (o : Origin) : Dev := { up0 with lnk := { reqs := [r o] } }
    (windows.up = true ∧ 64 % 64 = 0 ∧ d.isMem 0 64 = true ∧ d.remoteMay 3 .read 0 64 = true
        ∧ (windows.consume 0x05 4).remoteMay 4 .read 0 64 = false ∧ (windows.consume 0x07 3).remoteMay 3 .write 0 64 = true)
      ∧ (∀ o ∈ [Origin.load 0, .store 0, .moveRead 0, .moveWrite 0], ∀ p ∈ [(0x06 : Byte), 0x08, 0x09],
        (((e o).consumeTag p 6).lnk.reqs.find? fun x => x.tag == 6) = some (r o))
      ∧ ((e (.load 0)).lnk.reqs.find? fun x => x.tag == 6) = some (r (.load 0))
      ∧ ({ r (.load 0) with got := SMap.put (r (.load 0)).got 0 (zeros 64) } : Req).whole = some (zeros 64)
      ∧ ({ r (.load 0) with got := SMap.put (r (.load 0)).got 0 (zeros 32) } : Req).whole = none
      ∧ (windows.consume 0x07 4).remoteMay 4 .write 0 64 = false ∧ inDramOrComb 0 64 = true
      ∧ let q := (onQ [entry 5 0]).toDev
        ({ q with lnk := { reqs := [r (.entryBell 3 9)] } } : Dev).entry? 3 9 = some (entry 5 0) := by decide +kernel

/-! ### Waggle time and barriers -/

def timed (w : Waggle) : Dev := { up0 with wag := w }

theorem witness_WaggleExchanges :
    let w : Waggle := { state := .locked, parent := some 9, reqSeq := 4, valid := true }
    let src : BitVec 15 := 9
    let m : WagMsg := { state := 4, root := 0, seq := 4, t1 := 0, t2 := 0, t3 := 0 }
    let d := (timed w).takeWag 8 src
    (timed w).up = true ∧ w.state ≠ .root ∧ w.parent = some 9 ∧ w.fallback = false ∧ d.wag.state ≠ .root
      ∧ d.wag.parent = some src ∧ m.seq = d.wag.reqSeq ∧ m.root = d.wag.root ∧ (1 : BitVec 15) ≠ d.wag.root
      ∧ w.valid = true ∧ (timed w).portActive 0 = false := by decide +kernel

/-- Under FALLBACK: the primary parent is asked and its answer counts; a device with another on a port may have that one as
its next parent, and one alone has none. -/
theorem witness_WaggleExchanges_fallback :
    let w : Waggle := { state := .locked, parent := some 9, primary := some 6, fallback := true, primSeq := 2, root := 5 }
    let src : BitVec 15 := 6
    let m : WagMsg := { state := 4, root := 0, seq := 2, t1 := 0, t2 := 0, t3 := 0 }
    let d := (timed w).takeWag 8 src
    let next (d : Dev) := ([d.rackLeader (d.lnk.devId.toNat / 64), d.upperLeader, some w.root]).find? fun o =>
      o.isSome && o != some d.lnk.devId && o != w.parent && (o.bind fun i => d.portTo i).isSome
    let far := ({ timed w with lnk := { planned.lnk with rtb := planned.lnk.rtb.set 5 5 } } : Dev).setPort 0 active
    (w.state ≠ .root ∧ w.parent = some 9 ∧ w.fallback = true ∧ w.primary = some 6)
      ∧ (d.wag.parent ≠ some src ∧ d.wag.fallback = true ∧ d.wag.primary = some src ∧ m.seq = d.wag.primSeq
        ∧ d.wag.primAns = false)
      ∧ next (timed w) = none ∧ (next far).isSome = true := by decide +kernel

/-- A parent silent for 1 ms while LOCKED; one whose port left ACTIVE, in LOCKED and in HOLDOVER. -/
theorem witness_WaggleExchanges_lost :
    let w : Waggle := { state := .locked, parent := some 9, fi := 7 }
    w.state ≠ .root ∧ w.parent ≠ none ∧ w.heard + 1000000 ≤ ({ timed w with ns := 1000000 } : Dev).ns
      ∧ ¬ w.heard + 1000000 ≤ (timed w).ns ∧ ({ w with portLost := true } : Waggle).portLost = true := by decide +kernel

theorem test_parent_silent :
    let d := timed { state := .locked, parent := some 9, fi := 7 }
    (after .parentLost (st { d with ns := 1000000 })).wag.rate = 7
      ∧ (after .parentLost (st { d with ns := 999999 })).wag.state = .locked := by
  decide +kernel

theorem witness_TimedEvents :
    let b : TBell := { addr := 0, value := 1, add := false, time := 100, job := 0, origin := .other 0 }
    let w (v : Bool) (n : BitVec 80) : Waggle := { valid := v, ctr := n * 65536, tbells := [b] }
    (w true 100).tbells[0]? = some b ∧ (timed (w true 100)).wag.valid = true ∧ b.time.toNat ≤ (timed (w true 100)).waggle
      ∧ (timed (w true 99)).waggle < b.time.toNat ∧ (timed (w false 0)).wag.valid = false ∧ up0.up = true := by decide +kernel

/-- Slot 0 of the Waggle time is the slot of device 0, slot 1 is not. -/
theorem witness_TimedEvents_slot :
    (timed { ctr := 15 * 65536 }).waggle / 16 % 64 = (timed {}).lnk.devId.toNat % 64
      ∧ (timed { ctr := 16 * 65536 }).waggle / 16 % 64 ≠ (timed {}).lnk.devId.toNat % 64 := by decide +kernel

theorem test_timed_bell_waits :
    let b : TBell := { addr := 0, value := 1, add := false, time := 100, job := 0, origin := .other 0 }
    (after (.timedBellRelease 0) (st (timed { valid := true, ctr := 99 * 65536, tbells := [b] }))).wag.tbells = [b] := by
  decide +kernel

theorem witness_BarrierMessages :
    let w : Waggle := { groups := [(2, aGroup)] }
    let d := (timed w).consume 0x04 5
    let find (key : BitVec 32) := d.wag.groups.find? fun g => g.2.state != .free && g.2.key == key && g.2.job == 5
    (timed w).up = true ∧ find 77 = some (2, aGroup) ∧ find 78 = none := by decide +kernel

theorem witness_BarrierMessages_resend :
    let gr : Group := { aGroup with state := .broken, failed := [(0, 0, 1)] }
    let d := (({ planned with lnk := { planned.lnk with rtb := planned.lnk.rtb.set 1 5 } } : Dev).setPort 1 active).setGroup 2 gr
    let r := (d.setGroup 2 { gr with failed := [] }).sendBar 2 0 0 1
    (d.group 2).state = .broken ∧ (d.group 2).failed = [(0, 0, 1)] ∧ r.2 = true ∧ (r.1.group 2).failed = []
      ∧ let u := (up0.setGroup 2 { gr with failed := [] }).sendBar 2 0 0 1
        u.2 = false ∧ (u.1.group 2).failed = [] := by decide +kernel

/-- The group has an episode open, or none and nobody waits. -/
theorem witness_BarrierMessages_open :
    let gr : Group := { aGroup with state := .broken, failed := [(0, 0, 1)] }
    let d := (({ planned with lnk := { planned.lnk with rtb := planned.lnk.rtb.set 1 5 } } : Dev).setPort 1 active)
    let ends := fun o : Bool => ((d.setGroup 2 { gr with failed := [], entry := if o then some (3, 9) else none }).sendBar 2 0 0 1).1.group 2
    (ends true).open_ = true ∧ (ends false).open_ = false ∧ (ends false).waiters = [] := by decide +kernel

theorem witness_BarrierRounds :
    aGroup.past = false ∧ (0 : Word).toNat < ({ aGroup with episode := 1 } : Group).episode.toNat ∧ 0 < aGroup.nIn ∧ 0 < aGroup.nOut
      ∧ aGroup.member < aGroup.nIn * aGroup.nOut ∧ 0 < aGroup.rounds ∧ aGroup.targets 0 = [1]
      ∧ ({ aGroup with member := 1 } : Group).sources 0 = [0] := by decide +kernel

/-- Messages of an episode before, at and after the later one that a group keeps. -/
theorem witness_BarrierRounds_later :
    let g : Group := { aGroup with later := some (3, [(0, 1)]) }
    g.episode.toNat < (2 : Word).toNat ∧ g.later = some (3, [(0, 1)]) ∧ (3 : Word).toNat < (4 : Word).toNat
      ∧ (2 : Word).toNat < (3 : Word).toNat ∧ aGroup.later = none ∧ ({ aGroup with episode := 1 } : Group).past = false := by
  decide +kernel

/-! ### Scrubbing and power -/

theorem witness_Scrubs :
    let b : WBack := { pa := 256, data := zeros 64 }
    let r : RowCopy := { die := 0, bank := 0, row := 0 }
    let o : ScrubObs := { errs := [(3, 0x10)], uncorr := 1 }
    let u : ScrubObs := { errs := [(3, 0x10)], uncorr := 0 }
    (up0.up = true ∧ up0.mem.scrubOn = true ∧ (4 + 1) * 64 < dramEnd ∧ up0.mem.poison.get? (4 * 64 / 32) = none)
      ∧ o.misdir = false ∧ decodeLine (up0.mem.lineSyndrome 4 o) o.uncorr = .corrected [(3, 0x10)]
      ∧ decodeLine (up0.mem.lineSyndrome 4 u) u.uncorr = .uncorrectable
      ∧ sramUnit (0x0100C0000000 / 64 * 64) = some (0, none) ∧ dramEnd ≤ 0x0100C0000000 / 64 * 64
      ∧ ([b] : List WBack)[0]? = some b ∧ b.stale = false ∧ ({ b with stale := true } : WBack).stale = true
      ∧ ([r] : List RowCopy)[0]? = some r := by decide +kernel

theorem test_scrub_corrects :
    (after (.scrubRead 4 { errs := [(3, 0x10)], uncorr := 1 }) (st up0)).mem.wbacks = [{ pa := 256, data := zeros 64 }] := by
  decide +kernel

/-- A line that another address answers has a syndrome of its own (R214). -/
theorem test_scrub_other_line :
    (after (.scrubRead 4 { other := some 5 }) (st up0)).mem.poison.get? 8 = some true := by decide +kernel

theorem witness_SingleBitsCorrected : 67 < 68 ∧ 7 < 8 ∧ (0x10 : BitVec 5).getLsbD (67 / 16) = true := by decide +kernel

theorem test_last_bit_corrected : decodeLine (syndrome [(67, 128)]) 0x10 = .corrected [(67, 128)] := by decide +kernel

theorem test_power_over : (after (.powerFastCheck 1981) (st up0)).pwr.dies.toList.map (·.cap) = List.replicate 16 6 := by
  decide +kernel

theorem witness_PowerManaged :
    up0.fwRuns = true ∧ up0.sec.restarting = [] ∧ up0.pwr.watts.toNat < 1801 ∧ 0 < up0.pwr.tThrottle.toNat
      ∧ (∀ t ∈ [90], t < up0.pwr.tThrottle.toNat)
      ∧ (∀ j : Fin 16, (up0.pwr.dies[j]).cap ≤ (up0.pwr.dies[(0 : Fin 16)]).cap ∧ (j < 0 → (up0.pwr.dies[j]).cap < 8))
      ∧ 110 * up0.pwr.watts.toNat < 100 * 1981 ∧ 100 * 1980 ≤ 110 * up0.pwr.watts.toNat ∧ (up0.die 0).code < 100
      ∧ 0 < (up0.die 0).code ∧ up0.sec.phase ≠ .off := by decide +kernel


/-- The caps of 16 dies, all 8 but one at 5. -/
def lowDie : Power := { low := 9, dies := Vector.ofFn fun i : Fin 16 => { cap := if i = 5 then 5 else 8 } }

/-- For 100 µs below 0.95 of the cap with every die cool; one die at the throttle temperature; a new configuration waits; a code
at either end. -/
theorem witness_PowerManaged_raise :
    let temp := fun _ : Fin 16 => 30
    (100 * 600 < 95 * lowDie.watts.toNat ∧ 9 ≤ lowDie.low ∧ (∀ i : Fin 16, temp i < lowDie.tThrottle.toNat - 5)
        ∧ ∀ j : Fin 16, (lowDie.dies[(5 : Fin 16)]).cap ≤ (lowDie.dies[j]).cap
          ∧ (j < 5 → (lowDie.dies[(5 : Fin 16)]).cap < (lowDie.dies[j]).cap))
      ∧ lowDie.tThrottle.toNat ≤ 95 ∧ (600 ≤ lowDie.watts.toNat ∧ ({ lowDie with low := 0 } : Power).low < 9)
      ∧ ({ lowDie with next := some (700, 80) } : Power).next.map (·.1) = some 700
      ∧ 100 ≤ ({ code := 100 } : Die).code ∧ ({ code := 0 } : Die).code = 0 := by decide +kernel

theorem test_power_raises :
    let d := after (.powerControlInterval 600 (List.replicate 16 30)) (st { up0 with pwr := lowDie })
    (d.pwr.dies[5]).cap = 6 ∧ (d.pwr.dies[4]).cap = 8 := by decide +kernel
/-! ### The Exchange -/

/-- A job of context 1: rank 0 of two ranks in slots 0 and 1, or alone. -/
def twoRanks : Job :=
  { state := .open, job := 3, ctx := 1, nrank := 2, nboard := 1, slotmask := 3, timeout := 50, chead := 0x8000, clog2 := 6
    cfg := 99, rankmap := [0, 1], ring := [0], hellos := [1] }
def alone : Job := { twoRanks with nrank := 1, slotmask := 1, rankmap := [0], hellos := [] }

/-- ALL_REDUCE of one F32 number from address 0x100 to 0x200, as it lies in the job's ring. -/
def collBytes : List Byte := [1, 0, 0, 0xB] ++ zeros 6 ++ [0xB, 0xB] ++ zeros 4 ++ le 8 0x100 ++ le 8 0x200 ++ le 8 1 ++ zeros 24
def collDesc : CDesc :=
  { op := 1, timed := false, g32 := false, indexed := false, attempt := 0, srcFmt := .f32, step := 0, bucket := 0, wire := .f32
    dstFmt := .f32, root := 0, src := 0x100, dst := 0x200, count := 1, start := 0, doneSem := 0, idxBase := 0, hist := 0 }

/-- The job with one descriptor in its ring, which is at virtual address 0. -/
def onJob (x : Job) (bs : List Bucket := []) : Dev :=
  let d := (onC { ctx1 with job := 3 } idle).toDev
  { d with
    mem := ({ d.mem with tlbs := [(449, [{ ctx := 1, level := 3, vpn := 0, pte := 0x1001F }])] } : Memory).storeBytes 0x10000
      collBytes
    mkt := { d.mkt with sems := [(0, 1)] }
    xch := { d.xch with jobs := d.xch.jobs.set 0 x, bkts := bs } }

theorem witness_CollectivesStart :
    let d := onJob alone
    let r := d.readVirt unitXch 1 0 64
    let w := (r.1.setJob 0 { alone with head := 1 }).writeVirt unitXch 1 0x8000 (le 8 1)
    (d.up = true ∧ d.xch.heldDesc.get? 0 = none ∧ d.xch.commits.get? 0 = none ∧ (d.job 0).state = .open
        ∧ (d.ctx 1).state = .active ∧ (d.job 0).head < (d.sem 0).toNat)
      ∧ r.2.toOption = some (collBytes, false) ∧ field collBytes 0 1 = 0 + 1
      ∧ CDesc.ofBytes collBytes 1 = some collDesc ∧ w.2.toOption = some () ∧ w.1.job 0 = { alone with head := 1 }
      ∧ collDesc.step = alone.step ∧ collDesc.attempt = alone.attempt ∧ w.1.pendingTiles 1 = [] := by decide +kernel

theorem witness_CollectivesStart_stale :
    collDesc.step.toNat < ({ alone with step := 1 } : Job).step.toNat
      ∧ CDesc.ofBytes (8 :: zeros 63) 1 = some { collDesc with
          op := 8, srcFmt := .t2, wire := .t2, dstFmt := .t2, src := 0, dst := 0, count := 0 } := by decide +kernel

/-- A COMMIT of the next step was held with its tiles when its step opened. -/
theorem witness_CollectivesStart_heldTiles :
    let w : Held430 := { ctx := 1, what := .nextJob 0, tiles := [4], begun := false }
    let d : Dev := { onJob alone with grd := { waits := [w] } }
    (∃ w ∈ d.grd.waits, w.what = .nextJob 0) ∧ ¬ ∃ w ∈ (onJob alone).grd.waits, w.what = .nextJob 0 := by
  refine ⟨⟨_, List.mem_singleton.mpr rfl, rfl⟩, fun ⟨_, h, _⟩ => ?_⟩
  exact absurd h List.not_mem_nil

/-- A COMMIT while a tile of its context waits for its verdict, a descriptor of the next step, and one of a newer attempt. -/
theorem witness_CollectivesStart_others :
    let d := onJob alone
    let c : CDesc := { collDesc with step := 1 }
    let e : Dev := { d with grd := { d.grd with tiles := [aTile] } }
    (d.xch.commits.get? 0 = none ∧ d.pendingTiles 1 = [] ∧ e.pendingTiles 1 = [4])
      ∧ (c.step = alone.step + 1 ∧ c.attempt = 0 ∧ alone.step.toNat < c.step.toNat)
      ∧ (({ c with step := 2 } : CDesc).step ≠ alone.step + 1 ∧ alone.step.toNat < 2)
      ∧ alone.attempt < ({ collDesc with attempt := 1 } : CDesc).attempt
      ∧ collDesc.attempt < ({ alone with attempt := 1 } : Job).attempt := by decide +kernel

def aBucket : Bucket := { job := 0, step := 0, bucket := 0, attempt := 0, desc := some collDesc }

theorem witness_CollectivesWait :
    let c : CDesc := { collDesc with timed := true, start := 100 }
    let b : Bucket := { aBucket with state := .waitStart, desc := some c }
    let d := onJob alone [b]
    let e (n : BitVec 80) : Dev := { d with wag := { d.wag with valid := true, ctr := n * 65536 } }
    (d.up = true ∧ ({ d with xch := { d.xch with heldDesc := [(0, collDesc)] } } : Dev).xch.heldDesc.get? 0 = some collDesc
        ∧ collDesc.op = 0 + 1)
      ∧ (e 100).bktOf 0 0 = some b ∧ b.desc = some c ∧ b.state = .waitStart ∧ c.timed = true ∧ (e 100).wag.valid = true
      ∧ c.start.toNat ≤ (e 100).waggle ∧ (e 99).waggle < c.start.toNat ∧ d.wag.valid = false ∧ alone.withdrawn = false := by decide +kernel

theorem witness_CollectivesEnd :
    let b : Bucket := { aBucket with state := .active, contrib := [0x3F800000] }
    let d := onJob alone [b]
    let v : XView := { x := Coll.mk' alone collDesc b.probe, b := b }
    let codes := (List.zip v.x.wants [(0x3F800000 : Word)]).map fun p => collDesc.dstCode b.exps p.1 p.2
    let w := d.writeResult 0 v.x codes false
    (d.bktOf 0 0 = some b ∧ b.desc = some collDesc ∧ v.whole = some [0x3F800000] ∧ b.probe = false ∧ b.state = .active
        ∧ v.allSent = true ∧ (d.job 0).state = .open ∧ collDesc.g32 = false ∧ b.bad = false)
      ∧ w.2.toOption = some () ∧ w.1.job 0 = alone ∧ (((w.1.addOne 3 0).trace 257 0xFFFF 1).job 0).state = .open := by
  decide +kernel

theorem witness_CollectivesEnd_bad :
    let b : Bucket := { aBucket with state := .spoiled, contrib := [0x3F800000], bad := true }
    let d := onJob { alone with state := .overdue } [b]
    let v : XView := { x := Coll.mk' { alone with state := .overdue } collDesc b.probe, b := b }
    let codes := (List.zip v.x.wants [(0x3F800000 : Word)]).map fun p => collDesc.dstCode b.exps p.1 p.2
    d.bktOf 0 0 = some b ∧ v.whole = some [0x3F800000] ∧ v.allSent = true ∧ (d.job 0).state = .overdue
      ∧ (d.writeResult 0 v.x codes true).2.toOption = some () := by decide +kernel

/-- A collective in G32 mode, spoiled at REDO 7 with a block that saturated. -/
theorem witness_CollectivesEnd_saturated :
    let c : CDesc := { collDesc with g32 := true }
    let b : Bucket := { aBucket with state := .spoiled, bad := true, redo := 7, desc := some c, contrib := [0x1007FFFFF] }
    let x : Coll := Coll.mk' alone c false
    b.bad = true ∧ b.redo = 7 ∧ c.g32 = true ∧ satBlocks x [0x1007FFFFF] ≠ [] ∧ satBlocks x [1] = [] := by decide +kernel

/-- A collective of rank 0 that misses the packets of rank 1, 50 ms after its phase start and before that. -/
theorem witness_CollectiveTimeouts :
    let b : Bucket := { aBucket with state := .active, rx := [{ stage := 0, src := 1, bad := [(0, 2, 5, 6)] }] }
    let x : Job := { twoRanks with policy := true }
    let late : Dev := { onJob twoRanks [b] with ns := 50000000 }
    let t : Bucket := { b with onWag := true }
    let wag : Dev := { onJob twoRanks [t] with wag := { ctr := 50000000 * 65536 } }
    ((onJob twoRanks [b]).bktOf 0 0 = some b ∧ b.desc = some collDesc ∧ b.state ≠ .done ∧ twoRanks.state = .open
        ∧ twoRanks.policy = false ∧ b.onWag = false ∧ (onJob twoRanks [b]).ns < b.phase + twoRanks.timeout * 1000000)
      ∧ (late.bktOf 0 0 = some b ∧ b.phase + twoRanks.timeout * 1000000 ≤ late.ns)
      ∧ (wag.bktOf 0 0 = some t ∧ t.onWag = true ∧ t.phase + twoRanks.timeout * 1000000 ≤ wag.waggle)
      ∧ ((onJob x [b]).bktOf 0 0 = some b ∧ x.policy = true ∧ x.state = .open)
      ∧ (b.rx = [{ stage := 0, src := 1, bad := [(0, 2, 5, 6)] }] ∧ 2 ≤ 2 ∧ 0 ∉ ([] : List Nat)) := by decide +kernel

/-- A packet of rank 1 to this device: attempt, step, data. -/
def fromOne (step : BitVec 32) (data : List Byte := []) : XPkt :=
  { src := 1, job := 3, poison := false, kind := 0, flags := 0, ctrl := 0, fmt := 0xB, step := step, bucket := 0, srcRank := 1
    index := 0, data := data }

theorem test_unknown_job :
    (after (.data { fromOne 0 with job := 9 }) (st (onJob twoRanks))).xch.unknownCount = 1 := by decide +kernel

theorem witness_PacketsPlaced :
    let d := onJob twoRanks
    let p := fromOne 0
    let q : XPkt := { p with kind := 1 }
    let f : Job := { twoRanks with finished := [{ bucket := 0 }] }
    let redo := onJob twoRanks [{ aBucket with redo := 1 }]
    d.jobById 9 = none
      ∧ (d.jobById p.job = some 0 ∧ (d.job 0).state ≠ .faulted ∧ XPkt.stage p ≤ 4
        ∧ d.earlyUse (XPkt.die q) + 224 ≤ earlyCap)
      ∧ (twoRanks.sender q = .good ∧ p.step = twoRanks.step ∧ XPkt.attempt p = twoRanks.attempt
        ∧ twoRanks.finished.find? (·.bucket == p.bucket) = none ∧ d.redoOf 0 p.bucket ≤ XPkt.redo p)
      ∧ (redo.jobById p.job = some 0 ∧ XPkt.redo p < redo.redoOf 0 p.bucket)
      ∧ (f.finished.find? (·.bucket == p.bucket) = some { bucket := 0 } ∧ f.sender q = .good) := by decide +kernel

theorem witness_PacketsPlaced_others :
    let p := fromOne 0
    let q : XPkt := { p with kind := 1 }
    p.step.toNat < ({ twoRanks with step := 1 } : Job).step.toNat
      ∧ p.step = twoRanks.step ∧ XPkt.attempt p < ({ twoRanks with attempt := 1 } : Job).attempt
      ∧ twoRanks.step.toNat < (fromOne 1).step.toNat ∧ twoRanks.sender { q with step := 1 } = .good
      ∧ (fromOne 0).step = twoRanks.step ∧ twoRanks.attempt < XPkt.attempt { p with ctrl := 1 }
      ∧ twoRanks.sender { q with srcRank := 7 } = .stranger
      ∧ ({ twoRanks with hellos := [] } : Job).sender q = .await := by decide +kernel

/-- Early data that fills a die: one packet more finds no room. -/
theorem witness_PacketsPlaced_full :
    let q : XPkt := { fromOne 0 with kind := 1 }
    let n := earlyCap / 224
    let d : Dev := { onJob { twoRanks with hellos := [] } with xch := { (onJob { twoRanks with hellos := [] }).xch with
      early := List.replicate n q } }
    d.isEarly 0 q = true ∧ earlyCap < d.earlyUse (XPkt.die q) + 224 := by
  refine ⟨by decide +kernel, ?_⟩
  simp only [Dev.earlyUse, List.filter_replicate]
  decide +kernel

/-- No tally channel is free for the segment of a plane's die that a packet begins; and a packet of a faulted job, stale or not. -/
theorem witness_PacketsPlaced_channels :
    let q : XPkt := { fromOne 0 with kind := 1, ctrl := 0x60 }
    let f : Job := { twoRanks with state := .faulted, step := 1 }
    let d : Dev := onJob twoRanks [{ aBucket with state := .active }]
    let busy : SMap Nat := (List.range 1024).map fun i => (i, i)
    let full : Dev := { d with xch := { d.xch with bkts := [{ aBucket with
      state := .active, rx := [{ stage := 0, src := 9, chs := busy }] }] } }
    twoRanks.sender q = .good ∧ full.noChannel 0 q = true ∧ d.noChannel 0 q = false ∧ (onJob f).jobById 3 = some 0
      ∧ ((onJob f).job 0).state = .faulted ∧ q.step.toNat < f.step.toNat := by decide +kernel

theorem witness_JobPackets_others :
    let p : XPkt := fromOne 0 (3 :: le 2 1)
    let x : Job := { twoRanks with step := 1, state := .faulted }
    twoRanks.sender { p with srcRank := 9 } = .stranger ∧ twoRanks.sender p ≠ .stranger
      ∧ p.step.toNat < x.step.toNat ∧ twoRanks.nboard ≤ 1
      ∧ (onJob { twoRanks with state := .overdue }).jobById 3 = some 0 ∧ field p.data 0 1 = 3 := by decide +kernel

theorem witness_JobPackets :
    let t : SentSeg := { job := 0, dst := 1, step := 0, bucket := 0, attempt := 0, redo := 0, stage := 0, seg := 0
                         pkts := [] }
    let d0 := onJob twoRanks
    let d := ({ d0 with xch := { d0.xch with sent := [t] } } : Dev).consume 0x01 3
    let p := fromOne 0 (le 4 0)
    let hit (t : SentSeg) := t.job == 0 && t.step == p.step && t.bucket == p.bucket && t.attempt == XPkt.attempt p
      && t.redo == XPkt.redo p && t.dst == XPkt.rank p && t.stage == XPkt.stage p && t.probe == XPkt.probe p
      && t.seg == field p.data 0 4
    (d.jobById p.job = some 0 ∧ (d.job 0).state ≠ .faulted ∧ (d.job 0).state = .open)
      ∧ d.xch.sent.find? hit = some t ∧ d0.xch.sent.find? hit = none
      ∧ field (le 4 99) 0 4 = (d.job 0).cfg.toNat ∧ field p.data 0 4 ≠ (d.job 0).cfg.toNat ∧ field p.data 0 1 ≠ 3
      ∧ (field (3 :: le 2 1) 0 1 = 3 ∧ ({ twoRanks with tallied := [(0, 5)] } : Job).tallyTo = [1])
      ∧ p.step = (d.job 0).step ∧ XPkt.attempt p = (d.job 0).attempt := by decide +kernel

theorem test_job_hello :
    ((after (.jobHello (fromOne 0 (le 4 99))) (st (onJob { twoRanks with hellos := [] }))).job 0).hellos = [1] := by
  decide +kernel

/-! ### Reset and invariants -/

theorem test_reset_off : State.reset.toDev.up = false ∧ State.reset.pwr.watts = 1800 := by decide +kernel

theorem witness_ResetMemory : 0 < dramEnd := by decide +kernel

theorem witness_FlitRoundTrip :
    (aFlit 0).payload.length ≤ 240 ∧ (aFlit 0).plane = none ∧ (aFlit 0).stamp = 0 ∧ (aFlit 0).cls ≠ 3 ∧ (aFlit 0).pad = []
      ∧ let f : Flit := { aFlit 0 with pad := 7 :: zeros 236 }
        f.payload.length + f.pad.length = 240 ∧ allZero f.pad = false := by decide +kernel

theorem witness_MemoryFormKept :
    (onF runs).mem.wf = true ∧ SMap.rising (onF runs).mkt.ctxs = true
      ∧ (∃ t, exec (.stsl 0 { a := 0, b := 1 }) (onF runs) = .next t) ∧ ∃ t, step (onF runs) = .next t :=
  ⟨by decide +kernel, by decide +kernel, ⟨_, rfl⟩, _, rfl⟩

/-- VADD of two F32 numbers, 1 and 2, the sum into a third place. -/
def oneAdd : VecJob :=
  { word := 0, op := .vadd, x := { dst := 2, a := 0, b := 1 }, dst := some (mat 0x40 1 1 0 0xB 0).shape
    a := (mat 0 1 1 0 0xB 0).shape, b := some (mat 0x20 1 1 0 0xB 0).shape, pred := BitVec.allOnes 256 }

def oneS : State :=
  let d := (onF { runs with vecQ := [oneAdd] }).toDev
  st { d with mem := (d.mem.storeBytes (lsAddr 0 0) (le 4 0x3F800000)).storeBytes (lsAddr 0 0x20) (le 4 0x40000000) }

theorem witness_OneElement :
    let a := oneAdd.a
    let b := (mat 0x20 1 1 0 0xB 0).shape
    let dst := (mat 0x40 1 1 0 0xB 0).shape
    let get := fun t : Tensor => (t.fmt.decode t.signed (unle (oneS.toDev.read (lsAddr 0 t.base) (t.fmt.bits / 8)))).1
    (oneS.frame 0).vecQ = [oneAdd] ∧ (oneS.frame 0).killing = false ∧ (oneS.frame 0).preempt = false
      ∧ oneAdd.dst = some dst ∧ oneAdd.b = some b
      ∧ (∀ t ∈ [a, b, dst], t.e0 = 1 ∧ t.e1 = 1 ∧ t.e2 = 1 ∧ t.e3 = 1 ∧ t.scaled = false ∧ t.space = false ∧ t.fmt = .f32)
      ∧ (∀ t ∈ [a, b, dst], ∀ i < t.fmt.bits / 8, oneS.mem.poisonedAt (lsAddr 0 t.base + i) = false)
      ∧ (∀ i < dst.fmt.bits / 8, oneS.mem.isRetired (lsAddr 0 dst.base + i) = false)
      ∧ (∃ m e, get a = .fin false m e) ∧ ∃ m e, get b = .fin false m e :=
  ⟨by decide +kernel, by decide +kernel, by decide +kernel, rfl, rfl, by decide +kernel, by decide +kernel, by decide +kernel,
    ⟨2 ^ 23, -23, by decide +kernel⟩, 2 ^ 23, -22, by decide +kernel⟩

theorem test_add_one_two : (after (.vectorComplete 0) oneS).read (lsAddr 0 0x40) 4 = le 4 0x40400000 := by decide +kernel

theorem witness_IntegerTileSum :
    let w := (limbsOf .q8 true 0xFD false).1
    let j : MmaJob := { mmaJob with wfmt := .q8, wsigned := true, cells := [(0, w), (256, w)] }
    j.int = true ∧ 0 < j.n
      ∧ (∀ k < j.k, (Fmt.q8.decode true 5).1 = Num.ofInt 5 ∧ (Fmt.q8.decode true 0xFD).1 = Num.ofInt (-3)
        ∧ j.cells.get? (cellKey j.shape j.group k 0) = some w) := by decide +kernel

theorem witness_ComputesInFrame :
    Op.add ∈ [Op.nop, .add] ∧ ∃ t, exec (insnCommand 0 .add {} 0) (onF runs) = .next t := ⟨by decide, _, rfl⟩

theorem witness_OneRegisterWritten :
    (1 : Fin 64).val ≠ ({} : Insn).dst.toNat ∧ ∃ t, exec (insnCommand 0 .add {} 0) (onF runs) = .next t :=
  ⟨by decide, _, rfl⟩

theorem witness_QueueStaysFormed :
    (onF runs).pending.all Instr.wellFormed = true ∧ ∃ t, step (onF runs) = .next t := ⟨rfl, _, rfl⟩


/-- The record of the worked example of R436. -/
def r436 : List Byte :=
  le 1 1 ++ le 1 3 ++ le 2 1 ++ le 4 18337
    ++ [0x7A, 0x31, 0xC0, 0x4E, 0x92, 0xD8, 0x15, 0xBF, 0xE0, 0x66, 0x3A, 0x9C, 0x41, 0xD7, 0xB8, 0x20]
    ++ le 8 0x0003001200000041 ++ le 8 91844213007552 ++ le 6 1937017046 ++ le 4 408113950 ++ le 2 3 ++ le 2 0x096A ++ le 2 0x42
    ++ le 4 8812 ++ le 2 12 ++ le 1 1 ++ le 1 0 ++ le 2 232 ++ le 1 0 ++ zeros 5 ++ zeros 16 ++ le 8 0x3C1E08A477D291B0
    ++ le 8 0x5F02E9C31A8D446E ++ le 8 0x013E0039 ++ le 8 0x5F02E9C31A8D446E ++ zeros 8

/-- R436, worked example (WALL_S of 2031-05-20T04:17:26Z by the calendar). -/
theorem test_record_text : renderRecord r436 = some (("v=1 seq=18337 class=guard code=sampled_lost " ++
    "serial=7a31-c04e-92d8-15bf-e066-3a9c-41d7-b820 fw=0x0003_0012_0000_0041 waggle=91844213007552 " ++
    "wall=2031-05-20T04:17:26.408113950Z dev=0x096a job=0x0042 step=8812 ctx=12 unit=frame232 " ++
    "ta=0x3c1e_08a4_77d2_91b0 tb=0x5f02_e9c3_1a8d_446e aux0=0x013e_0039 aux1=0x5f02_e9c3_1a8d_446e\n").toList) := by
  decide +kernel

theorem witness_ThrottleLimits : Accept (st managed) (au 6) (.powerCfg 600 80) ∧ Accept (st managed) (au 6) (.powerCfg 1801 79) :=
  ⟨witness_Accept _ rfl, witness_Accept _ rfl⟩

/-- Formats of each kind that rounding tells apart, and a tie. -/
theorem witness_FloatsRound :
    Fmt.f32.isFloat = true ∧ Fmt.f32.wide = true ∧ Fmt.f8a.isFloat = true ∧ Fmt.f4.isFloat = true ∧ Fmt.f4.wide = false
      ∧ Fmt.q8.isInt = true ∧ Fmt.t2.isInt = true := by decide +kernel

theorem witness_ArithmeticExact :
    finite (.fin false 3 1) ∧ val (.fin false 3 1) + val (.fin true 6 0) = 0 ∧ false ≠ true ∧ 0 * 6 = 0 :=
  ⟨trivial, by norm_num [val], by decide, rfl⟩
end Sys2Proof.Tests
end

/-! ### O60 fails on memory that is not in canonical form

`Claim.OneElement` speaks of every state, also of one whose table of bytes is out of order. A look-up in such a table stops
at the first larger address, so an entry behind it is hidden until the larger one goes. -/

section
open Sys2Proof Sys2Proof.Machine

namespace Sys2Proof.Machine.Claim

/-- A Q8 tensor of one element in the local store, at an offset. -/
def oneQ8 (off : Nat) : Tensor := { base := off, e0 := 1, e1 := 1, e2 := 1, e3 := 1, fmt := .q8 }

/-- A CVT of the Q8 element at offset 64 to the one at offset 32. -/
def cvtQ8 : VecJob :=
  { word := 0, op := .cvt, x := {}, dst := some (oneQ8 32), a := oneQ8 64, pred := BitVec.allOnes 256 }

/-- The device after reset but for that CVT in frame 0, and a table of bytes out of order: offset 32 stands before offset 0. -/
def outOfOrder : State :=
  { State.reset with
    toDev := ({ State.reset.toDev with mem := { mem := [(lsAddr 0 32, 1), (lsAddr 0 0, 1)] } } : Dev).setFrame 0
      { vecQ := [cvtQ8] } }

theorem outOfOrder_not_wf : outOfOrder.mem.wf = false := by decide +kernel

/-- The entry of offset 32 hides the one of offset 0. -/
theorem outOfOrder_byte_before : outOfOrder.mem.byte (lsAddr 0 0) = 0 := by decide +kernel

/-- The CVT writes 0 at offset 32, which removes that entry and shows the other. -/
theorem outOfOrder_byte_after : ((outOfOrder.toDev.completeVec 0).settle 0).mem.byte (lsAddr 0 0) = 1 := by
  decide +kernel

/-- The CVT reads a finite number, 0. -/
theorem outOfOrder_source_finite :
    finite (Fmt.q8.decode false (unle (outOfOrder.toDev.read (lsAddr 0 64) 1))).1 := by
  have hzero : (Fmt.q8.decode false (unle (outOfOrder.toDev.read (lsAddr 0 64) 1))).1 = .fin false 0 0 := by decide +kernel
  rw [hzero]
  trivial

/-- The one-element claim fails without `s.mem.wf`: the CVT changes the byte at offset 0, which it does not write. -/
theorem not_oneElement : ¬ OneElement := by
  intro h
  obtain ⟨t, r, hexec, -, -, -, -, hother⟩ := h outOfOrder 0 cvtQ8 [] (oneQ8 64) (oneQ8 64) (oneQ8 32)
    (by decide +kernel) (by decide +kernel) (by decide +kernel) rfl rfl rfl (by decide) (by decide +kernel) (by decide +kernel)
    (.inl ⟨rfl, by decide, outOfOrder_source_finite⟩)
  obtain rfl : { outOfOrder with toDev := (outOfOrder.toDev.completeVec 0).settle 0 } = t :=
    Host.Outcome.next.inj hexec
  have hkept := hother (lsAddr 0 0) (by decide)
  exact absurd (outOfOrder_byte_after.symm.trans (hkept.trans outOfOrder_byte_before)) (by decide)

end Sys2Proof.Machine.Claim

/-- Refutes O60: its one-element clause has no hypothesis that memory is in canonical form, and from `outOfOrder`
a CVT of one element changes a byte that it does not write. -/
theorem not_arithmeticResults : ¬ Obligations.ArithmeticResults := by
  rintro ⟨-, -, -, hone, -⟩
  exact Claim.not_oneElement hone

end

/-! ### The issue of a sequencer instruction on a frame that is ready (R104, R141, R150)

One rule per way an instruction comes out: a write of registers, a branch, an illegal word. -/

section
open Sys2Proof Sys2Proof.Machine

namespace Sys2Proof.Machine.Claim

/-- A ready frame tries the instruction at once. -/
theorem Ready.issue_eq {s : State} {f : FrameId} {ds : List Dest} (h : Ready s f ds) (op : Op) (x : Insn) (imm : Word)
    (body : Body) : s.toDev.issue f op x imm body = s.toDev.tryIssue f op x imm body := by
  obtain ⟨hup, hmay, hheld, -⟩ := h
  simp [Dev.issue, hup, hmay, hheld]

/-- The registers that a ready frame was asked about are free. -/
theorem Ready.unlocked {s : State} {f : FrameId} {ds : List Dest} (h : Ready s f ds) : (s.frame f).locked ds = false := by
  obtain ⟨-, -, -, hfree⟩ := h
  exact hfree

/-- A word that is not legal is an illegal instruction (R108, R139), whatever registers are locked. -/
theorem Ready.issue_illegal {s : State} {f : FrameId} {ds : List Dest} {body : Body} {x : Insn} (h : Ready s f ds) (op : Op)
    (imm : Word) (hlegal : body.legal x = false) :
    s.stepDev (s.toDev.issue f op x imm body)
      = .next (stopped s f { code := 0x01, unit := BitVec.ofNat 4 body.unit, precise := true, insn := insnWord op x }) := by
  rw [h.issue_eq]
  simp only [Dev.tryIssue, hlegal]
  rfl

/-- A legal word whose registers are free does what its body says. -/
theorem Ready.issue_next {s : State} {f : FrameId} {body : Body} {x : Insn} {imm : Word} {d : Dev} (op : Op)
    (h : Ready s f (body.uses x)) (hlegal : body.legal x = true) (hact : body.act s.toDev f x imm = .next d) :
    s.toDev.issue f op x imm body = d.updFrame f fun fr => fr.advance (fr.pc + if Op.twoWord op then 16 else 8) := by
  rw [h.issue_eq]
  simp [Dev.tryIssue, hlegal, h.unlocked, hact]

/-- A legal word whose registers are free goes on where its body says. -/
theorem Ready.issue_jump {s : State} {f : FrameId} {body : Body} {x : Insn} {imm : Word} {d : Dev} {pc : BitVec 52} (op : Op)
    (h : Ready s f (body.uses x)) (hlegal : body.legal x = true) (hact : body.act s.toDev f x imm = .jump d pc) :
    s.toDev.issue f op x imm body = d.updFrame f fun fr => fr.advance pc := by
  rw [h.issue_eq]
  simp [Dev.tryIssue, hlegal, h.unlocked, hact]

/-- What an issue leaves depends on the effect only at the frame that issues. -/
theorem issued_congr {s : State} {f : FrameId} {g g' : Frame → Frame} (h : g (s.frame f) = g' (s.frame f)) :
    issued s f g = issued s f g' := by
  simp only [issued, Dev.updFrame, h]

/-- A one-word instruction that writes registers issues with that write. -/
theorem Ready.issue_regs {s : State} {f : FrameId} {body : Body} {x : Insn} {imm : Word} {op : Op} {g : Regs → Regs}
    (h : Ready s f (body.uses x)) (hword : Op.twoWord op = false) (hlegal : body.legal x = true)
    (hact : body.act s.toDev f x imm = s.toDev.withRegs f g) :
    s.stepDev (s.toDev.issue f op x imm body) = .next (issued s f (regs g)) := by
  rw [h.issue_next op hlegal hact, Dev.updFrame_updFrame, hword]
  rfl

/-- A branch goes to its target when its condition holds, and to the next word otherwise (R151). -/
theorem Ready.issue_branch {s : State} {f : FrameId} {x : Insn} {imm : Word} {op : Op} {a : Option Nat}
    {uses : Insn → List Dest} {ok : Insn → Bool} {off : Insn → Word} {take : Regs → Insn → Bool} (h : Ready s f (uses x))
    (hword : Op.twoWord op = false) (hlegal : (branchBody a uses ok off take).legal x = true) :
    s.stepDev (s.toDev.issue f op x imm (branchBody a uses ok off take))
      = .next (if take (s.frame f).regs x = true then jumped s f ((s.frame f).target (off x)) else issued s f id) := by
  by_cases htake : take (s.frame f).regs x = true
  · rw [Ready.issue_jump op h hlegal (if_pos htake), if_pos htake]
    rfl
  · rw [Ready.issue_next op h hlegal (if_neg htake), if_neg htake, hword]
    rfl

end Sys2Proof.Machine.Claim
end

/-! ### Fields, immediates and predicate registers (R108, R139, R140, R152) -/

section
open Sys2Proof Sys2Proof.Machine

namespace Sys2Proof.Machine

/-- Every field names an s register. -/
@[simp] theorem regOk_s (i : BitVec 6) : regOk rS i = true := decide_eq_true i.isLt

@[simp] theorem regOk_none (i : BitVec 6) : regOk none i = true ↔ i = 0 := beq_iff_eq

@[simp] theorem regOk_k (i : BitVec 6) : regOk rK i = true ↔ i.toNat < 8 := decide_eq_true_iff

/-- imm24 is MOD divided by 256, rounded down. -/
theorem imm24_eq (x : Insn) : imm24 x = BitVec.ofInt 64 (x.mod.toInt / 256) := by
  have hfield : imm24 x = (x.mod.sshiftRight 8).signExtend 64 := by
    ext i hi
    by_cases hlow : i < 24
    · simp [imm24, BitVec.getElem_signExtend, BitVec.getElem_sshiftRight, hlow, show i < 32 by omega, show 8 + i < 32 by omega]
    · simp [imm24, BitVec.getElem_signExtend, BitVec.getElem_sshiftRight, BitVec.msb_eq_getLsbD_last, hlow,
        show ¬ 8 + i < 32 by omega]
  rw [hfield, BitVec.signExtend, BitVec.toInt_sshiftRight, Int.shiftRight_eq_div_pow]
  rfl

/-- A branch target is 8 times the offset past the program counter (R140). -/
theorem Frame.target_ofInt (fr : Frame) (n : Int) :
    fr.target (BitVec.ofInt 64 n) = BitVec.ofInt 52 (fr.pc.toNat + 8 * n) := by
  have hoffset : (BitVec.ofInt 64 n <<< 3).setWidth 52 = BitVec.ofInt 52 (8 * n) := by
    apply BitVec.eq_of_toNat_eq
    simp only [BitVec.toNat_setWidth, BitVec.toNat_shiftLeft, BitVec.toNat_ofInt, Nat.shiftLeft_eq]
    omega
  rw [Frame.target, hoffset, BitVec.ofInt_add, BitVec.ofInt_natCast, BitVec.ofNat_toNat, BitVec.setWidth_eq]

/-- k0 is not among the registers an instruction waits for. -/
theorem useK_singleton (i : BitVec 6) : useK [i] = if i = 0 then [] else [.k i] := by
  by_cases hi : i = 0#6 <;> simp [useK, hi]

end Sys2Proof.Machine

namespace Sys2Proof.Machine.Claim

/-- A write of a predicate register, where k0 keeps its value (R108). -/
theorem regs_setK (i : BitVec 6) (v : BitVec 256) :
    regs (fun r => r.setK i v) = if i = 0 then id else regs fun r => { r with k := r.k.setIfInBounds i.toNat v } := by
  by_cases hi : i = 0
  · simp only [hi, Regs.setK, if_true]
    rfl
  · simp only [hi, Regs.setK, if_false]

/-- The model's comparison is the one that the code names. -/
theorem cond_iff_holds (code : Nat) (a b : Word) : cond code a b = true ↔ holds code a b := by
  match code with
  | 0 => exact beq_iff_eq
  | 1 => exact bne_iff_ne
  | 2 => exact BitVec.slt_iff_toInt_lt
  | 3 => simp [cond, holds, BitVec.slt_eq_decide]
  | 4 => exact BitVec.ult_iff_lt
  | _ + 5 => simp [cond, holds, BitVec.ult_eq_decide]

/-- Every lane is 1 where the comparison holds. -/
theorem lanes_cond_of_holds {code : Nat} {a b : Word} (h : holds code a b) : lanes (cond code a b) = BitVec.allOnes 256 :=
  if_pos ((cond_iff_holds code a b).mpr h)

/-- Every lane is 0 where the comparison fails. -/
theorem lanes_cond_of_not_holds {code : Nat} {a b : Word} (h : ¬ holds code a b) : lanes (cond code a b) = 0 :=
  if_neg (mt (cond_iff_holds code a b).mp h)

end Sys2Proof.Machine.Claim
end

/-! ### Scalar compares and BK (R111, R152) -/

section
open Sys2Proof Sys2Proof.Machine

namespace Sys2Proof.Machine.Claim

/-- CMP writes the lanes of its comparison into its predicate register. -/
theorem exec_cmp {s : State} {f : FrameId} {x : Insn} (hc : x.c = 0) (hdst : x.dst.toNat < 8) (hmod : x.mod.toNat < 6)
    (h : Ready s f ([.s x.a, .s x.b] ++ if x.dst = 0 then [] else [.k x.dst])) :
    exec (.cmp f x) s = .next (issued s f (regs fun r =>
      r.setK x.dst (lanes (cond x.mod.toNat ((s.frame f).regs.getS x.a) ((s.frame f).regs.getS x.b))))) := by
  rw [← useK_singleton] at h
  have hlegal : cmpBody.legal x = true := by simp [cmpBody, fieldsOk, hc, hdst, hmod]
  exact (Ready.issue_regs (op := .cmp) (imm := 0) (body := cmpBody) h rfl hlegal rfl).trans (congrArg _ (issued_congr rfl))

/-- CMPI compares with imm24, by the code in the low byte of MOD. -/
theorem exec_cmpi {s : State} {f : FrameId} {x : Insn} (hb : x.b = 0) (hc : x.c = 0) (hdst : x.dst.toNat < 8)
    (hmod : x.mod.toNat % 256 < 6) (h : Ready s f ([.s x.a] ++ if x.dst = 0 then [] else [.k x.dst])) :
    exec (.cmpi f x) s = .next (issued s f (regs fun r =>
      r.setK x.dst (lanes (cond (x.mod.toNat % 256) ((s.frame f).regs.getS x.a) (BitVec.ofInt 64 (x.mod.toInt / 256)))))) := by
  rw [← useK_singleton] at h
  rw [← imm24_eq]
  have hlegal : cmpiBody.legal x = true := by simp [cmpiBody, fieldsOk, hb, hc, hdst, hmod]
  exact (Ready.issue_regs (op := .cmpi) (imm := 0) (body := cmpiBody) h rfl hlegal rfl).trans (congrArg _ (issued_congr rfl))

/-- CMP with a code from 6 on is an illegal instruction. -/
theorem exec_cmp_reserved {s : State} {f : FrameId} {x : Insn} (hmod : 6 ≤ x.mod.toNat) (h : Ready s f []) :
    exec (.cmp f x) s = .next (stopped s f { code := 0x01, unit := 0, precise := true, insn := insnWord .cmp x }) :=
  h.issue_illegal (body := cmpBody) .cmp 0 (by simp [cmpBody, hmod])

/-- CMPI with a code from 6 on is an illegal instruction. -/
theorem exec_cmpi_reserved {s : State} {f : FrameId} {x : Insn} (hmod : 6 ≤ x.mod.toNat % 256) (h : Ready s f []) :
    exec (.cmpi f x) s = .next (stopped s f { code := 0x01, unit := 0, precise := true, insn := insnWord .cmpi x }) :=
  h.issue_illegal (body := cmpiBody) .cmpi 0 (by simp [cmpiBody, hmod])

theorem comparisons : Comparisons := by
  intro s f x hc hdst
  refine ⟨fun hmod h => ⟨fun hholds => ?_, fun hfails => ?_⟩, fun hmod hb h => ⟨fun hholds => ?_, fun hfails => ?_⟩,
    fun h => ⟨fun hmod => exec_cmp_reserved (by omega) h, fun hmod => exec_cmpi_reserved (by omega) h⟩⟩
  · rw [exec_cmp hc hdst hmod h, regs_setK, lanes_cond_of_holds hholds]
  · rw [exec_cmp hc hdst hmod h, regs_setK, lanes_cond_of_not_holds hfails]
  · rw [exec_cmpi hb hc hdst hmod h, regs_setK, lanes_cond_of_holds hholds]
  · rw [exec_cmpi hb hc hdst hmod h, regs_setK, lanes_cond_of_not_holds hfails]

/-- BK branches by its offset when the test that bit 0 of MOD selects holds: ALL with 1, ANY with 0. -/
theorem exec_bk {s : State} {f : FrameId} {x : Insn} (hdst : x.dst = 0) (hb : x.b = 0) (hc : x.c = 0) (ha : x.a.toNat < 8)
    (hmod : x.mod.toNat % 256 < 2) (h : Ready s f (if x.a = 0 then [] else [.k x.a])) :
    exec (.bk f x) s = .next (if
        (if x.mod.getLsbD 0 then (s.frame f).regs.getK x.a == BitVec.allOnes 256 else (s.frame f).regs.getK x.a != 0) = true
      then jumped s f (BitVec.ofInt 52 ((s.frame f).pc.toNat + 8 * (x.mod.toInt / 256))) else issued s f id) := by
  rw [← useK_singleton] at h
  rw [← Frame.target_ofInt, ← imm24_eq]
  have hlegal : bkBody.legal x = true := by simp [bkBody, branchBody, fieldsOk, hdst, hb, hc, ha, Nat.le_of_lt_succ hmod]
  exact Ready.issue_branch (op := .bk) (imm := 0) h rfl hlegal

theorem branchOnPredicate : BranchOnPredicate := by
  intro s f x hdst hb hc ha h
  have hk : (s.frame f).regs.getK x.a
      = if x.a = 0 then BitVec.allOnes 256 else (s.frame f).regs.k.toList.getD x.a.toNat 0 := by
    rw [Regs.getK, List.getD_eq_getElem?_getD]
  refine ⟨fun hany => ?_, fun hall => ?_⟩
  · have hbit : x.mod.getLsbD 0 = false := by
      rw [BitVec.getLsbD, Nat.testBit_zero]
      exact decide_eq_false (by omega)
    rw [exec_bk hdst hb hc ha (by omega) h, hbit, hk]
    simp
  · have hbit : x.mod.getLsbD 0 = true := by
      rw [BitVec.getLsbD, Nat.testBit_zero]
      exact decide_eq_true (by omega)
    rw [exec_bk hdst hb hc ha (by omega) h, hbit, hk]
    simp

end Sys2Proof.Machine.Claim

/-- Settles O25: each compare writes the lanes of the comparison its code names, and BK tests the lanes its modifier
selects. -/
theorem scalarPredicates : Obligations.ScalarPredicates :=
  ⟨Claim.comparisons, Claim.branchOnPredicate⟩

end

/-! ### B, BZ, BNZ and BR, and a fetch that no X entry grants (R122, R151, R153) -/

section
open Sys2Proof Sys2Proof.Machine

namespace Sys2Proof.Machine

/-- imm64 is MOD read as a signed number (R140). -/
theorem imm64_eq (x : Insn) : imm64 x = BitVec.ofInt 64 x.mod.toInt := rfl

/-- A run of bytes whose first one no entry grants is ungranted from its start. -/
theorem Frame.ungranted_at_start {fr : Frame} {right : Right} {lo hi : Nat} (hlt : lo < hi)
    (hnone : ∀ e ∈ fr.eff.toList, effGrants e right lo = none) : fr.ungranted right lo hi = some lo := by
  have hfind : (fr.eff.toList.findSome? fun e => effGrants e right lo) = none := List.findSome?_eq_none_iff.mpr hnone
  simp [Frame.ungranted, firstUngranted, hfind, hlt]

/-- A fetch that no X entry grants fails before it is translated. -/
theorem Dev.fetchAt_of_ungranted {d : Dev} {f : FrameId} {pc : Nat}
    (hnone : ∀ e ∈ (d.frame f).eff.toList, effGrants e .x pc = none) : d.fetchAt f pc = (d, some none, false, 0) := by
  simp [Dev.fetchAt, Frame.ungranted_at_start (show pc < pc + 8 by omega) hnone]

end Sys2Proof.Machine

namespace Sys2Proof.Machine.Claim

/-- A legal word whose registers are free stops the frame with the fault that its body raises. -/
theorem Ready.issue_fault {s : State} {f : FrameId} {body : Body} {x : Insn} {imm : Word} {op : Op} {code unit : Nat}
    {addr : Option (Nat × Bool)} (h : Ready s f (body.uses x)) (hlegal : body.legal x = true)
    (hact : body.act s.toDev f x imm = .fault code unit addr) :
    s.stepDev (s.toDev.issue f op x imm body) = .next (stopped s f (mkFault op x code unit addr)) := by
  rw [h.issue_eq]
  simp only [Dev.tryIssue, hlegal, h.unlocked, hact]
  rfl

/-- B goes to its target. -/
theorem exec_b {s : State} {f : FrameId} {x : Insn} (hdst : x.dst = 0) (ha : x.a = 0) (hb : x.b = 0) (hc : x.c = 0)
    (h : Ready s f []) :
    exec (.b f x) s = .next (jumped s f (BitVec.ofInt 52 ((s.frame f).pc.toNat + 8 * x.mod.toInt))) := by
  rw [← Frame.target_ofInt, ← imm64_eq]
  have hlegal : bBody.legal x = true := by simp [bBody, branchBody, fieldsOk, hdst, ha, hb, hc]
  exact Ready.issue_branch (op := .b) (imm := 0) h rfl hlegal

/-- BZ goes to its target when its register is zero, and to the next word otherwise. -/
theorem exec_bz {s : State} {f : FrameId} {x : Insn} (hdst : x.dst = 0) (hb : x.b = 0) (hc : x.c = 0)
    (h : Ready s f [.s x.a]) :
    exec (.bz f x) s = .next (if (s.frame f).regs.getS x.a = 0 then
      jumped s f (BitVec.ofInt 52 ((s.frame f).pc.toNat + 8 * x.mod.toInt)) else issued s f id) := by
  rw [← Frame.target_ofInt, ← imm64_eq]
  have hlegal : bzBody.legal x = true := by simp [bzBody, branchBody, fieldsOk, hdst, hb, hc]
  have hissue := Ready.issue_branch (op := .bz) (imm := 0) h rfl hlegal
  simp only [beq_iff_eq] at hissue
  exact hissue

/-- BNZ goes to its target when its register is not zero, and to the next word otherwise. -/
theorem exec_bnz {s : State} {f : FrameId} {x : Insn} (hdst : x.dst = 0) (hb : x.b = 0) (hc : x.c = 0)
    (h : Ready s f [.s x.a]) :
    exec (.bnz f x) s = .next (if (s.frame f).regs.getS x.a ≠ 0 then
      jumped s f (BitVec.ofInt 52 ((s.frame f).pc.toNat + 8 * x.mod.toInt)) else issued s f id) := by
  rw [← Frame.target_ofInt, ← imm64_eq]
  have hlegal : bnzBody.legal x = true := by simp [bnzBody, branchBody, fieldsOk, hdst, hb, hc]
  have hissue := Ready.issue_branch (op := .bnz) (imm := 0) h rfl hlegal
  simp only [bne_iff_ne] at hissue
  exact hissue

/-- BR with every unused field zero is legal. -/
theorem brBody_legal {x : Insn} (hdst : x.dst = 0) (hb : x.b = 0) (hc : x.c = 0) (hmod : x.mod = 0) :
    brBody.legal x = true := by
  simp [brBody, fieldsOk, hdst, hb, hc, hmod]

/-- BR goes to the low 52 bits of its register when bits [2:0] are zero. -/
theorem exec_br {s : State} {f : FrameId} {x : Insn} (hdst : x.dst = 0) (hb : x.b = 0) (hc : x.c = 0) (hmod : x.mod = 0)
    (h : Ready s f [.s x.a]) (halign : ((s.frame f).regs.getS x.a).toNat % 8 = 0) :
    exec (.br f x) s = .next (jumped s f (((s.frame f).regs.getS x.a).setWidth 52)) :=
  congrArg s.stepDev
    (Ready.issue_jump (imm := 0) (body := brBody) .br h (brBody_legal hdst hb hc hmod) (if_pos halign))

theorem branches : Branches := by
  intro s f x hdst hb hc
  exact ⟨fun ha h => exec_b hdst ha hb hc h, fun h =>
    ⟨exec_bz hdst hb hc h, exec_bnz hdst hb hc h, fun hmod halign => exec_br hdst hb hc hmod h halign⟩⟩

theorem branchRegisterMisaligned : BranchRegisterMisaligned := by
  intro s f x hdst hb hc hmod h hmisaligned
  have hissue := Ready.issue_fault (op := .br) (imm := 0) (body := brBody) h (brBody_legal hdst hb hc hmod)
    (if_neg hmisaligned)
  have haddr : BitVec.ofNat 52 (((s.frame f).regs.getS x.a).toNat % 2 ^ 52) = ((s.frame f).regs.getS x.a).setWidth 52 := by
    rw [← BitVec.toNat_setWidth, BitVec.ofNat_toNat, BitVec.setWidth_eq]
  rw [← haddr]
  exact hissue

theorem fetchOutsideEffects : FetchOutsideEffects := by
  intro s f hup hmay hheld hnone
  have hfail : s.toDev.fetchFail f = s.toDev.updFrame f fun fr => fr.stopWith
      { code := 0x0A, unit := 0, precise := true, addrV := true, addr := (s.frame f).pc, space := true } := by
    simp [Dev.fetchFail, hup, hmay, hheld, Dev.fetchAt_of_ungranted hnone]
  exact congrArg s.stepDev hfail

end Sys2Proof.Machine.Claim

/-- Settles O27: each branch goes to its target without a look at the grants, BR faults at a misaligned target, and a fetch
that no X entry grants faults at the program counter. Bits [63:52] of the register of BR are dropped and FRM_FAULT_INSN is 0 at a
failed fetch, which are the model's choices (assumptions 115 and 112). -/
theorem branchTargets : Obligations.BranchTargets :=
  ⟨Claim.branches, Claim.branchOnPredicate, Claim.branchRegisterMisaligned, Claim.fetchOutsideEffects⟩

end

/-! ### The queue of commands, the clock and the state after reset (R383, R467) -/

section
open Sys2Proof Sys2Proof.Machine

namespace Sys2Proof

/-- A change of the values alone. -/
theorem SMap.get?_map {α : Type} (g : α → α) (m : SMap α) (i : Nat) :
    SMap.get? (m.map fun c => (c.1, g c.2)) i = (SMap.get? m i).map g := by
  induction m with
  | nil => rfl
  | cons c m ih =>
    obtain ⟨k, v⟩ := c
    simp only [List.map_cons, SMap.get?]
    split
    · rfl
    · split
      · rfl
      · exact ih

/-- Adding `v` to the entry of each index of a list adds it as often as the index stands there. -/
theorem SMap.get?_foldl_add (v : Word) (is : List Nat) {m : SMap Word} (h : SMap.rising m = true) (j : Nat) :
    (SMap.get? (is.foldl (fun m i => SMap.putD 0 m i ((SMap.get? m i).getD 0 + v)) m) j).getD 0
      = (SMap.get? m j).getD 0 + BitVec.ofNat 64 (is.count j) * v := by
  induction is generalizing m with
  | nil => simp
  | cons i is ih =>
    rw [List.foldl_cons, ih (SMap.rising_putD h), SMap.get?_putD h, List.count_cons]
    by_cases hj : j = i
    · subst hj
      simp only [if_true, beq_self_eq_true, BitVec.ofNat_add, BitVec.add_mul, BitVec.ofNat_eq_ofNat, BitVec.one_mul]
      ac_rfl
    · simp [hj, Ne.symm hj]

namespace Machine

/-- The counter and its fraction together count modulo 2^96. -/
theorem Waggle.tick_count (w : Waggle) :
    ((w.tick.ctr.toNat * 2 ^ 16 + w.tick.sub.toNat : Nat) : Int)
      = (w.ctr.toNat * 2 ^ 16 + w.sub.toNat + 2 ^ 32 + w.rate) % 2 ^ 96 := by
  simp only [Waggle.tick, BitVec.toNat_ofInt]
  push_cast
  omega

theorem Dev.tick_credits (d : Dev) (i : Nat) :
    SMap.get? d.tick.mkt.credits i = (SMap.get? d.mkt.credits i).map fun c => { c with
      cycles := if c.waiters = [] then c.cycles else c.cycles +
        BitVec.ofNat 64 (cyclesAt (d.ns + 1) - cyclesAt d.ns) } := by
  rw [← SMap.get?_map]
  refine congrArg (SMap.get? · i) (List.map_congr_left fun ⟨k, c⟩ _ => ?_)
  obtain ⟨sem, v, waiters, cycles⟩ := c
  cases waiters <;> rfl

theorem Dev.tick_stallIdle (d : Dev) (h : SMap.rising d.mkt.stallIdle = true) (k : BitVec 9) :
    ((SMap.get? d.tick.mkt.stallIdle k.toNat).getD 0 : Word) = (SMap.get? d.mkt.stallIdle k.toNat).getD 0
      + BitVec.ofNat 64 ((cyclesAt (d.ns + 1) - cyclesAt d.ns) * d.fr.toList.countP fun fr => fr.stall == k &&
        d.idleFrame fr) := by
  have hcount : ((d.fr.toList.filter d.idleFrame).map (·.stall.toNat)).count k.toNat
      = d.fr.toList.countP fun fr => fr.stall == k && d.idleFrame fr := by
    rw [List.count, List.countP_map, List.countP_filter]
    refine List.countP_congr fun fr _ => ?_
    simp [BitVec.toNat_inj]
  refine (SMap.get?_foldl_add _ _ h _).trans ?_
  rw [hcount, Nat.mul_comm, BitVec.ofNat_mul]

theorem Dev.tick_frame (d : Dev) (f : FrameId) :
    d.tick.frame f = { d.frame f with ramp := { (d.frame f).ramp with
      rampHold := (d.frame f).ramp.rampHold
        + if (d.frame f).ramp.startHold then BitVec.ofNat 16 (cyclesAt (d.ns + 1) - cyclesAt d.ns) else 0 } } := by
  have hmap : d.tick.frame f = (d.frame f).countStart (cyclesAt (d.ns + 1) - cyclesAt d.ns) := by
    simp [Dev.frame, Dev.tick]
  rw [hmap, Frame.countStart]
  split
  · rfl
  · exact (congrArg (fun v => { d.frame f with ramp := { (d.frame f).ramp with rampHold := v } })
    (BitVec.add_zero _)).symm

theorem step_of_pending_nil {s : State} (h : s.pending = []) : step s = .next { s with toDev := s.toDev.tick } := by
  rw [step, h, State.stepDev_next, h]

end Machine
end Sys2Proof

/-- Settles O1: it is how a step is defined where a command waits. -/
theorem stepRunsFront : Obligations.StepRunsFront := fun _ _ _ => rfl

/-- Settles O3: each arm of the dispatcher hands its device to the state it was given. -/
theorem commandsLeaveQueue : Obligations.CommandsLeaveQueue := by
  intro c s
  cases c <;> exact ⟨_, rfl⟩

/-- Settles O23: a step drops the front of the queue and no command adds to it. -/
theorem queueStaysFormed : Obligations.QueueStaysFormed := by
  refine ⟨rfl, fun s t hformed hstep => ?_⟩
  have htail : t.pending = s.pending.tail := by
    obtain ⟨dev, cs⟩ := s
    cases cs with
    | nil =>
      obtain rfl := Host.Outcome.next.inj ((step_of_pending_nil rfl).symm.trans hstep)
      rfl
    | cons c cs =>
      obtain ⟨d, hexec⟩ := commandsLeaveQueue c { toDev := dev, pending := cs }
      obtain rfl := Host.Outcome.next.inj (hexec.symm.trans hstep)
      rfl
  refine ⟨?_, htail⟩
  rw [htail, List.all_eq_true]
  exact fun c hc => List.all_eq_true.mp hformed c (List.mem_of_mem_tail hc)

/-- Settles O2, counter by counter. -/
theorem emptyQueueTicks : Obligations.EmptyQueueTicks := by
  intro s hempty hrising
  refine ⟨s.toDev.tick, step_of_pending_nil hempty, s.wag.tick_count, fun i => ?_, fun k => ?_, fun f => ?_, rfl⟩
  · exact s.toDev.tick_credits i
  · exact s.toDev.tick_stallIdle hrising k
  · exact s.toDev.tick_frame f

/-- Settles O58: every field has its default. -/
theorem resetState : Obligations.ResetState := by
  refine ⟨?_, ?_⟩
  · refine ⟨rfl, rfl, rfl, rfl, rfl, rfl, rfl, rfl, rfl, rfl, rfl, rfl, rfl, rfl, fun f => ?_, fun p => ?_, fun j => ?_,
    fun i => ?_⟩
    · simp [Dev.frame, State.reset]
    · simp [Dev.port, State.reset]
    · simp [Dev.job, State.reset]
    · simp [State.reset]
  · exact ⟨rfl, fun pa => ⟨rfl, rfl⟩⟩

end

/-! ### Bytes, flits and instruction words (R2, R137, R138, R353, R355) -/

section
open Sys2Proof Sys2Proof.Machine

namespace Sys2Proof.Machine

theorem le_length (n v : Nat) : (le n v).length = n := by
  induction n generalizing v with
  | zero => rfl
  | succ n ih => rw [le, List.length_cons, ih]

theorem unle_le (n v : Nat) : unle (le n v) = v % 256 ^ n := by
  induction n generalizing v with
  | zero => simp [le, unle, Nat.mod_one]
  | succ n ih => rw [le, unle, ih, BitVec.toNat_ofNat, pow_succ' (256 : ℕ), Nat.mod_mul]

theorem field_one {bs : List Byte} {off : Nat} {b : Byte} (h : bs[off]? = some b) : field bs off 1 = b.toNat := by
  obtain ⟨hoff, rfl⟩ := List.getElem?_eq_some_iff.mp h
  rw [field, slice, List.drop_eq_getElem_cons hoff]
  simp only [List.take_succ_cons, List.take_zero, unle, Nat.mul_zero, Nat.add_zero]

theorem field_two {bs : List Byte} {off : Nat} {b c : Byte} (hb : bs[off]? = some b) (hc : bs[off + 1]? = some c) :
    field bs off 2 = b.toNat + 256 * c.toNat := by
  obtain ⟨hoff, rfl⟩ := List.getElem?_eq_some_iff.mp hb
  obtain ⟨hoff', rfl⟩ := List.getElem?_eq_some_iff.mp hc
  rw [field, slice, List.drop_eq_getElem_cons hoff, List.drop_eq_getElem_cons hoff']
  simp only [List.take_succ_cons, List.take_zero, unle, Nat.mul_zero, Nat.add_zero]

theorem allZero_zeros (n : Nat) : allZero (zeros n) = true := by simp [allZero, zeros]

/-- The header of a data flit (R353). -/
def Flit.head (fl : Flit) (seq : BitVec 32) : List Byte :=
  le 1 (fl.cls.toNat + 4 * b2n fl.poison) ++ [fl.proto] ++ le 2 fl.job.toNat ++ le 2 fl.dst.toNat
    ++ le 2 fl.src.toNat ++ le 2 seq.toNat ++ le 1 fl.payload.length ++ [0]

/-- What stands in the payload field of a flit on a link. -/
def Flit.body (fl : Flit) : List Byte := (fl.payload ++ fl.pad ++ zeros 240).take 240

theorem Flit.bytes_eq (fl : Flit) (seq : BitVec 32) :
    fl.bytes seq = fl.head seq ++ fl.body ++ le 4 (flitCrc seq (fl.head seq ++ fl.body)) := rfl

theorem Flit.head_length (fl : Flit) (seq : BitVec 32) : (fl.head seq).length = 12 := rfl

theorem Flit.body_length (fl : Flit) : fl.body.length = 240 := by
  simp only [Flit.body, zeros, List.length_take, List.length_append, List.length_replicate]
  omega

/-- A field of the header. -/
theorem Flit.field_bytes_head (fl : Flit) (seq : BitVec 32) {off n : Nat} (h : off + n ≤ 12) :
    field (fl.bytes seq) off n = field (fl.head seq) off n := by
  have hlen := fl.head_length seq
  rw [Flit.bytes_eq, field, field, slice, slice, List.append_assoc, List.drop_append_of_le_length (by omega),
    List.take_append_of_le_length (by simp; omega)]

theorem Flit.slice_bytes (fl : Flit) (seq : BitVec 32) {off n : Nat} (h : off + n ≤ 240) :
    slice (fl.bytes seq) (0x0C + off) n = slice fl.body off n := by
  have hlen := fl.head_length seq
  have hbody := fl.body_length
  rw [Flit.bytes_eq, slice, slice, List.append_assoc, ← hlen, List.drop_append, List.drop_of_length_le (by omega),
    List.nil_append, Nat.add_sub_cancel_left,
    List.drop_append_of_le_length (by omega), List.take_append_of_le_length (by simp; omega)]

section
variable (fl : Flit) (seq : BitVec 32)

theorem Flit.field_class : field (fl.bytes seq) 0 1 = fl.cls.toNat + 4 * b2n fl.poison := by
  have hcls := fl.cls.isLt
  rw [fl.field_bytes_head seq (by omega), field_one (b := BitVec.ofNat 8 (fl.cls.toNat + 4 * b2n fl.poison)) rfl,
    BitVec.toNat_ofNat, Nat.mod_eq_of_lt (by cases fl.poison <;> simp [b2n] <;> omega)]

theorem Flit.field_proto : field (fl.bytes seq) 1 1 = fl.proto.toNat := by
  rw [fl.field_bytes_head seq (by omega), field_one (b := fl.proto) rfl]

/-- Two bytes of the header spell the 16 bits put there. -/
theorem Flit.field_head_le {off v : Nat} (hoff : off + 2 ≤ 12) (hv : v < 65536)
    (hlo : (fl.head seq)[off]? = some (BitVec.ofNat 8 v)) (hhi : (fl.head seq)[off + 1]? = some
      (BitVec.ofNat 8 (v / 256))) :
    field (fl.bytes seq) off 2 = v := by
  rw [fl.field_bytes_head seq hoff, field_two hlo hhi, BitVec.toNat_ofNat, BitVec.toNat_ofNat]
  omega

theorem Flit.field_job : field (fl.bytes seq) 2 2 = fl.job.toNat :=
  fl.field_head_le seq (by omega) fl.job.isLt rfl rfl

theorem Flit.field_dst : field (fl.bytes seq) 4 2 = fl.dst.toNat :=
  fl.field_head_le seq (by omega) (fl.dst.isLt.trans (by decide)) rfl rfl

theorem Flit.field_src : field (fl.bytes seq) 6 2 = fl.src.toNat :=
  fl.field_head_le seq (by omega) (fl.src.isLt.trans (by decide)) rfl rfl

theorem Flit.field_seq : field (fl.bytes seq) 8 2 = seq.toNat % 65536 := by
  rw [fl.field_bytes_head seq (by omega),
    field_two (b := BitVec.ofNat 8 seq.toNat) (c := BitVec.ofNat 8 (seq.toNat / 256)) rfl rfl, BitVec.toNat_ofNat,
      BitVec.toNat_ofNat]
  omega

theorem Flit.field_len (h : fl.payload.length ≤ 240) : field (fl.bytes seq) 0x0A 1 = fl.payload.length := by
  rw [fl.field_bytes_head seq (by omega), field_one (b := BitVec.ofNat 8 fl.payload.length) rfl, BitVec.toNat_ofNat,
    Nat.mod_eq_of_lt (by omega)]

theorem Flit.field_reserved : field (fl.bytes seq) 0x0B 1 = 0 := by
  rw [fl.field_bytes_head seq (by omega), field_one (b := 0) rfl]
  rfl
end

theorem Flit.slice_body_payload (fl : Flit) (h : fl.payload.length ≤ 240) :
    slice fl.body 0 fl.payload.length = fl.payload := by
  simp [slice, Flit.body, List.take_take, Nat.min_eq_left h]

/-- What stands past the payload's end reads back: nothing where it is all zero. -/
theorem Flit.slice_body_pad (fl : Flit) (h : fl.payload.length ≤ 240)
    (hpad : fl.pad = [] ∨ fl.payload.length + fl.pad.length = 240 ∧ allZero fl.pad = false) :
    (if allZero (slice fl.body fl.payload.length (240 - fl.payload.length)) then []
      else slice fl.body fl.payload.length (240 - fl.payload.length)) = fl.pad := by
  have hrest : slice fl.body fl.payload.length (240 - fl.payload.length) = (fl.pad ++ zeros 240).take
    (240 - fl.payload.length) := by
    rw [slice, Flit.body, List.append_assoc, List.drop_take, List.drop_left, List.take_take, Nat.min_self]
  rw [hrest]
  rcases hpad with hnil | ⟨hlen, hnz⟩
  · have hzero : allZero ((zeros 240).take (240 - fl.payload.length)) = true := by
      rw [zeros, List.take_replicate]
      exact allZero_zeros _
    simp [hnil, hzero]
  · rw [List.take_append_of_le_length (by omega), List.take_of_length_le (by omega)]
    simp [hnz]

theorem Flit.ofBytes_bytes (fl : Flit) (seq : BitVec 32) (h : fl.payload.length ≤ 240) (hplane : fl.plane = none)
    (hstamp : fl.stamp = 0)
    (hpad : fl.pad = [] ∨ fl.payload.length + fl.pad.length = 240 ∧ allZero fl.pad = false) :
    Flit.ofBytes (fl.bytes seq) = fl := by
  have hcls : BitVec.ofNat 2 (fl.cls.toNat + 4 * b2n fl.poison) = fl.cls :=
    BitVec.eq_of_toNat_eq (by rw [BitVec.toNat_ofNat]; have := fl.cls.isLt; omega)
  have hpoison : bit (fl.cls.toNat + 4 * b2n fl.poison) 2 = fl.poison := by
    have := fl.cls.isLt
    rw [bit, Nat.testBit, Nat.shiftRight_eq_div_pow]
    cases fl.poison <;> simp [b2n] <;> omega
  have hdata := fl.slice_bytes seq (off := 0) (n := fl.payload.length) (by omega)
  have hrest := fl.slice_bytes seq (off := fl.payload.length) (n := 240 - fl.payload.length) (by omega)
  rw [Nat.add_zero] at hdata
  simp only [Flit.ofBytes, fl.field_class, fl.field_proto, fl.field_job, fl.field_dst, fl.field_src, fl.field_len seq h,
    hcls, hpoison,
    BitVec.ofNat_toNat, BitVec.setWidth_eq, hdata, hrest, fl.slice_body_payload h, fl.slice_body_pad h hpad]
  cases fl
  simp_all

theorem Flit.bytes_not_malformed (fl : Flit) (seq : BitVec 32) (h : fl.payload.length ≤ 240) (hcls : fl.cls ≠ 3) :
    malformedFlit seq (fl.bytes seq) = false := by
  have hlt := fl.cls.isLt
  have hne : fl.cls.toNat ≠ 3 := fun hc => hcls (BitVec.eq_of_toNat_eq hc)
  have hflag : b2n fl.poison ≤ 1 := by cases fl.poison <;> simp [b2n]
  simp only [malformedFlit, fl.field_class, fl.field_dst, fl.field_src, fl.field_reserved, fl.field_len seq h,
    fl.field_seq, bit,
    Nat.testBit_lt_two_pow fl.dst.isLt, Nat.testBit_lt_two_pow fl.src.isLt, Bool.or_eq_false_iff, beq_eq_false_iff_ne,
    bne_eq_false_iff_eq, decide_eq_false_iff_not, and_true]
  omega

theorem Flit.bytes_crc (fl : Flit) (seq : BitVec 32) :
    field (fl.bytes seq) 252 4 = flitCrc seq ((fl.bytes seq).take 252) := by
  have hlen : (fl.head seq ++ fl.body).length = 252 := by simp [fl.head_length, fl.body_length]
  have hlt : flitCrc seq (fl.head seq ++ fl.body) < 256 ^ 4 := BitVec.isLt _
  rw [Flit.bytes_eq, field, slice, ← hlen, List.drop_left, List.take_left, List.take_of_length_le (by simp [le_length]),
    unle_le,
    Nat.mod_eq_of_lt hlt]

end Sys2Proof.Machine

/-- Settles O21: the header fields do not overlap, and the payload field holds payload, pad and zeros in turn. -/
theorem flitRoundTrip : Obligations.FlitRoundTrip := by
  intro fl seq hlen hplane hstamp hcls hpad
  refine ⟨?_, fl.ofBytes_bytes seq hlen hplane hstamp hpad, fl.bytes_not_malformed seq hlen hcls, fl.bytes_crc seq⟩
  simp [Flit.bytes_eq, fl.head_length, fl.body_length, le_length]

namespace Sys2Proof.Machine

/-- No two operations share an opcode (R138). -/
theorem opOfCode_opcode (op : Op) : opOfCode (Op.opcode op) = some op := by cases op <;> rfl

theorem opcode_lt (op : Op) : Op.opcode op < 256 := by cases op <;> decide
/-- The fields of an instruction's word do not overlap (R137). -/
theorem insnWord_toNat (op : Op) (x : Insn) :
    (insnWord op x).toNat = Op.opcode op * 2 ^ 56 + x.dst.toNat * 2 ^ 50 + x.a.toNat * 2 ^ 44 + x.b.toNat * 2 ^ 38
      + x.c.toNat * 2 ^ 32 + x.mod.toNat := by
  have hop := opcode_lt op
  have hdst := x.dst.isLt
  have ha := x.a.isLt
  have hb := x.b.isLt
  have hc := x.c.isLt
  have hmod := x.mod.isLt
  rw [insnWord, BitVec.toNat_ofNat, Nat.mod_eq_of_lt (by omega)]

theorem extractLsb'_eq_of_toNat {w lo n : Nat} {x : BitVec w} {y : BitVec n} (h : x.toNat / 2 ^ lo % 2 ^ n = y.toNat) :
    x.extractLsb' lo n = y :=
  BitVec.eq_of_toNat_eq (by rw [BitVec.extractLsb'_toNat, Nat.shiftRight_eq_div_pow, h])
end Sys2Proof.Machine

/-- Settles O20, field by field. -/
theorem wordRoundTrip : Obligations.WordRoundTrip := by
  intro op x
  have hop := opcode_lt op
  have hdst := x.dst.isLt
  have ha := x.a.isLt
  have hb := x.b.isLt
  have hc := x.c.isLt
  have hmod := x.mod.isLt
  have hcode : (insnWord op x).extractLsb' 56 8 = BitVec.ofNat 8 (Op.opcode op) :=
    extractLsb'_eq_of_toNat (by rw [insnWord_toNat, BitVec.toNat_ofNat]; omega)
  have hd : (insnWord op x).extractLsb' 50 6 = x.dst := extractLsb'_eq_of_toNat (by rw [insnWord_toNat]; omega)
  have hsa : (insnWord op x).extractLsb' 44 6 = x.a := extractLsb'_eq_of_toNat (by rw [insnWord_toNat]; omega)
  have hsb : (insnWord op x).extractLsb' 38 6 = x.b := extractLsb'_eq_of_toNat (by rw [insnWord_toNat]; omega)
  have hsc : (insnWord op x).extractLsb' 32 6 = x.c := extractLsb'_eq_of_toNat (by rw [insnWord_toNat]; omega)
  have hm : (insnWord op x).extractLsb' 0 32 = x.mod := extractLsb'_eq_of_toNat (by rw [insnWord_toNat]; omega)
  rw [decodeInsn, hcode, hd, hsa, hsb, hsc, hm, BitVec.toNat_ofNat, Nat.mod_eq_of_lt hop, opOfCode_opcode]
  rfl

/-- Settles O19: the decoder computes each word. -/
theorem wordsDecode : Obligations.WordsDecode := by
  unfold Obligations.WordsDecode
  decide

end

/-! ### The canonical form of memory and the order of the context table, as a property of the device

`Dev.Formed` is what `Obligations.MemoryFormKept` speaks of. Each function of the model that answers a device gets one
lemma that it keeps `Dev.Formed`; the lemmas stand in the order of the model's text, so that each needs
those before it. -/

section
open Sys2Proof Sys2Proof.Machine

namespace Sys2Proof.Machine

/-- `Memory.wf` of a memory with these tables: it speaks of nothing else. -/
def memForm (mem : SMap Byte) (poison : SMap Bool) (lost : SMap Nat) : Prop :=
  ({ mem := mem, poison := poison, lost := lost } : Memory).wf = true

/-- What every command keeps: memory is in canonical form and the context table is in order. -/
structure Dev.Formed (d : Dev) : Prop where
  mem : memForm d.mem.mem d.mem.poison d.mem.lost
  ctxs : SMap.rising d.mkt.ctxs = true

theorem Dev.write_formed {d : Dev} (h : d.Formed) (pa : Nat) (bs : List Byte) (psn : Bool) :
    (d.write pa bs psn).Formed :=
  ⟨Memory.write_wf pa bs psn h.mem, h.ctxs⟩

theorem Dev.setCtx_formed {d : Dev} (h : d.Formed) (c : BitVec 12) (x : Ctx) : (d.setCtx c x).Formed :=
  ⟨h.mem, SMap.rising_putD h.ctxs⟩

theorem Dev.OnlyTlbs.formed {a b : Dev} (h : a.OnlyTlbs b) (ha : a.Formed) : b.Formed := by
  obtain ⟨t, n, rfl⟩ := h
  exact ⟨ha.mem, ha.ctxs⟩

/-- Of two devices, one under a condition. -/
theorem Dev.formed_ite {c : Prop} [Decidable c] {a b : Dev} (ha : a.Formed) (hb : b.Formed) :
    (if c then a else b).Formed := by
  split
  · exact ha
  · exact hb

/-! ### Operations on memory -/

theorem memForm_write {m : Memory} (h : memForm m.mem m.poison m.lost) (pa : Nat) (bs : List Byte) (psn : Bool) :
    memForm (m.write pa bs psn).mem (m.write pa bs psn).poison (m.write pa bs psn).lost := Memory.write_wf pa bs psn h

theorem memForm_storeBytes {m : Memory} (h : memForm m.mem m.poison m.lost) (pa : Nat) (bs : List Byte) :
    memForm (m.storeBytes pa bs).mem (m.storeBytes pa bs).poison (m.storeBytes pa bs).lost :=
      Memory.storeBytes_wf bs pa h

theorem memForm_markGran {m : Memory} (h : memForm m.mem m.poison m.lost) (pa : Nat) (p : Bool) :
    memForm (m.markGran pa p).mem (m.markGran pa p).poison (m.markGran pa p).lost := Memory.markGran_wf pa p h

theorem memForm_clearRange {m : Memory} (h : memForm m.mem m.poison m.lost) (lo hi : Nat) :
    memForm (m.clearRange lo hi).mem (m.clearRange lo hi).poison (m.clearRange lo hi).lost :=
      Memory.clearRange_wf lo hi h

theorem memForm_copyRange {m : Memory} (h : memForm m.mem m.poison m.lost) (src dst len : Nat) :
    memForm (m.copyRange src dst len).mem (m.copyRange src dst len).poison (m.copyRange src dst len).lost :=
  Memory.copyRange_wf src dst len h

theorem memForm_applyBuf {m : Memory} (h : memForm m.mem m.poison m.lost) (b : WBuf) (psn : Bool) :
    memForm (m.applyBuf b psn).mem (m.applyBuf b psn).poison (m.applyBuf b psn).lost := Memory.applyBuf_wf b psn h

theorem memForm_foldl_markGran {m : Memory} (h : memForm m.mem m.poison m.lost) (l : List Nat) (p : Bool) :
    memForm (l.foldl (fun m a => m.markGran a p) m).mem (l.foldl (fun m a => m.markGran a p) m).poison
      (l.foldl (fun m a => m.markGran a p) m).lost :=
  Memory.foldl_wf _ (fun _ a hm => Memory.markGran_wf a p hm) l h

/-! ### Repeated steps -/

/-- Steps that each keep the form keep it together. -/
theorem foldl_formed {β : Type} {g : Dev → β → Dev} {l : List β} {d : Dev} (h : d.Formed)
    (hg : ∀ d b, d.Formed → (g d b).Formed) :
    (l.foldl g d).Formed := by
  induction l generalizing d with
  | nil => exact h
  | cons b l ih => exact ih (hg d b h)

/-- Steps that count beside the device. -/
theorem foldl_fst_formed {α β : Type} {g : Dev × α → β → Dev × α} {l : List β} {r : Dev × α} (h : r.1.Formed)
    (hg : ∀ r b, r.1.Formed → (g r b).1.Formed) : (l.foldl g r).1.Formed := by
  induction l generalizing r with
  | nil => exact h
  | cons b l ih => exact ih (hg r b h)

/-- A change of the values alone keeps the order. -/
theorem rising_map {α β : Type} {f : Nat × α → Nat × β} {m : SMap α} (h : SMap.rising m = true)
    (hf : ∀ c, (f c).1 = c.1) :
    SMap.rising (m.map f) = true := by
  rw [SMap.rising_iff] at h ⊢
  exact List.pairwise_map.mpr (h.imp fun {a b} hab => by rw [hf, hf]; exact hab)


/-- Whatever an instruction does when it comes to issue, the device it leaves is well formed. -/
def Issue.Formed : Issue → Prop
  | .next d | .jump d _ | .hold d | .stop d => d.Formed
  | .fault .. => True

/-- A device with another memory. -/
theorem Dev.Formed.withMem {d : Dev} (h : d.Formed) {m : Memory} (hm : memForm m.mem m.poison m.lost) :
    ({ d with mem := m } : Dev).Formed :=
  ⟨hm, h.ctxs⟩

/-- An update that leaves memory and the Task Market alone. -/
theorem Dev.Formed.congr {d e : Dev} (h : d.Formed) (hm : e.mem = d.mem) (hk : e.mkt = d.mkt) : e.Formed :=
  ⟨hm ▸ h.mem, hk ▸ h.ctxs⟩

/-- A device with another Task Market whose context table is the same. -/
theorem Dev.Formed.withMkt {d e : Dev} (h : d.Formed) (hm : e.mem = d.mem := by rfl) (hk : e.mkt.ctxs = d.mkt.ctxs := by
    rfl) : e.Formed :=
  ⟨hm ▸ h.mem, hk ▸ h.ctxs⟩

/-- Frames, and the state of the frame self-test, are no part of what is formed. -/
theorem Dev.Formed.withFrames {d : Dev} (h : d.Formed) (fr : Vector Frame 384) (sec : Firmware) :
    ({ d with fr := fr, sec := sec } : Dev).Formed := ⟨h.mem, h.ctxs⟩

/-- A well formed device is what `Obligations.MemoryFormKept` says of a state. -/
theorem Dev.formed_iff {d : Dev} : d.Formed ↔ d.mem.wf = true ∧ SMap.rising d.mkt.ctxs = true :=
  ⟨fun h => ⟨h.mem, h.ctxs⟩, fun h => ⟨h.1, h.2⟩⟩

end Sys2Proof.Machine
end

/-! ### Formed memory is kept: the named operations over tables -/

section
open Sys2Proof Sys2Proof.Machine

set_option Elab.async false

namespace Sys2Proof.Machine

theorem Dev.setFrame_formed {d : Dev} (h : d.Formed) (f : FrameId) (x : Frame) : (d.setFrame f x).Formed := by
  grind [Dev.Formed, Dev.setFrame]

theorem Dev.updFrame_formed {d : Dev} (h : d.Formed) (f : FrameId) (g : Frame → Frame) : (d.updFrame f g).Formed := by
  grind [Dev.updFrame, Dev.setFrame_formed]

theorem Dev.updCtx_formed {d : Dev} (h : d.Formed) (c : BitVec 12) (g : Ctx → Ctx) : (d.updCtx c g).Formed := by
  grind [Dev.updCtx, Dev.setCtx_formed]

theorem Dev.setQueue_formed {d : Dev} (h : d.Formed) (q : Nat) (x : QRec) : (d.setQueue q x).Formed := by
  grind [Dev.Formed, Dev.setQueue]

theorem Dev.updQueue_formed {d : Dev} (h : d.Formed) (q : Nat) (g : QRec → QRec) : (d.updQueue q g).Formed := by
  grind [Dev.updQueue, Dev.setQueue_formed]

theorem Dev.setCring_formed {d : Dev} (h : d.Formed) (r : Nat) (x : CRing) : (d.setCring r x).Formed := by
  grind [Dev.Formed, Dev.setCring]

theorem Dev.setPort_formed {d : Dev} (h : d.Formed) (p : Port) (x : LPort) : (d.setPort p x).Formed := by
  grind [Dev.Formed, Dev.setPort]

theorem Dev.updPort_formed {d : Dev} (h : d.Formed) (p : Port) (g : LPort → LPort) : (d.updPort p g).Formed := by
  grind [Dev.updPort, Dev.setPort_formed]

theorem Dev.setJob_formed {d : Dev} (h : d.Formed) (j : Nat) (x : Job) : (d.setJob j x).Formed := by
  grind [Dev.Formed, Dev.setJob]

theorem Dev.updJob_formed {d : Dev} (h : d.Formed) (j : Nat) (g : Job → Job) : (d.updJob j g).Formed := by
  grind [Dev.updJob, Dev.setJob_formed]

theorem Dev.setGroup_formed {d : Dev} (h : d.Formed) (g : Nat) (x : Group) : (d.setGroup g x).Formed := by
  grind [Dev.Formed, Dev.setGroup]

theorem Dev.updGraph_formed {d : Dev} (hd : d.Formed) (g : Nat) (h : Graph → Graph) : (d.updGraph g h).Formed := by
  grind [Dev.Formed, Dev.updGraph]

theorem Dev.updTask_formed {d : Dev} (hd : d.Formed) (t : TaskRef) (h : Task → Task) : (d.updTask t h).Formed := by
  grind [Dev.updTask, Dev.updGraph_formed]

theorem Dev.emit_formed {d : Dev} (h : d.Formed) (o : Out) : (d.emit o).Formed := by
  grind [Dev.Formed, Dev.emit]

theorem Dev.draw_formed {d : Dev} (h : d.Formed) : (d.draw).1.Formed := by
  grind [Dev.Formed, Dev.draw]

theorem Dev.msix_formed {d : Dev} (h : d.Formed) (v : Nat) : (d.msix v).Formed := by
  grind [Dev.Formed, Dev.msix, Dev.emit_formed]

theorem Dev.irq_formed {d : Dev} (h : d.Formed) (b : Nat) : (d.irq b).Formed := by
  grind [Dev.Formed, Dev.irq, Dev.msix_formed]

theorem Dev.trace_formed {d : Dev} (h : d.Formed) (point : Nat) (index : Nat) (ctx : Nat) (a0 : Nat) (a1 : Nat) :
    (d.trace point index ctx a0 a1).Formed := by
  grind [Dev.Formed, Dev.trace, Dev.write_formed]

theorem Dev.logEntry_formed {d : Dev} (h : d.Formed) (source : Nat) (level : Nat) :
    (d.logEntry source level).Formed := by
  grind [Dev.Formed, Dev.logEntry, Dev.write_formed]

theorem Dev.ledger_formed {d : Dev} (h : d.Formed) (cls : Nat) (code : Nat) (x : LedF) :
    (d.ledger cls code x).Formed := by
  grind [Dev.Formed, Dev.ledger, Dev.write_formed, Dev.irq_formed]

theorem Dev.tlbInsert_formed {d : Dev} (h : d.Formed) (t : Nat) (e : TlbE) : (d.tlbInsert t e).Formed := by
  grind [Dev.Formed, Dev.tlbInsert, Dev.draw_formed]

theorem Dev.leaf_formed {d : Dev} (h : d.Formed) (u : Nat) (c : BitVec 12) (va : Nat) : (d.leaf u c va).1.Formed := by
  grind [Dev.leaf, Dev.tlbInsert_formed, foldl_formed]

theorem Dev.xlate_formed {d : Dev} (h : d.Formed) (u : Nat) (c : BitVec 12) (va : Nat) (a : Acc6) :
    (d.xlate u c va a).1.Formed := by
  grind [Dev.xlate, Dev.leaf_formed]

theorem Dev.resolve_formed {d : Dev} (h : d.Formed) (u : Nat) (c : BitVec 12) (a : Acc6) (fuel : Nat) (va : Nat)
    (len : Nat) :
    (d.resolve u c a fuel va len).1.Formed :=
  (d.resolve_only u c a fuel va len).formed h

theorem Dev.range_formed {d : Dev} (h : d.Formed) (u : Nat) (c : BitVec 12) (a : Acc6) (va : Nat) (len : Nat) :
    (d.range u c a va len).1.Formed := by
  grind [Dev.range, Dev.resolve_formed]

theorem Dev.memFault_formed {d : Dev} (h : d.Formed) (c : BitVec 12) (x : XErr) (a : Acc6) (unit : Nat) (frame : Nat) :
    (d.memFault c x a unit frame).Formed := by
  grind [Dev.memFault, Dev.write_formed, Dev.updCtx_formed]

theorem Dev.readVirt_formed {d : Dev} (h : d.Formed) (u : Nat) (c : BitVec 12) (va : Nat) (len : Nat) :
    (d.readVirt u c va len).1.Formed := by
  grind [Dev.readVirt, Dev.range_formed]

theorem Dev.writeSegs_formed {d : Dev} (h : d.Formed) (xs : List Seg) (bs : List Byte) (p : Bool) :
    (d.writeSegs xs bs p).Formed := by
  induction xs generalizing d bs with
  | nil => exact h
  | cons x xs ih => grind [Dev.writeSegs, Dev.write_formed]

theorem Dev.writeVirt_formed {d : Dev} (h : d.Formed) (u : Nat) (c : BitVec 12) (va : Nat) (bs : List Byte) (p : Bool) :
    (d.writeVirt u c va bs p).1.Formed := by
  grind [Dev.writeVirt, Dev.range_formed, Dev.writeSegs_formed]

end Sys2Proof.Machine
end

/-! ### Formed memory is kept: routing and sending over the Arvond ports -/

section
open Sys2Proof Sys2Proof.Machine

set_option Elab.async false

namespace Sys2Proof.Machine

theorem Dev.sendFlit_formed {d : Dev} (h : d.Formed) (fl : Flit) : (d.sendFlit fl).1.Formed := by
  grind [Dev.sendFlit, Dev.updPort_formed]

theorem Dev.sendError_formed {d : Dev} (h : d.Formed) (cls : BitVec 2) (job : BitVec 16) (dst : BitVec 15)
    (tag : BitVec 32) (cause : Nat) :
    (d.sendError cls job dst tag cause).Formed := by
  grind [Dev.sendError, Dev.sendFlit_formed]

theorem Dev.consumeIf_formed {d : Dev} (h : d.Formed) (f : Flit → Bool) : (d.consumeIf f).Formed := by
  grind [Dev.consumeIf, Dev.setPort_formed]

theorem Dev.consume_formed {d : Dev} (h : d.Formed) (proto : Byte) (job : BitVec 16) :
    (d.consume proto job).Formed := by
  grind [Dev.consume, Dev.consumeIf_formed]

theorem Dev.consumeTag_formed {d : Dev} (h : d.Formed) (proto : Byte) (tag : BitVec 32) :
    (d.consumeTag proto tag).Formed := by
  grind [Dev.consumeTag, Dev.consumeIf_formed]

theorem Dev.newTag_formed {d : Dev} (h : d.Formed) (o : Origin) (addr : Word) (bytes : Nat) (store : Bool) :
    (d.newTag o addr bytes store).1.Formed := by
  grind [Dev.Formed, Dev.newTag]

theorem Dev.dropReq_formed {d : Dev} (h : d.Formed) (t : BitVec 32) : (d.dropReq t).Formed := by
  grind [Dev.Formed, Dev.dropReq]

theorem Dev.setSem_formed {d : Dev} (h : d.Formed) (n : Nat) (v : Word) : (d.setSem n v).Formed := by
  grind [Dev.Formed, Dev.setSem]

theorem Dev.pushSem_formed {d : Dev} (h : d.Formed) (u : SemUpd) : (d.pushSem u).Formed := by
  grind [Dev.Formed, Dev.pushSem]

theorem Dev.refuseBell_formed {d : Dev} (h : d.Formed) (addr : Word) (from_ : Nat) :
    (d.refuseBell addr from_).Formed := by
  grind [Dev.Formed, Dev.refuseBell, Dev.ledger_formed]

theorem Dev.bellHere_formed {d : Dev} (h : d.Formed) (addr : Word) (value : Word) (add : Bool) (job : BitVec 16)
    (from_ : Nat) (entry : Option (Nat × Nat)) :
    (d.bellHere addr value add job from_ entry).1.Formed := by
  grind [Dev.bellHere, Dev.pushSem_formed, Dev.refuseBell_formed]

theorem Dev.addOne_formed {d : Dev} (h : d.Formed) (job : BitVec 16) (n : Nat) : (d.addOne job n).Formed := by
  grind [Dev.addOne, Dev.bellHere_formed]

theorem Dev.bell_formed {d : Dev} (h : d.Formed) (addr : Word) (value : Word) (add : Bool) (job : BitVec 16)
    (o : Origin)
    (entry : Option (Nat × Nat)) :
    (d.bell addr value add job o entry).1.Formed := by
  grind [Dev.bell, Dev.bellHere_formed, Dev.newTag_formed, Dev.sendFlit_formed, Dev.dropReq_formed]

theorem Dev.sendXch_formed {d : Dev} (h : d.Formed) (p : XPkt) (dst : BitVec 15) (plane : Option Nat) :
    (d.sendXch p dst plane).Formed := by
  grind [Dev.sendXch, Dev.sendFlit_formed]

end Sys2Proof.Machine
end

/-! ### Formed memory is kept: completion records -/

section
open Sys2Proof Sys2Proof.Machine

set_option Elab.async false

namespace Sys2Proof.Machine

theorem Dev.hostRing_formed {d : Dev} (h : d.Formed) (c : BitVec 16) (a : Acc6) (va : Nat) (len : Nat) :
    (d.hostRing c a va len).1.Formed := by
  grind [Dev.hostRing, Dev.range_formed]

theorem Dev.ringRead_formed {d : Dev} (h : d.Formed) (c : BitVec 16) (va : Nat) (len : Nat) :
    (d.ringRead c va len).1.Formed := by
  grind [Dev.ringRead, Dev.hostRing_formed]

theorem Dev.ringWrite_formed {d : Dev} (h : d.Formed) (c : BitVec 16) (va : Nat) (bs : List Byte) :
    (d.ringWrite c va bs).1.Formed := by
  grind [Dev.ringWrite, Dev.hostRing_formed, Dev.writeSegs_formed]

theorem Dev.ringVector_formed {d : Dev} (h : d.Formed) (r : Nat) : (d.ringVector r).Formed := by
  grind [Dev.ringVector, Dev.setCring_formed, Dev.msix_formed]

theorem Dev.capture_formed {d : Dev} (h : d.Formed) (c : Option (BitVec 12)) (x : CapF) : (d.capture c x).Formed := by
  unfold Dev.capture
  split <;> grind [Dev.Formed, Dev.draw_formed, Dev.write_formed, Dev.irq_formed]

theorem Dev.ringError_formed {d : Dev} (h : d.Formed) (r : Nat) (q : Nat) (x : XErr) (a : Acc6) :
    (d.ringError r q x a).Formed := by
  grind [Dev.ringError, Dev.setCring_formed, Dev.capture_formed, Dev.memFault_formed]

theorem Dev.tryRecord_formed {d : Dev} (h : d.Formed) (w : WaitRec) : (d.tryRecord w).1.Formed := by
  grind [Dev.tryRecord, Dev.ringRead_formed, Dev.ringError_formed, Dev.setCring_formed, Dev.ringWrite_formed,
      Dev.ringVector_formed]

theorem Dev.putRecord_formed {d : Dev} (h : d.Formed) (w : WaitRec) : (d.putRecord w).1.Formed := by
  grind [Dev.Formed, Dev.putRecord, Dev.tryRecord_formed]

theorem Dev.complete_formed {d : Dev} (h : d.Formed) (q : Nat) (e : Entry) (st : Status) (i0 : Nat) (i1 : Nat)
    (i2 : Nat)
    (tag : Option Nat) (graph : Option Nat) :
    (d.complete q e st i0 i1 i2 tag graph).1.Formed := by
  grind [Dev.complete, Dev.setQueue_formed, Dev.putRecord_formed]

theorem Dev.faultCtx_formed {d : Dev} (h : d.Formed) (c : BitVec 12) : (d.faultCtx c).Formed := by
  grind [Dev.faultCtx, Dev.updCtx_formed]

theorem Dev.stopQueue_formed {d : Dev} (h : d.Formed) (q : Nat) : (d.stopQueue q).Formed := by
  grind [Dev.stopQueue, Dev.updQueue_formed]

theorem Dev.commandFault_formed {d : Dev} (h : d.Formed) (q : Nat) (c : Option (BitVec 12)) (x : CapF) :
    (d.commandFault q c x).Formed := by
  grind [Dev.commandFault, Dev.stopQueue_formed, Dev.capture_formed]

theorem Dev.failEntry_formed {d : Dev} (h : d.Formed) (q : Nat) (e : Entry) (st : Status) :
    (d.failEntry q e st).Formed := by
  grind [Dev.failEntry, Dev.complete_formed, Dev.faultCtx_formed, Dev.commandFault_formed]

theorem Dev.marketFault_formed {d : Dev} (h : d.Formed) (c : BitVec 12) (cause : Nat) (g : Option Nat) (tag : Word)
    (q : Option Nat) :
    (d.marketFault c cause g tag q).Formed := by
  grind [Dev.marketFault, Dev.faultCtx_formed, Dev.updCtx_formed, Dev.commandFault_formed, Dev.capture_formed]

theorem Dev.sendPeers_formed {d : Dev} (h : d.Formed) (j : Job) (p : XPkt) : (d.sendPeers j p).Formed := by
  grind [Dev.sendPeers, Dev.sendXch_formed, foldl_formed]

theorem Dev.storeStepSem_formed {d : Dev} (h : d.Formed) (j : Nat) : (d.storeStepSem j).Formed := by
  grind [Dev.storeStepSem, Dev.pushSem_formed]

theorem Dev.dropBuckets_formed {d : Dev} (h : d.Formed) (j : Nat) (p : BitVec 32 → Nat → Bool) :
    (d.dropBuckets j p).Formed := by
  grind [Dev.Formed, Dev.dropBuckets, Dev.addOne_formed, foldl_formed]

theorem Dev.dropJobWaits_formed {d : Dev} (h : d.Formed) (j : Nat) (whats : List Commit) :
    (d.dropJobWaits j whats).Formed := by
  grind [Dev.Formed, Dev.dropJobWaits, Dev.updCtx_formed]

theorem Dev.jobFault_formed {d : Dev} (h : d.Formed) (j : Nat) (cause : Nat) (killed : Bool)
    (origin : Option (Nat × Nat)) :
    (d.jobFault j cause killed origin).Formed := by
  grind [Dev.Formed, Dev.jobFault, Dev.sendPeers_formed, Dev.dropBuckets_formed, Dev.addOne_formed,
      Dev.dropJobWaits_formed, Dev.setJob_formed, Dev.storeStepSem_formed, Dev.faultCtx_formed,
      Dev.commandFault_formed, foldl_formed]

theorem Dev.dropTile_formed {d : Dev} (h : d.Formed) (id : Nat) : (d.dropTile id).Formed := by
  grind [Dev.Formed, Dev.dropTile]

theorem Dev.dropCut_formed {d : Dev} (h : d.Formed) (f : FrameId) : (d.dropCut f).Formed := by
  grind [Dev.dropCut, Dev.dropTile_formed, foldl_formed]

theorem Dev.clearFrame_formed {d : Dev} (h : d.Formed) (f : FrameId) : (d.clearFrame f).Formed := by
  grind [Dev.Formed, Dev.clearFrame, Dev.dropCut_formed, Dev.setFrame_formed, memForm_clearRange]

theorem Dev.unbindIfOver_formed {d : Dev} (h : d.Formed) (c : BitVec 12) : (d.unbindIfOver c).Formed := by
  grind [Dev.unbindIfOver, Dev.updCtx_formed]

theorem Dev.endOnFrame_formed {d : Dev} (h : d.Formed) (f : FrameId) : (d.endOnFrame f).Formed := by
  grind [Dev.endOnFrame, Dev.updCtx_formed, Dev.setFrame_formed, Dev.clearFrame_formed, Dev.unbindIfOver_formed]

theorem Dev.ringQueue_formed {d : Dev} (h : d.Formed) (q : Nat) : (d.ringQueue q).Formed := by
  grind [Dev.ringQueue, Dev.updQueue_formed]

theorem Dev.storeSem_formed {d : Dev} (h : d.Formed) (n : Nat) (v : Word) : (d.storeSem n v).Formed := by
  grind [Dev.storeSem, Dev.ringQueue_formed, Dev.setSem_formed, foldl_formed]

theorem Dev.offer_formed {d : Dev} (h : d.Formed) (t : TaskRef) : (d.offer t).Formed := by
  grind [Dev.offer, Dev.updCtx_formed, Dev.updTask_formed]

theorem Dev.setCredit_formed {d : Dev} (h : d.Formed) (ch : Nat) (x : Credit) : (d.setCredit ch x).Formed := by
  grind [Dev.Formed, Dev.setCredit]

theorem Dev.serveCredit_formed {d : Dev} (h : d.Formed) (ch : Nat) (fuel : Nat) : (d.serveCredit ch fuel).Formed := by
  induction fuel generalizing d with
  | zero => exact h
  | succ n ih => grind [Dev.serveCredit, Dev.setCredit_formed, Dev.storeSem_formed, Dev.offer_formed]

theorem Dev.serveChannel_formed {d : Dev} (h : d.Formed) (ch : Nat) : (d.serveChannel ch).Formed := by
  grind [Dev.serveChannel, Dev.serveCredit_formed]

theorem Dev.forgetTasks_formed {d : Dev} (h : d.Formed) (p : TaskRef → Bool) : (d.forgetTasks p).Formed := by
  grind [Dev.Formed, Dev.forgetTasks, Dev.serveChannel_formed, foldl_formed]

theorem Dev.discardIdle_formed {d : Dev} (h : d.Formed) (p : Nat → Bool) : (d.discardIdle p).Formed := by
  grind [Dev.Formed, Dev.discardIdle, Dev.forgetTasks_formed]

theorem Dev.settle_formed {d : Dev} (h : d.Formed) (f : FrameId) : (d.settle f).Formed := by
  grind [Dev.settle, Dev.updTask_formed, Dev.endOnFrame_formed, Dev.setFrame_formed]

theorem Dev.undoGrants_formed {d : Dev} (h : d.Formed) (p : TaskRef → Bool) : (d.undoGrants p).Formed := by
  grind [Dev.undoGrants, Dev.updFrame_formed, Dev.updTask_formed, foldl_formed]

theorem Dev.kill_formed {d : Dev} (h : d.Formed) (c : BitVec 12) (row : Nat) (addr : Nat) (at_ : KillAt) :
    (d.kill c row addr at_).Formed := by
  grind [Dev.Formed, Dev.kill, Dev.setCtx_formed, Dev.discardIdle_formed, Dev.undoGrants_formed, Dev.settle_formed,
      Dev.updFrame_formed, Dev.stopQueue_formed, Dev.capture_formed, Dev.ledger_formed, Dev.jobFault_formed,
      foldl_formed]

end Sys2Proof.Machine
end

/-! ### Formed memory is kept: operands of frame instructions -/

section
open Sys2Proof Sys2Proof.Machine

set_option Elab.async false

namespace Sys2Proof.Machine

theorem Dev.tryIssue_formed {d : Dev} (h : d.Formed) (f : FrameId) (op : Op) (x : Insn) (imm : Word) (body : Body)
    (hbody : (body.act d f x imm).Formed) :
    (d.tryIssue f op x imm body).Formed := by
  simp only [Dev.tryIssue]
  split
  · exact Dev.setFrame_formed h f _
  · split
    · exact Dev.setFrame_formed h f _
    · split <;> grind [Issue.Formed, Dev.updFrame_formed]

theorem Dev.issue_formed {d : Dev} (h : d.Formed) (f : FrameId) (op : Op) (x : Insn) (imm : Word) (body : Body)
    (hbody : (body.act d f x imm).Formed) :
    (d.issue f op x imm body).Formed := by
  simp only [Dev.issue]
  split
  · exact Dev.tryIssue_formed h f op x imm body hbody
  · exact h

theorem Dev.pages_formed {d : Dev} (h : d.Formed) (f : FrameId) (c : BitVec 12) (a : Acc6) (xs : List Nat) :
    (d.pages f c a xs).1.Formed :=
  (d.pages_only f c a xs).formed h

theorem Dev.view_formed {d : Dev} (h : d.Formed) (f : FrameId) (s : Span) (a : Acc6) : (d.view f s a).1.Formed := by
  grind [Dev.view, Dev.pages_formed]

theorem Dev.inOwnComb_formed {d : Dev} (h : d.Formed) (f : FrameId) (s : Span) (a : Acc6) :
    (d.inOwnComb f s a).1.Formed := by
  grind [Dev.inOwnComb, Dev.xlate_formed]

theorem Dev.allOwnComb_formed {d : Dev} (h : d.Formed) (f : FrameId) (xs : List (Span × Acc6)) :
    (d.allOwnComb f xs).1.Formed := by
  induction xs generalizing d with
  | nil => exact h
  | cons x xs ih => grind [Dev.allOwnComb, Dev.inOwnComb_formed]

end Sys2Proof.Machine
end

/-! ### Formed memory is kept: shared operations of guard passes -/

section
open Sys2Proof Sys2Proof.Machine

set_option Elab.async false

namespace Sys2Proof.Machine

theorem Dev.updTile_formed {d : Dev} (h : d.Formed) (id : Nat) (g : GTile → GTile) : (d.updTile id g).Formed := by
  grind [Dev.Formed, Dev.updTile]

theorem Dev.drawOne_formed {d : Dev} (h : d.Formed) (f : FrameId) : (d.drawOne f).1.Formed := by
  grind [Dev.drawOne, Dev.setFrame_formed]

theorem Dev.openTile_formed {d : Dev} (h : d.Formed) (f : FrameId) (j : MmaJob) (half : Bool) (bytes : Nat) :
    (d.openTile f j half bytes).1.Formed := by
  grind [Dev.Formed, Dev.openTile, Dev.trace_formed, Dev.updFrame_formed]

theorem Dev.guardRecord_formed {d : Dev} (h : d.Formed) (code : Nat) (t : GTile) (ref : Word) :
    (d.guardRecord code t ref).Formed := by
  grind [Dev.guardRecord, Dev.ledger_formed]

theorem Dev.unverified_formed {d : Dev} (h : d.Formed) (t : GTile) : (d.unverified t).Formed := by
  grind [Dev.Formed, Dev.unverified, Dev.dropTile_formed, Dev.guardRecord_formed]

theorem Dev.assignGuard_formed {d : Dev} (h : d.Formed) (id : Nat) : (d.assignGuard id).Formed := by
  grind [Dev.assignGuard, Dev.updTile_formed, Dev.unverified_formed, Dev.updFrame_formed]

theorem Dev.assignReferee_formed {d : Dev} (h : d.Formed) (id : Nat) : (d.assignReferee id).Formed := by
  grind [Dev.assignReferee, Dev.updTile_formed, Dev.unverified_formed, Dev.updFrame_formed]

theorem Dev.closeTile_formed {d : Dev} (h : d.Formed) (id : Nat) (tally : Word) (psn : Bool) :
    (d.closeTile id tally psn).Formed := by
  grind [Dev.Formed, Dev.closeTile, Dev.dropTile_formed, Dev.assignGuard_formed, Dev.updTile_formed]

theorem Dev.assignWaiting_formed {d : Dev} (h : d.Formed) (cl : Nat) : (d.assignWaiting cl).Formed := by
  grind [Dev.assignWaiting, Dev.assignGuard_formed, Dev.assignReferee_formed, foldl_formed]

theorem Dev.taintCtx_formed {d : Dev} (h : d.Formed) (c : BitVec 12) : (d.taintCtx c).Formed := by
  grind [Dev.taintCtx, Dev.updCtx_formed]

theorem Dev.setSusp_formed {d : Dev} (h : d.Formed) (f : FrameId) (s : Nat) : (d.setSusp f s).Formed := by
  grind [Dev.setSusp, Dev.updFrame_formed]

theorem Dev.flagFrame_formed {d : Dev} (h : d.Formed) (f : FrameId) : (d.flagFrame f).Formed := by
  grind [Dev.flagFrame, Dev.updFrame_formed]

theorem Dev.tilePassed_formed {d : Dev} (h : d.Formed) (f : FrameId) : (d.tilePassed f).Formed := by
  grind [Dev.tilePassed, Dev.updFrame_formed]

theorem Dev.mismatch_formed {d : Dev} (h : d.Formed) : (d.mismatch).Formed := by
  grind [Dev.Formed, Dev.mismatch]

theorem Dev.verdict_formed {d : Dev} (h : d.Formed) (id : Nat) (tally : Word) : (d.verdict id tally).Formed := by
  grind [Dev.verdict, Dev.dropTile_formed, Dev.tilePassed_formed, Dev.assignReferee_formed, Dev.updTile_formed,
      Dev.mismatch_formed, Dev.guardRecord_formed, Dev.flagFrame_formed, Dev.taintCtx_formed, Dev.setSusp_formed,
      foldl_formed]

theorem Dev.coverCommit_formed {d : Dev} (h : d.Formed) (c : BitVec 12) (what : Commit) :
    (d.coverCommit c what).Formed := by
  grind [Dev.Formed, Dev.coverCommit]

theorem Dev.promoteCommit_formed {d : Dev} (h : d.Formed) (j : Nat) : (d.promoteCommit j).Formed := by
  grind [Dev.Formed, Dev.promoteCommit]

theorem Dev.guardWait_formed {d : Dev} (h : d.Formed) (c : BitVec 12) (what : Commit) :
    (d.guardWait c what).1.Formed := by
  grind [Dev.Formed, Dev.guardWait, Dev.updCtx_formed]

theorem Dev.beginSave_formed {d : Dev} (h : d.Formed) (c : BitVec 12) : (d.beginSave c).Formed := by
  grind [Dev.beginSave, Dev.write_formed, Dev.updFrame_formed, Dev.setCtx_formed, foldl_formed]

theorem Dev.beforeCommit_formed {d : Dev} (h : d.Formed) (x : Commit) : (d.beforeCommit x).Formed := by
  unfold Dev.beforeCommit
  split <;> grind [Dev.Formed, Dev.updFrame_formed]

theorem Dev.commitReady_formed {d : Dev} (h : d.Formed) (c : BitVec 12) (what : Commit) :
    (d.commitReady c what).1.Formed := by
  grind [Dev.commitReady, Dev.beginSave_formed, Dev.beforeCommit_formed, Dev.settle_formed, Dev.guardWait_formed,
      foldl_formed]

end Sys2Proof.Machine
end

/-! ### Formed memory is kept: shared operations of the Task Market -/

section
open Sys2Proof Sys2Proof.Machine

set_option Elab.async false

namespace Sys2Proof.Machine

theorem Dev.release_formed {d : Dev} (h : d.Formed) (t : TaskRef) : (d.release t).Formed := by
  grind [Dev.release, Dev.offer_formed, Dev.marketFault_formed, Dev.trace_formed, Dev.updTask_formed,
      Dev.serveChannel_formed, Dev.setCredit_formed]

theorem Dev.decrement_formed {d : Dev} (h : d.Formed) (t : TaskRef) (hold : Bool) : (d.decrement t hold).Formed := by
  grind [Dev.decrement, Dev.marketFault_formed, Dev.updTask_formed, Dev.release_formed]

theorem Dev.decArrives_formed {d : Dev} (h : d.Formed) (x : Dec) (hold : Bool) : (d.decArrives x hold).Formed := by
  grind [Dev.decArrives, Dev.decrement_formed, Dev.marketFault_formed]

theorem Dev.releaseAll_formed {d : Dev} (h : d.Formed) (ts : List TaskRef) : (d.releaseAll ts).Formed := by
  grind [Dev.releaseAll, Dev.release_formed, foldl_formed]

theorem Dev.fireWatcher_formed {d : Dev} (h : d.Formed) (w : Watcher) : (d.fireWatcher w).Formed := by
  grind [Dev.fireWatcher, Dev.decArrives_formed, Dev.complete_formed]

theorem Dev.applySem_formed {d : Dev} (h : d.Formed) (u : SemUpd) : (d.applySem u).Formed := by
  grind [Dev.Formed, Dev.applySem, Dev.storeSem_formed, Dev.fireWatcher_formed, Dev.releaseAll_formed,
      Dev.serveChannel_formed, Dev.complete_formed, foldl_formed]

theorem Dev.mktRead_formed {d : Dev} (h : d.Formed) (c : BitVec 12) (va : Nat) (len : Nat) :
    (d.mktRead c va len).1.Formed := by
  grind [Dev.mktRead, Dev.readVirt_formed, Dev.memFault_formed]

theorem Dev.readSuccs_formed {d : Dev} (h : d.Formed) (c : BitVec 12) (succ : Nat) (ntask : Nat)
    (xs : List (Task × Nat × Nat)) :
    (d.readSuccs c succ ntask xs).1.Formed := by
  induction xs generalizing d with
  | nil => exact h
  | cons x xs ih =>
    obtain ⟨t, si, sn⟩ := x
    have hread : (if sn = 0 then (d, some []) else d.mktRead c (succ + 4 * si) (4 * sn)).1.Formed := by
      split
      · exact h
      · exact Dev.mktRead_formed h _ _ _
    unfold Dev.readSuccs
    generalize (if sn = 0 then (d, some []) else d.mktRead c (succ + 4 * si) (4 * sn)) = r at *
    grind

theorem Dev.registerExts_formed {d : Dev} (h : d.Formed) (g : Nat) (es : List (Nat × Nat × Nat)) :
    (d.registerExts g es).Formed := by
  grind [Dev.Formed, Dev.registerExts, Dev.decrement_formed, foldl_formed]

theorem Dev.releaseReady_formed {d : Dev} (h : d.Formed) (g : Nat) (n : Nat) : (d.releaseReady g n).Formed := by
  grind [Dev.releaseReady, Dev.release_formed, foldl_formed]

theorem Dev.addGraph_formed {d : Dev} (h : d.Formed) (c : BitVec 12) (q : Nat) (seq : Nat) (kind : GKind) (g : GDesc)
    (ts : List Task) :
    (d.addGraph c q seq kind g ts).1.Formed := by
  grind [Dev.Formed, Dev.addGraph]

theorem Dev.launchDesc_formed {d : Dev} (h : d.Formed) (c : BitVec 12) (q : Nat) (e : Entry) (batch : Bool)
    (g : GDesc) :
    (d.launchDesc c q e batch g).1.Formed := by
  unfold Dev.launchDesc
  split
  · grind [Dev.Formed, Dev.mktRead_formed, Dev.readSuccs_formed, Dev.addGraph_formed, Dev.updQueue_formed,
      Dev.releaseReady_formed, Dev.registerExts_formed]
  · split <;> grind [Dev.Formed, Dev.mktRead_formed, Dev.readSuccs_formed, Dev.addGraph_formed, Dev.updQueue_formed,
      Dev.releaseReady_formed, Dev.registerExts_formed]

theorem Dev.launchEntry_formed {d : Dev} (h : d.Formed) (c : BitVec 12) (q : Nat) (e : Entry) (batch : Bool) :
    (d.launchEntry c q e batch).1.Formed := by
  grind [Dev.launchEntry, Dev.launchDesc_formed, Dev.mktRead_formed]

theorem Dev.dropGraph_formed {d : Dev} (h : d.Formed) (g : Nat) : (d.dropGraph g).Formed := by
  grind [Dev.Formed, Dev.dropGraph]

theorem Dev.bellFailed_formed {d : Dev} (h : d.Formed) (c : BitVec 12) (q : Nat) (tag : Word) (addr : Word) (add : Bool)
    (cause : Nat) :
    (d.bellFailed c q tag addr add cause).Formed := by
  grind [Dev.bellFailed, Dev.memFault_formed, Dev.marketFault_formed]

theorem Dev.graphBell_formed {d : Dev} (h : d.Formed) (id : Nat) : (d.graphBell id).Formed := by
  grind [Dev.graphBell, Dev.dropGraph_formed, Dev.commitReady_formed, Dev.kill_formed, Dev.bell_formed,
      Dev.bellFailed_formed]

theorem Dev.settleGraph_formed {d : Dev} (h : d.Formed) (id : Nat) (i0 : Nat) (i1 : Nat) :
    (d.settleGraph id i0 i1).Formed := by
  grind [Dev.settleGraph, Dev.updGraph_formed, Dev.complete_formed, Dev.graphBell_formed]

theorem Dev.taskDone_formed {d : Dev} (h : d.Formed) (t : TaskRef) (i0 : Nat) (i1 : Nat) :
    (d.taskDone t i0 i1).Formed := by
  grind [Dev.Formed, Dev.taskDone, Dev.updTask_formed, Dev.settleGraph_formed]

theorem Dev.resumeGraphs_formed {d : Dev} (h : d.Formed) : (d.resumeGraphs).Formed := by
  grind [Dev.resumeGraphs, Dev.graphBell_formed, foldl_formed]

theorem Dev.reapGraphs_formed {d : Dev} (h : d.Formed) : (d.reapGraphs).Formed := by
  grind [Dev.Formed, Dev.reapGraphs]

theorem Dev.haltFrame_formed {d : Dev} (h : d.Formed) (f : FrameId) : (d.haltFrame f).1.Formed := by
  grind [Dev.haltFrame, Dev.settle_formed, Dev.setFrame_formed]

theorem Dev.stopGraphs_formed {d : Dev} (h : d.Formed) (p : Graph → Bool) : (d.stopGraphs p).1.Formed := by
  grind [Dev.Formed, Dev.stopGraphs, Dev.discardIdle_formed, Dev.undoGrants_formed, Dev.haltFrame_formed,
      Dev.reapGraphs_formed, foldl_formed, foldl_fst_formed]

theorem Dev.abortFaulted_formed {d : Dev} (h : d.Formed) (c : BitVec 12) : (d.abortFaulted c).Formed := by
  grind [Dev.abortFaulted, Dev.undoGrants_formed, Dev.discardIdle_formed, Dev.updGraph_formed, Dev.haltFrame_formed,
      Dev.complete_formed, Dev.reapGraphs_formed, foldl_formed]

end Sys2Proof.Machine
end

/-! ### Formed memory is kept: errors of memory as reads meet them -/

section
open Sys2Proof Sys2Proof.Machine

set_option Elab.async false

namespace Sys2Proof.Machine

theorem Dev.updMErr_formed {d : Dev} (h : d.Formed) (sram : Bool) (i : Nat) (g : MErr → MErr) :
    (d.updMErr sram i g).Formed := by
  grind [Dev.Formed, Dev.updMErr]

theorem Dev.uncorrectable_formed {d : Dev} (h : d.Formed) (pa : Nat) (unit : Nat) (index : Nat) (syn : Nat)
    (code : Nat) :
    (d.uncorrectable pa unit index syn code).Formed := by
  grind [Dev.Formed, Dev.uncorrectable, Dev.ledger_formed, memForm_markGran]

theorem Dev.spareRow_formed {d : Dev} (h : d.Formed) (r : RowCopy) : (d.spareRow r).Formed := by
  grind [Dev.Formed, Dev.spareRow]

theorem Dev.hardLine_formed {d : Dev} (h : d.Formed) (pa : Nat) (uncorr : Bool) : (d.hardLine pa uncorr).Formed := by
  grind [Dev.Formed, Dev.hardLine, Dev.spareRow_formed]

theorem Dev.lsCorrected_formed {d : Dev} (h : d.Formed) (f : FrameId) : (d.lsCorrected f).Formed := by
  grind [Dev.lsCorrected, Dev.updFrame_formed, Dev.setSusp_formed]

theorem Dev.pushBack_formed {d : Dev} (h : d.Formed) (pa : Nat) (bs : List Byte) : (d.pushBack pa bs).Formed := by
  grind [Dev.Formed, Dev.pushBack]

theorem Dev.dramRead_formed {d : Dev} (h : d.Formed) (line : Nat) (o : ScrubObs) (patrol : Bool) :
    (d.dramRead line o patrol).Formed := by
  grind [Dev.Formed, Dev.dramRead, Dev.hardLine_formed, Dev.updMErr_formed, Dev.pushBack_formed,
      Dev.uncorrectable_formed, foldl_formed, memForm_storeBytes, memForm_markGran]

theorem Dev.wordCorrected_formed {d : Dev} (h : d.Formed) (cl : Nat) (f : Option FrameId) (pa : Nat) :
    (d.wordCorrected cl f pa).Formed := by
  unfold Dev.wordCorrected
  split <;> grind [Dev.Formed, Dev.pushBack_formed, Dev.updMErr_formed, Dev.lsCorrected_formed]

theorem Dev.sramRead_formed {d : Dev} (h : d.Formed) (line : Nat) (o : ScrubObs) (patrol : Bool) :
    (d.sramRead line o patrol).Formed := by
  grind [Dev.Formed, Dev.sramRead, Dev.wordCorrected_formed, Dev.hardLine_formed, Dev.uncorrectable_formed,
      Dev.updMErr_formed, foldl_formed, memForm_markGran]

theorem Dev.lineRead_formed {d : Dev} (h : d.Formed) (line : Nat) (o : ScrubObs) (patrol : Bool) :
    (d.lineRead line o patrol).Formed := by
  grind [Dev.lineRead, Dev.dramRead_formed, Dev.sramRead_formed]

theorem Dev.demandRead_formed {d : Dev} (h : d.Formed) (lines : List Nat) (errs : LineErrs) :
    (d.demandRead lines errs).Formed := by
  grind [Dev.demandRead, Dev.lineRead_formed, foldl_formed]

theorem Dev.applyRepair_formed {d : Dev} (h : d.Formed) (e : RepairEntry) : (d.applyRepair e).Formed := by
  grind [Dev.Formed, Dev.applyRepair]

theorem Dev.applyRepairs_formed {d : Dev} (h : d.Formed) (es : List RepairEntry) : (d.applyRepairs es).Formed := by
  grind [Dev.applyRepairs, Dev.applyRepair_formed, foldl_formed]

end Sys2Proof.Machine
end

/-! ### Formed memory is kept: the matrix instructions -/

section
open Sys2Proof Sys2Proof.Machine

set_option Elab.async false

namespace Sys2Proof.Machine

theorem Dev.readWeights_formed {d : Dev} (h : d.Formed) (f : FrameId) (j : MmaJob) (t : Tensor) :
    (d.readWeights f j t).1.Formed := by
  grind [Dev.readWeights, Dev.view_formed]

theorem Dev.startArray_formed {d : Dev} (h : d.Formed) (f : FrameId) : (d.startArray f).1.Formed := by
  grind [Dev.Formed, Dev.startArray, Dev.updFrame_formed, Dev.setFrame_formed]

theorem Dev.updMma_formed {d : Dev} (h : d.Formed) (f : FrameId) (i : Nat) (g : MmaJob → MmaJob) :
    (d.updMma f i g).Formed := by
  grind [Dev.updMma, Dev.updFrame_formed]

theorem Dev.shapeFault_formed {d : Dev} (h : d.Formed) (f : FrameId) (j : MmaJob) : (d.shapeFault f j).Formed := by
  grind [Dev.shapeFault, Dev.updFrame_formed]

theorem Dev.drawTile_formed {d : Dev} (h : d.Formed) (f : FrameId) (j : MmaJob) : (d.drawTile f j).1.Formed := by
  grind [Dev.drawTile, Dev.drawOne_formed]

theorem Dev.recordTile_formed {d : Dev} (h : d.Formed) (f : FrameId) (hit : Bool) (j : MmaJob) :
    (d.recordTile f hit j).1.Formed := by
  grind [Dev.recordTile, Dev.openTile_formed]

theorem Dev.beginStream_formed {d : Dev} (h : d.Formed) (f : FrameId) (i : Nat) (j : MmaJob) :
    (d.beginStream f i j).Formed := by
  grind [Dev.beginStream, Dev.drawTile_formed, Dev.updMma_formed, Dev.startArray_formed, Dev.updFrame_formed,
      Dev.recordTile_formed]

theorem Dev.nextTile_formed {d : Dev} (h : d.Formed) (f : FrameId) (i : Nat) (j : MmaJob) :
    (d.nextTile f i j).1.Formed := by
  grind [Dev.nextTile, Dev.drawTile_formed, Dev.updMma_formed, Dev.recordTile_formed]

theorem Dev.pumpMma_formed {d : Dev} (h : d.Formed) (f : FrameId) (n : Nat) : (d.pumpMma f n).Formed := by
  induction n generalizing d with
  | zero => exact h
  | succ n ih => grind [Dev.pumpMma, Dev.range_formed, Dev.shapeFault_formed, Dev.beginStream_formed]

theorem Dev.loadPlane_formed {d : Dev} (h : d.Formed) (f : FrameId) : (d.loadPlane f).Formed := by
  simp only [Dev.loadPlane]
  split <;> grind [Dev.Formed, Dev.shapeFault_formed, Dev.updMma_formed, Dev.readWeights_formed, Dev.updFrame_formed,
      Dev.pumpMma_formed, foldl_formed]

theorem Dev.drainViews_formed {d : Dev} (h : d.Formed) (f : FrameId) (j : MmaJob) : (d.drainViews f j).1.Formed := by
  grind [Dev.drainViews, Dev.view_formed]

theorem Dev.drainRows_formed {d : Dev} (h : d.Formed) (f : FrameId) (j : MmaJob) (dv : DrainViews) :
    (d.drainRows f j dv).Formed :=
  Dev.setFrame_formed (h.withMem (memForm_foldl_markGran (memForm_applyBuf h.mem _ _) _ true)) f _

theorem Dev.endTile_formed {d : Dev} (h : d.Formed) (f : FrameId) (j : MmaJob) (dv : DrainViews) :
    (d.endTile f j dv).Formed := by
  grind [Dev.endTile, Dev.closeTile_formed, Dev.updTile_formed]

theorem Dev.streamTiles_formed {d : Dev} (h : d.Formed) (f : FrameId) (i : Nat) (dv : DrainViews) (n : Nat) :
    (d.streamTiles f i dv n).1.Formed := by
  induction n generalizing d with
  | zero => exact h
  | succ n ih => grind [Dev.streamTiles, Dev.endTile_formed, Dev.nextTile_formed]

theorem Dev.finishMma_formed {d : Dev} (h : d.Formed) (f : FrameId) (i : Nat) (j : MmaJob) (dv : DrainViews) :
    (d.finishMma f i j dv).Formed := by
  grind [Dev.finishMma, Dev.pumpMma_formed, Dev.updFrame_formed, Dev.drainRows_formed]

theorem Dev.completeMma_formed {d : Dev} (h : d.Formed) (m : MmaEnd) : (d.completeMma m).Formed := by
  grind [Dev.completeMma, Dev.drainViews_formed, Dev.streamTiles_formed, Dev.demandRead_formed,
      Dev.resumeGraphs_formed, Dev.settle_formed, Dev.finishMma_formed, Dev.updFrame_formed]

end Sys2Proof.Machine
end

/-! ### Formed memory is kept: the activity ramp -/

section
open Sys2Proof Sys2Proof.Machine

set_option Elab.async false

namespace Sys2Proof.Machine

theorem Dev.rampRise_formed {d : Dev} (h : d.Formed) (f : FrameId) (demand : Nat) (held : Nat) :
    (d.rampRise f demand held).Formed := by
  grind [Dev.rampRise, Dev.startArray_formed, Dev.updFrame_formed]

theorem Dev.moveGuardWork_formed {d : Dev} (h : d.Formed) (f : FrameId) : (d.moveGuardWork f).Formed := by
  grind [Dev.moveGuardWork, Dev.updFrame_formed, Dev.assignGuard_formed, Dev.assignReferee_formed, foldl_formed]

theorem Dev.leaveService_formed {d : Dev} (h : d.Formed) (fs : List (FrameId × Nat)) : (d.leaveService fs).Formed := by
  grind [Dev.Formed, Dev.leaveService, Dev.updFrame_formed, Dev.moveGuardWork_formed, Dev.ledger_formed, foldl_formed]

theorem Dev.removeFlagged_formed {d : Dev} (h : d.Formed) (f : FrameId) : (d.removeFlagged f).Formed := by
  grind [Dev.removeFlagged, Dev.leaveService_formed]

theorem Dev.bufferFreed_formed {d : Dev} (h : d.Formed) (f : FrameId) : (d.bufferFreed f).Formed := by
  grind [Dev.bufferFreed, Dev.nextTile_formed, Dev.pumpMma_formed, Dev.beginStream_formed]

theorem Dev.guardTake_formed {d : Dev} (h : d.Formed) (f : FrameId) : (d.guardTake f).Formed := by
  grind [Dev.guardTake, Dev.setFrame_formed]

theorem Dev.guardDone_formed {d : Dev} (h : d.Formed) (f : FrameId) (fault : Word) : (d.guardDone f fault).Formed := by
  grind [Dev.guardDone, Dev.setFrame_formed, Dev.updCtx_formed, Dev.resumeGraphs_formed, Dev.verdict_formed]

theorem Dev.guardExpire_formed {d : Dev} (h : d.Formed) (c : BitVec 12) : (d.guardExpire c).Formed := by
  unfold Dev.guardExpire
  split <;> grind [Dev.Formed, Dev.updTile_formed, Dev.guardRecord_formed, Dev.resumeGraphs_formed, foldl_formed]

end Sys2Proof.Machine
end

/-! ### Formed memory is kept: the mover -/

section
open Sys2Proof Sys2Proof.Machine

set_option Elab.async false

namespace Sys2Proof.Machine

theorem Dev.viewOf_formed {d : Dev} (h : d.Formed) (f : FrameId) (space : Bool) (addrs : List Nat) (a : Acc6) :
    (d.viewOf f space addrs a).1.Formed := by
  grind [Dev.viewOf, Dev.pages_formed]

theorem Dev.lineData_formed {d : Dev} (h : d.Formed) (f : FrameId) (m : Move) (ps : List (Nat × Nat)) (host : List Byte)
    (hostPsn : Bool) :
    (d.lineData f m ps host hostPsn).1.Formed := by
  grind [Dev.lineData, Dev.viewOf_formed]

theorem Dev.updMove_formed {d : Dev} (h : d.Formed) (f : FrameId) (i : Nat) (g : Move → Move) :
    (d.updMove f i g).Formed := by
  grind [Dev.updMove, Dev.updFrame_formed]

theorem Dev.readRemote_formed {d : Dev} (h : d.Formed) (f : FrameId) (o : Origin) (va : Nat) :
    (d.readRemote f o va).1.Formed := by
  grind [Dev.readRemote, Dev.xlate_formed, Dev.newTag_formed, Dev.sendFlit_formed, Dev.dropReq_formed]

theorem Dev.writeRemote_formed {d : Dev} (h : d.Formed) (c : BitVec 12) (o : Origin) (va : Nat) (dev : BitVec 15)
    (pa : Nat) (bs : List Byte) (psn : Bool) :
    (d.writeRemote c o va dev pa bs psn).1.Formed := by
  grind [Dev.writeRemote, Dev.newTag_formed, Dev.sendFlit_formed, Dev.dropReq_formed]

theorem Dev.accessFault_formed {d : Dev} (h : d.Formed) (f : FrameId) (x : XErr) (a : Acc6) (unit : Nat) (word : Word) :
    (d.accessFault f x a unit word).Formed := by
  grind [Dev.accessFault, Dev.memFault_formed, Dev.updFrame_formed]

theorem Dev.failMove_formed {d : Dev} (h : d.Formed) (f : FrameId) (i : Nat) (x : XErr) (a : Acc6) :
    (d.failMove f i x a).Formed := by
  grind [Dev.failMove, Dev.accessFault_formed, Dev.updMove_formed]

theorem Dev.putLine_formed {d : Dev} (h : d.Formed) (f : FrameId) (i : Nat) (line : Nat) (m : Move) (v : View)
    (bs : List MByte) :
    (d.putLine f i line m v bs).Formed := by
  have hmem := h.withMem (memForm_foldl_markGran (memForm_applyBuf h.mem
    (bs.foldl (fun (w : WBuf) b => w.putByte (v.pa b.addr) b.v b.mask) []) false) ((bs.filter (·.psn)).map fun b => v.pa
      b.addr) true)
  simp only [Dev.putLine]
  split
  · exact Dev.updCtx_formed (Dev.setFrame_formed hmem f _) _ _
  · exact Dev.setFrame_formed hmem f _

theorem Dev.sendLine_formed {d : Dev} (h : d.Formed) (f : FrameId) (i : Nat) (line : Nat) (m : Move) (v : View)
    (bs : List MByte) :
    (d.sendLine f i line m v bs).Formed := by
  simp only [Dev.sendLine]
  refine foldl_formed (Dev.updFrame_formed h f _) fun e r he => ?_
  grind [Dev.writeRemote_formed, Dev.updMove_formed, Dev.failMove_formed]

theorem Dev.requestLines_formed {d : Dev} (h : d.Formed) (f : FrameId) (i : Nat) (as_ : List Nat) :
    (d.requestLines f i as_).Formed := by
  grind [Dev.requestLines, Dev.readRemote_formed, Dev.updMove_formed, Dev.failMove_formed, foldl_formed]

theorem Dev.hostCommit_formed {d : Dev} (h : d.Formed) (f : FrameId) (i : Nat) (m : Move) (off : Nat) :
    (d.hostCommit f i m off).1.Formed := by
  simp only [Dev.hostCommit]
  split
  · exact h
  · have hview (as : List Nat) := Dev.viewOf_formed h f true as .read
    split
    · grind [Dev.failMove_formed]
    · next e v heq =>
      have he : e.Formed := by grind
      split
      · exact Dev.requestLines_formed he _ _ _
      · grind [Dev.commitReady_formed, Dev.kill_formed, Dev.updMove_formed]

theorem Dev.landLine_formed {d : Dev} (h : d.Formed) (f : FrameId) (i : Nat) (line : Nat) (host : List Byte)
    (hostPsn : Bool) (errs : LineErrs) :
    (d.landLine f i line host hostPsn errs).Formed := by
  simp only [Dev.landLine]
  split <;> grind [Dev.Formed, Dev.updFrame_formed, Dev.demandRead_formed, Dev.hostCommit_formed, Dev.lineData_formed,
      Dev.requestLines_formed, Dev.emit_formed, Dev.viewOf_formed, Dev.sendLine_formed, Dev.putLine_formed]

theorem Dev.setChan_formed {d : Dev} (h : d.Formed) (f : FrameId) (ch : Fin 64) (c : Chan) :
    (d.setChan f ch c).Formed := by
  grind [Dev.setChan, Dev.updFrame_formed]

theorem Dev.runTally_formed {d : Dev} (h : d.Formed) (f : FrameId) (j : TyJob) : (d.runTally f j).Formed := by
  unfold Dev.runTally
  split <;> grind [Dev.Formed, Dev.setChan_formed, Dev.updFrame_formed, Dev.kill_formed]

theorem Dev.pumpTally_formed {d : Dev} (h : d.Formed) (f : FrameId) (n : Nat) : (d.pumpTally f n).Formed := by
  induction n generalizing d with
  | zero => exact h
  | succ n ih => grind [Dev.pumpTally, Dev.setFrame_formed, Dev.runTally_formed]

theorem Dev.moveRead_formed {d : Dev} (h : d.Formed) (f : FrameId) (t : BitVec 32) (data : List Byte) (psn : Bool) :
    (d.moveRead f t data psn).Formed := by
  grind [Dev.moveRead, Dev.updFrame_formed]

theorem Dev.moveWritten_formed {d : Dev} (h : d.Formed) (f : FrameId) (t : BitVec 32) : (d.moveWritten f t).Formed := by
  grind [Dev.moveWritten, Dev.updFrame_formed]

theorem Dev.ackMove_formed {d : Dev} (h : d.Formed) (f : FrameId) (i : Nat) : (d.ackMove f i).Formed := by
  grind [Dev.ackMove, Dev.updFrame_formed]

theorem Dev.startLoad_formed {d : Dev} (h : d.Formed) (f : FrameId) (word : Word) (dst : Dest) (space : Bool) (a : Nat)
    (size : Nat) :
    (d.startLoad f word dst space a size).Formed := by
  grind [Dev.startLoad, Dev.updFrame_formed, Dev.xlate_formed, Dev.readRemote_formed]

theorem Dev.startStore_formed {d : Dev} (h : d.Formed) (f : FrameId) (word : Word) (space : Bool) (a : Nat)
    (bs : List Byte) :
    (d.startStore f word space a bs).Formed := by
  grind [Dev.startStore, Dev.updFrame_formed, Dev.write_formed, Dev.xlate_formed, Dev.writeRemote_formed]

theorem Dev.takeFault_formed {d : Dev} (h : d.Formed) (f : FrameId) (code : Nat) (addr : Nat) :
    (d.takeFault f code addr).Formed := by
  grind [Dev.takeFault, Dev.updFrame_formed]

theorem Dev.setEffects_formed {d : Dev} (h : d.Formed) (f : FrameId) (addr : Nat) (bs : List Byte) :
    (d.setEffects f addr bs).Formed := by
  grind [Dev.setEffects, Dev.updFrame_formed, Dev.takeFault_formed]

theorem Dev.landEffects_formed {d : Dev} (h : d.Formed) (f : FrameId) : (d.landEffects f).Formed := by
  grind [Dev.landEffects, Dev.setFrame_formed, Dev.kill_formed, Dev.setEffects_formed]

theorem Dev.failLoad_formed {d : Dev} (h : d.Formed) (f : FrameId) (i : Nat) (x : XErr) :
    (d.failLoad f i x).Formed := by
  grind [Dev.failLoad, Dev.takeFault_formed, Dev.memFault_formed, Dev.setFrame_formed, Dev.accessFault_formed]

theorem Dev.loadErrors_formed {d : Dev} (h : d.Formed) (l : Load) (errs : LineErrs) :
    (d.loadErrors l errs).1.Formed := by
  grind [Dev.loadErrors, Dev.demandRead_formed]

theorem Dev.landLoad_formed {d : Dev} (h : d.Formed) (f : FrameId) (i : Nat) (errs : LineErrs) :
    (d.landLoad f i errs).Formed := by
  grind [Dev.landLoad, Dev.loadErrors_formed, Dev.landEffects_formed, Dev.setFrame_formed, Dev.kill_formed]

theorem Dev.loadArrived_formed {d : Dev} (h : d.Formed) (f : FrameId) (t : BitVec 32) (data : List Byte) (psn : Bool) :
    (d.loadArrived f t data psn).Formed := by
  grind [Dev.loadArrived, Dev.updFrame_formed]

theorem Dev.storeAcked_formed {d : Dev} (h : d.Formed) (f : FrameId) (t : BitVec 32) : (d.storeAcked f t).Formed := by
  grind [Dev.storeAcked, Dev.updFrame_formed]

theorem Dev.retireStore_formed {d : Dev} (h : d.Formed) (f : FrameId) (i : Nat) : (d.retireStore f i).Formed := by
  grind [Dev.retireStore, Dev.updFrame_formed]

end Sys2Proof.Machine
end

/-! ### Formed memory is kept: the Task Market's commands -/

section
open Sys2Proof Sys2Proof.Machine

set_option Elab.async false

namespace Sys2Proof.Machine

theorem Dev.drr_formed {d : Dev} (h : d.Formed) (fr : Frame) (cs : List (BitVec 12)) (fuel : Nat) (i : Nat) :
    (d.drr fr cs fuel i).1.Formed := by
  induction fuel generalizing d i with
  | zero => exact h
  | succ n ih => grind [Dev.drr, Dev.setCtx_formed]

theorem Dev.chooseTake_formed {d : Dev} (h : d.Formed) (f : FrameId) : (d.chooseTake f).1.Formed := by
  grind [Dev.Formed, Dev.chooseTake, Dev.drr_formed]

theorem Dev.requestTake_formed {d : Dev} (h : d.Formed) (f : FrameId) : (d.requestTake f).Formed := by
  grind [Dev.requestTake, Dev.setFrame_formed]

theorem Dev.giveTake_formed {d : Dev} (h : d.Formed) (f : FrameId) (t : TaskRef) : (d.giveTake f t).Formed := by
  grind [Dev.Formed, Dev.giveTake, Dev.updTask_formed, Dev.updFrame_formed, Dev.trace_formed]

theorem Dev.refuseDispatch_formed {d : Dev} (h : d.Formed) (f : FrameId) (t : TaskRef) :
    (d.refuseDispatch f t).Formed := by
  grind [Dev.Formed, Dev.refuseDispatch, Dev.ledger_formed]

theorem Dev.grantTake_formed {d : Dev} (h : d.Formed) (f : FrameId) (req : Option TaskRef) :
    (d.grantTake f req).Formed := by
  unfold Dev.grantTake
  split <;> grind [Dev.Formed, Dev.chooseTake_formed, Dev.giveTake_formed, Dev.refuseDispatch_formed]

theorem Dev.loadEffects_formed {d : Dev} (h : d.Formed) (f : FrameId) (c : BitVec 12) (t : Task) :
    (d.loadEffects f c t).Formed := by
  grind [Dev.loadEffects, Dev.range_formed, Dev.takeFault_formed, Dev.memFault_formed, Dev.startLoad_formed,
      Dev.kill_formed, Dev.setEffects_formed, foldl_formed]

theorem Dev.completeTake_formed {d : Dev} (h : d.Formed) (f : FrameId) : (d.completeTake f).Formed := by
  grind [Dev.completeTake, Dev.setFrame_formed, Dev.updFrame_formed, Dev.loadEffects_formed, Dev.settle_formed]

theorem Dev.graphHung_formed {d : Dev} (h : d.Formed) (id : Nat) : (d.graphHung id).Formed := by
  grind [Dev.graphHung, Dev.commandFault_formed, Dev.updGraph_formed]

theorem Dev.restoreTo_formed {d : Dev} (h : d.Formed) (c : BitVec 12) (stall : Nat) : (d.restoreTo c stall).Formed := by
  grind [Dev.Formed, Dev.restoreTo, Dev.setCtx_formed, Dev.updFrame_formed, foldl_formed]

theorem Dev.bindCtx_formed {d : Dev} (h : d.Formed) (c : BitVec 12) (stall : Nat) : (d.bindCtx c stall).Formed := by
  grind [Dev.bindCtx, Dev.restoreTo_formed, Dev.setCtx_formed]

theorem Dev.restored_formed {d : Dev} (h : d.Formed) (c : BitVec 12) : (d.restored c).Formed := by
  simp only [Dev.restored]
  split <;> grind [Dev.Formed, Dev.updTask_formed, Dev.setFrame_formed, Dev.updCtx_formed, Dev.resumeGraphs_formed,
      Dev.settle_formed, foldl_formed, memForm_copyRange]

theorem Dev.unbindCtx_formed {d : Dev} (h : d.Formed) (c : BitVec 12) : (d.unbindCtx c).Formed := by
  grind [Dev.unbindCtx, Dev.unbindIfOver_formed, Dev.setCtx_formed]

theorem Dev.preemptWait_formed {d : Dev} (h : d.Formed) (c : BitVec 12) : (d.preemptWait c).Formed := by
  grind [Dev.preemptWait, Dev.beginSave_formed, Dev.settle_formed, foldl_formed]

theorem Dev.reallocate_formed {d : Dev} (h : d.Formed) (ms : List (FrameId × Option Nat)) :
    (d.reallocate ms).Formed := by
  grind [Dev.reallocate, Dev.setFrame_formed, Dev.leaveService_formed, foldl_formed]

theorem Dev.writeImage_formed {d : Dev} (h : d.Formed) (f : FrameId) (t : TaskRef) (pa : Nat) :
    (d.writeImage f t pa).1.Formed :=
  ⟨memForm_copyRange (Dev.write_formed h _ _ _).mem _ _ _, h.ctxs⟩

theorem Dev.finishSave_formed {d : Dev} (h : d.Formed) (c : BitVec 12) : (d.finishSave c).Formed := by
  grind [Dev.Formed, Dev.finishSave, Dev.draw_formed, Dev.writeImage_formed, Dev.endOnFrame_formed,
      Dev.updTask_formed, Dev.write_formed, Dev.setCtx_formed, Dev.trace_formed, Dev.irq_formed, foldl_formed,
      foldl_fst_formed]

theorem Dev.setPreempt_formed {d : Dev} (h : d.Formed) (f : FrameId) : (d.setPreempt f).Formed := by
  grind [Dev.setPreempt, Dev.settle_formed, Dev.updFrame_formed]

theorem Dev.stallClear_formed {d : Dev} (h : d.Formed) (stall : Nat) : (d.stallClear stall).Formed := by
  grind [Dev.stallClear, Dev.trace_formed, Dev.updCtx_formed, Dev.faultCtx_formed, Dev.updTask_formed,
      Dev.updFrame_formed, Dev.endOnFrame_formed, Dev.clearFrame_formed, foldl_formed]

theorem Dev.stallReset_formed {d : Dev} (h : d.Formed) (stall : Nat) : (d.stallReset stall).Formed := by
  grind [Dev.stallReset, Dev.stallClear_formed, Dev.updCtx_formed, foldl_formed]

end Sys2Proof.Machine
end

/-! ### Formed memory is kept: shared operations of barrier groups -/

section
open Sys2Proof Sys2Proof.Machine

set_option Elab.async false

namespace Sys2Proof.Machine

theorem Dev.sendBar_formed {d : Dev} (h : d.Formed) (gi : Nat) (ep : Word) (r : Nat) (m : Nat) :
    (d.sendBar gi ep r m).1.Formed := by
  grind [Dev.sendBar, Dev.setGroup_formed, Dev.sendFlit_formed]

theorem Dev.breakGroup_formed {d : Dev} (h : d.Formed) (gi : Nat) (xs : List (Word × Nat × Nat)) :
    (d.breakGroup gi xs).Formed := by
  grind [Dev.breakGroup, Dev.ledger_formed, Dev.setGroup_formed]

theorem Dev.sendRound_formed {d : Dev} (h : d.Formed) (gi : Nat) : (d.sendRound gi).Formed := by
  grind [Dev.sendRound, Dev.sendBar_formed, Dev.breakGroup_formed, foldl_formed]

theorem Dev.finishGroup_formed {d : Dev} (h : d.Formed) (gi : Nat) : (d.finishGroup gi).Formed := by
  grind [Dev.finishGroup, Dev.complete_formed, Dev.addOne_formed, Dev.trace_formed, Dev.setGroup_formed]

theorem Dev.beginArrival_formed {d : Dev} (h : d.Formed) (gi : Nat) (a : Arrival) : (d.beginArrival gi a).Formed := by
  unfold Dev.beginArrival
  split <;> grind [Dev.Formed, Dev.sendRound_formed, Dev.setGroup_formed]

theorem Dev.runGroup_formed {d : Dev} (h : d.Formed) (gi : Nat) (fuel : Nat) : (d.runGroup gi fuel).1.Formed := by
  induction fuel generalizing d with
  | zero => exact h
  | succ n ih => grind [Dev.runGroup, Dev.finishGroup_formed, Dev.setGroup_formed, Dev.beginArrival_formed,
      Dev.sendRound_formed]

theorem Dev.arrive_formed {d : Dev} (h : d.Formed) (gi : Nat) (a : Arrival) : (d.arrive gi a).1.Formed := by
  grind [Dev.arrive, Dev.beginArrival_formed, Dev.runGroup_formed, Dev.setGroup_formed]

theorem Dev.nextArrival_formed {d : Dev} (h : d.Formed) (gi : Nat) : (d.nextArrival gi).1.Formed := by
  grind [Dev.nextArrival, Dev.runGroup_formed, Dev.beginArrival_formed, Dev.setGroup_formed]

theorem Dev.withdrawArrival_formed {d : Dev} (h : d.Formed) (gi : Nat) (ep : Word) :
    (d.withdrawArrival gi ep).Formed := by
  grind [Dev.withdrawArrival, Dev.setGroup_formed]

end Sys2Proof.Machine
end

/-! ### Formed memory is kept: shared operations of the Exchange -/

section
open Sys2Proof Sys2Proof.Machine

set_option Elab.async false

namespace Sys2Proof.Machine

theorem Dev.updBkt_formed {d : Dev} (h : d.Formed) (k : BKey) (f : Bucket → Bucket) : (d.updBkt k f).Formed := by
  grind [Dev.Formed, Dev.updBkt]

theorem Dev.dropBkt_formed {d : Dev} (h : d.Formed) (k : BKey) : (d.dropBkt k).Formed := by
  grind [Dev.Formed, Dev.dropBkt]

theorem Dev.updRx_formed {d : Dev} (h : d.Formed) (k : BKey) (stage : Nat) (src : Nat) (probe : Bool) (f : Rx → Rx) :
    (d.updRx k stage src probe f).Formed := by
  grind [Dev.updRx, Dev.updBkt_formed]

theorem Dev.staleOne_formed {d : Dev} (h : d.Formed) (j : Nat) : (d.staleOne j).Formed := by
  grind [Dev.staleOne, Dev.updJob_formed]

theorem Dev.sendSeg_formed {d : Dev} (h : d.Formed) (s : SentSeg) : (d.sendSeg s).Formed := by
  grind [Dev.sendSeg, Dev.sendXch_formed, foldl_formed]

theorem Dev.xchError_formed {d : Dev} (h : d.Formed) (j : Nat) (x : XErr) (a : Acc6) : (d.xchError j x a).Formed := by
  grind [Dev.xchError, Dev.memFault_formed]

theorem Dev.readElems_formed {d : Dev} (h : d.Formed) (j : Nat) (va : Nat) (b : Nat) (n : Nat) :
    (d.readElems j va b n).1.Formed := by
  grind [Dev.readElems, Dev.readVirt_formed]

theorem Dev.readHist_formed {d : Dev} (h : d.Formed) (j : Nat) (c : CDesc) : (d.readHist j c).1.Formed := by
  grind [Dev.readHist, Dev.readElems_formed]

theorem Dev.writeElems_formed {d : Dev} (h : d.Formed) (j : Nat) (va : Nat) (b : Nat) (off : Nat) (vs : List Nat)
    (p : Bool) :
    (d.writeElems j va b off vs p).1.Formed := by
  grind [Dev.writeElems, Dev.range_formed, Dev.writeSegs_formed]

theorem Dev.drawMany_formed {d : Dev} (h : d.Formed) (n : Nat) : (d.drawMany n).1.Formed := by
  grind [Dev.Formed, Dev.drawMany]

theorem Dev.readContrib_formed {d : Dev} (h : d.Formed) (k : BKey) (b : Bucket) (c : CDesc) :
    (d.readContrib k b c).1.Formed := by
  grind [Dev.readContrib, Dev.readElems_formed, Dev.drawMany_formed]

theorem Dev.sendStream_formed {d : Dev} (h : d.Formed) (k : BKey) (v : XView) (stage : Nat) (dst : Nat) :
    (d.sendStream k v stage dst).Formed := by
  grind [Dev.Formed, Dev.sendStream, Dev.sendSeg_formed, Dev.updBkt_formed, foldl_formed, foldl_fst_formed]

theorem Dev.withdrawStreams_formed {d : Dev} (h : d.Formed) (k : BKey) (x : Coll) (b : Bucket) :
    (d.withdrawStreams k x b).Formed := by
  grind [Dev.withdrawStreams, Dev.sendXch_formed, foldl_formed]

theorem Dev.withdrawColl_formed {d : Dev} (h : d.Formed) (k : BKey) (c : CDesc) (b : Bucket) :
    (d.withdrawColl k c b).Formed := by
  grind [Dev.withdrawColl, Dev.readHist_formed, Dev.withdrawStreams_formed]

theorem Dev.withdrawBkt_formed {d : Dev} (h : d.Formed) (k : BKey) : (d.withdrawBkt k).Formed := by
  grind [Dev.withdrawBkt, Dev.dropBkt_formed, Dev.withdrawColl_formed]

theorem Dev.withdrawHeld_formed {d : Dev} (h : d.Formed) (j : Nat) (c : CDesc) : (d.withdrawHeld j c).Formed := by
  grind [Dev.withdrawHeld, Dev.withdrawColl_formed]

theorem Dev.undefineDst_formed {d : Dev} (h : d.Formed) (j : Nat) (b : Bucket) : (d.undefineDst j b).Formed := by
  have hrange := Dev.range_formed h unitXch ((d.job j).ctx.setWidth 12) .write
  unfold Dev.undefineDst
  split
  · exact h
  · split
    · exact h
    · split
      · grind
      · next d1 ss heq =>
        have hd : d1.Formed := by grind
        exact ⟨Memory.foldl_wf _ (fun _ s hm => Memory.storeBytes_wf _ _ hm) _ hd.mem, hd.ctxs⟩

theorem Dev.abortStep_formed {d : Dev} (h : d.Formed) (j : Nat) (attempt : Nat) (cause : Nat) (rank : Nat) :
    (d.abortStep j attempt cause rank).Formed := by
  unfold Dev.abortStep
  split <;> grind [Dev.Formed, Dev.undefineDst_formed, Dev.sendPeers_formed, Dev.trace_formed, Dev.dropBuckets_formed,
      Dev.addOne_formed, Dev.dropJobWaits_formed, Dev.jobFault_formed, Dev.storeStepSem_formed, Dev.updJob_formed,
      foldl_formed]

theorem Dev.raiseAbort_formed {d : Dev} (h : d.Formed) (j : Nat) (cause : Nat) : (d.raiseAbort j cause).Formed := by
  grind [Dev.raiseAbort, Dev.abortStep_formed]

theorem Dev.peerAbort_formed {d : Dev} (h : d.Formed) (j : Nat) (step : BitVec 32) (attempt : Nat) (cause : Nat)
    (rank : Nat) :
    (d.peerAbort j step attempt cause rank).Formed := by
  grind [Dev.peerAbort, Dev.staleOne_formed, Dev.abortStep_formed, Dev.withdrawArrival_formed, Dev.setJob_formed]

theorem Dev.spoil_formed {d : Dev} (h : d.Formed) (k : BKey) : (d.spoil k).Formed := by
  grind [Dev.Formed, Dev.spoil, Dev.raiseAbort_formed]

theorem Dev.xchFault_formed {d : Dev} (h : d.Formed) (k : BKey) (e : XErr) (a : Acc6) : (d.xchFault k e a).Formed := by
  grind [Dev.xchFault, Dev.jobFault_formed, Dev.withdrawBkt_formed, Dev.xchError_formed]

theorem Dev.loadBkt_formed {d : Dev} (h : d.Formed) (k : BKey) (st : BState) : (d.loadBkt k st).Formed := by
  grind [Dev.loadBkt, Dev.readContrib_formed, Dev.xchFault_formed, Dev.updBkt_formed, Dev.spoil_formed]

theorem Dev.endProbe_formed {d : Dev} (h : d.Formed) (k : BKey) (ws : List Word) : (d.endProbe k ws).Formed := by
  grind [Dev.endProbe, Dev.loadBkt_formed, Dev.updBkt_formed]

theorem Dev.redoBkt_formed {d : Dev} (h : d.Formed) (k : BKey) (sats : List Nat) : (d.redoBkt k sats).1.Formed := by
  grind [Dev.redoBkt, Dev.dropBkt_formed, Dev.updBkt_formed, Dev.trace_formed, Dev.updJob_formed, Dev.loadBkt_formed]

theorem Dev.checkSeg_formed {d : Dev} (h : d.Formed) (k : BKey) (x : Coll) (stage : Nat) (src : Nat) (i : Nat)
    (s : Segm) :
    (d.checkSeg k x stage src i s).Formed := by
  grind [Dev.Formed, Dev.checkSeg, Dev.sendXch_formed, Dev.updRx_formed, Dev.ledger_formed, Dev.raiseAbort_formed]

theorem Dev.checkBkt_formed {d : Dev} (h : d.Formed) (k : BKey) : (d.checkBkt k).Formed := by
  grind [Dev.checkBkt, Dev.checkSeg_formed, foldl_formed]

theorem Dev.settleSent_formed {d : Dev} (h : d.Formed) (k : BKey) : (d.settleSent k).Formed := by
  grind [Dev.settleSent, Dev.dropBkt_formed, Dev.updBkt_formed]

theorem Dev.progress_formed {d : Dev} (h : d.Formed) (k : BKey) (fuel : Nat) : (d.progress k fuel).Formed := by
  induction fuel generalizing d k with
  | zero => exact h
  | succ n ih =>
    have hcheck : (if (d.viewBkt k).isSome then d.checkBkt k else d).Formed := by grind [Dev.checkBkt_formed]
    have hsend (e : Dev) (he : e.Formed) (v : XView) : (v.x.outs.foldl (fun d s => d.sendStream k v s.1 s.2)
      e).Formed :=
      foldl_formed he fun _ _ hd => Dev.sendStream_formed hd _ _ _ _
    grind [Dev.progress, Dev.settleSent_formed, Dev.endProbe_formed, Dev.redoBkt_formed, Dev.spoil_formed]

theorem Dev.progressAll_formed {d : Dev} (h : d.Formed) : (d.progressAll).Formed := by
  grind [Dev.progressAll, Dev.progress_formed, foldl_formed]

theorem Dev.beginBkt_formed {d : Dev} (h : d.Formed) (k : BKey) : (d.beginBkt k).Formed := by
  grind [Dev.beginBkt, Dev.trace_formed, Dev.readHist_formed, Dev.xchFault_formed, Dev.updBkt_formed,
      Dev.progress_formed, Dev.loadBkt_formed]

theorem Dev.countEarly_formed {d : Dev} (h : d.Formed) (timed : Bool) : (d.countEarly timed).Formed := by
  grind [Dev.Formed, Dev.countEarly]

theorem Dev.enterBkt_formed {d : Dev} (h : d.Formed) (j : Nat) (c : CDesc) : (d.enterBkt j c).Formed := by
  grind [Dev.Formed, Dev.enterBkt, Dev.updBkt_formed, Dev.beginBkt_formed, Dev.countEarly_formed]

theorem Dev.placeDesc_formed {d : Dev} (h : d.Formed) (j : Nat) (c : CDesc) : (d.placeDesc j c).Formed := by
  grind [Dev.Formed, Dev.placeDesc, Dev.promoteCommit_formed, Dev.coverCommit_formed, Dev.enterBkt_formed,
      Dev.addOne_formed, Dev.staleOne_formed, Dev.jobFault_formed]

theorem Dev.tryArrive_formed {d : Dev} (h : d.Formed) (j : Nat) : (d.tryArrive j).1.Formed := by
  grind [Dev.tryArrive, Dev.commitReady_formed, Dev.updCtx_formed, Dev.kill_formed, Dev.setJob_formed,
      Dev.countEarly_formed, Dev.arrive_formed]

theorem Dev.commitStep_formed {d : Dev} (h : d.Formed) (j : Nat) : (d.commitStep j).Formed := by
  grind [Dev.Formed, Dev.commitStep, Dev.setJob_formed, Dev.storeStepSem_formed, Dev.addOne_formed,
      Dev.jobFault_formed, Dev.peerAbort_formed, Dev.placeDesc_formed, foldl_formed]

theorem Dev.commitGroup_formed {d : Dev} (h : d.Formed) (g : Nat) (fuel : Nat) : (d.commitGroup g fuel).Formed := by
  induction fuel generalizing d with
  | zero => exact h
  | succ n ih => grind [Dev.commitGroup, Dev.commitStep_formed, Dev.finishGroup_formed, Dev.nextArrival_formed,
      Dev.tryArrive_formed]

theorem Dev.commitLoop_formed {d : Dev} (h : d.Formed) (j : Nat) : (d.commitLoop j).Formed := by
  grind [Dev.commitLoop, Dev.tryArrive_formed, Dev.commitGroup_formed]

theorem Dev.arriveAll_formed {d : Dev} (h : d.Formed) (g : Nat) (a : Arrival) : (d.arriveAll g a).Formed := by
  grind [Dev.arriveAll, Dev.arrive_formed, Dev.commitGroup_formed]

theorem Dev.stirGroup_formed {d : Dev} (h : d.Formed) (g : Nat) : (d.stirGroup g).Formed := by
  grind [Dev.stirGroup, Dev.runGroup_formed, Dev.commitGroup_formed]

theorem Dev.withdrawJob_formed {d : Dev} (h : d.Formed) (j : Nat) : (d.withdrawJob j).1.Formed := by
  grind [Dev.Formed, Dev.withdrawJob, Dev.updJob_formed, Dev.withdrawBkt_formed, Dev.dropJobWaits_formed,
      Dev.withdrawHeld_formed, foldl_formed]

theorem Dev.freeJob_formed {d : Dev} (h : d.Formed) (j : Nat) : (d.freeJob j).1.Formed := by
  grind [Dev.Formed, Dev.freeJob, Dev.withdrawJob_formed, Dev.withdrawArrival_formed, Dev.setJob_formed]

end Sys2Proof.Machine
end

/-! ### Formed memory is kept: queues -/

section
open Sys2Proof Sys2Proof.Machine

set_option Elab.async false

namespace Sys2Proof.Machine

theorem Dev.ringFault_formed {d : Dev} (h : d.Formed) (q : Nat) (st : Status) : (d.ringFault q st).Formed := by
  grind [Dev.ringFault, Dev.faultCtx_formed, Dev.commandFault_formed]

theorem Dev.fetchError_formed {d : Dev} (h : d.Formed) (q : Nat) (x : XErr) (a : Acc6) :
    (d.fetchError q x a).Formed := by
  grind [Dev.fetchError, Dev.memFault_formed]

theorem Dev.readTail_formed {d : Dev} (h : d.Formed) (q : Nat) : (d.readTail q).1.Formed := by
  grind [Dev.readTail, Dev.ringFault_formed, Dev.ringRead_formed, Dev.fetchError_formed]

theorem Dev.updEntry_formed {d : Dev} (h : d.Formed) (q : Nat) (seq : Nat) (g : Entry → Entry) :
    (d.updEntry q seq g).Formed := by
  grind [Dev.updEntry, Dev.updQueue_formed]

theorem Dev.holdQueue_formed {d : Dev} (h : d.Formed) (q : Nat) (seq : Nat) : (d.holdQueue q seq).Formed := by
  grind [Dev.holdQueue, Dev.updQueue_formed]

theorem Dev.putHead_formed {d : Dev} (h : d.Formed) (q : Nat) (n : Nat) : (d.putHead q n).1.Formed := by
  grind [Dev.putHead, Dev.ringWrite_formed, Dev.fetchError_formed]

theorem Dev.fetchOne_formed {d : Dev} (h : d.Formed) (q : Nat) : (d.fetchOne q).Formed := by
  grind [Dev.fetchOne, Dev.ringRead_formed, Dev.updQueue_formed, Dev.fetchError_formed, Dev.putHead_formed,
      Dev.failEntry_formed, Dev.ringFault_formed, Dev.holdQueue_formed]

theorem Dev.fetchSteps_formed {d : Dev} (h : d.Formed) (q : Nat) (fuel : Nat) : (d.fetchSteps q fuel).Formed := by
  induction fuel generalizing d with
  | zero => exact h
  | succ n ih => grind [Dev.fetchSteps, Dev.fetchOne_formed, Dev.setQueue_formed, Dev.readTail_formed,
      Dev.updQueue_formed]

theorem Dev.fetchLoop_formed {d : Dev} (h : d.Formed) (q : Nat) (fuel : Nat) : (d.fetchLoop q fuel).Formed := by
  grind [Dev.fetchLoop, Dev.putHead_formed, Dev.ringFault_formed, Dev.fetchSteps_formed, Dev.updQueue_formed]

theorem Dev.fetchEntry_formed {d : Dev} (h : d.Formed) (q : Nat) : (d.fetchEntry q).Formed := by
  grind [Dev.fetchEntry, Dev.fetchLoop_formed, Dev.updQueue_formed]

theorem Dev.started_formed {d : Dev} (h : d.Formed) (q : Nat) (seq : Nat) (st : EState) :
    (d.started q seq st).Formed := by
  grind [Dev.started, Dev.updQueue_formed, Dev.updEntry_formed]

theorem Dev.launchFailed_formed {d : Dev} (h : d.Formed) (c : BitVec 12) (q : Nat) (e : Entry) (batch : Bool)
    (cause : Nat) :
    (d.launchFailed c q e batch cause).Formed := by
  grind [Dev.launchFailed, Dev.faultCtx_formed, Dev.updCtx_formed, Dev.complete_formed, Dev.commandFault_formed]

theorem Dev.tryLaunch_formed {d : Dev} (h : d.Formed) (q : Nat) (e : Entry) (batch : Bool) :
    (d.tryLaunch q e batch).Formed := by
  grind [Dev.tryLaunch, Dev.launchEntry_formed, Dev.updQueue_formed, Dev.holdQueue_formed, Dev.complete_formed,
      Dev.launchFailed_formed]

theorem Dev.startLaunch_formed {d : Dev} (h : d.Formed) (q : Nat) (batch : Bool) : (d.startLaunch q batch).Formed := by
  grind [Dev.startLaunch, Dev.tryLaunch_formed]

theorem Dev.retryLaunch_formed {d : Dev} (h : d.Formed) (q : Nat) : (d.retryLaunch q).Formed := by
  grind [Dev.retryLaunch, Dev.tryLaunch_formed]

theorem Dev.startCopy_formed {d : Dev} (h : d.Formed) (q : Nat) : (d.startCopy q).Formed := by
  grind [Dev.startCopy, Dev.addGraph_formed, Dev.offer_formed, Dev.updEntry_formed, Dev.started_formed]

theorem Dev.startWait_formed {d : Dev} (h : d.Formed) (q : Nat) : (d.startWait q).Formed := by
  grind [Dev.Formed, Dev.startWait, Dev.complete_formed, Dev.holdQueue_formed, Dev.updEntry_formed]

theorem Dev.waitTimeout_formed {d : Dev} (h : d.Formed) (q : Nat) : (d.waitTimeout q).Formed := by
  grind [Dev.Formed, Dev.waitTimeout, Dev.complete_formed]

theorem Dev.signalError_formed {d : Dev} (h : d.Formed) (q : Nat) (seq : Nat) (addr : Word) (cause : Nat) :
    (d.signalError q seq addr cause).Formed := by
  grind [Dev.signalError, Dev.failEntry_formed, Dev.fetchError_formed]

theorem Dev.startSignal_formed {d : Dev} (h : d.Formed) (q : Nat) : (d.startSignal q).Formed := by
  grind [Dev.startSignal, Dev.commitReady_formed, Dev.holdQueue_formed, Dev.kill_formed, Dev.started_formed,
      Dev.bell_formed, Dev.signalError_formed]

theorem Dev.startBarrier_formed {d : Dev} (h : d.Formed) (q : Nat) : (d.startBarrier q).Formed := by
  grind [Dev.startBarrier, Dev.failEntry_formed, Dev.arriveAll_formed, Dev.holdQueue_formed, Dev.updEntry_formed]

theorem Dev.startNop_formed {d : Dev} (h : d.Formed) (q : Nat) : (d.startNop q).Formed := by
  grind [Dev.startNop, Dev.complete_formed]

theorem Dev.drainWaiting_formed {d : Dev} (h : d.Formed) (c : BitVec 16) (fuel : Nat) :
    (d.drainWaiting c fuel).Formed := by
  induction fuel generalizing d with
  | zero => exact h
  | succ n ih => grind [Dev.Formed, Dev.drainWaiting, Dev.tryRecord_formed, Dev.updGraph_formed, Dev.graphBell_formed]

theorem Dev.pollRing_formed {d : Dev} (h : d.Formed) (r : Nat) : (d.pollRing r).Formed := by
  grind [Dev.pollRing, Dev.drainWaiting_formed]

theorem Dev.moderationEnd_formed {d : Dev} (h : d.Formed) (r : Nat) : (d.moderationEnd r).Formed := by
  grind [Dev.moderationEnd, Dev.setCring_formed, Dev.ringVector_formed]

theorem Dev.hostReadFail_formed {d : Dev} (h : d.Formed) (f : FrameId) : (d.hostReadFail f).Formed := by
  grind [Dev.Formed, Dev.hostReadFail, Dev.settle_formed, Dev.updFrame_formed, Dev.endOnFrame_formed,
      Dev.updTask_formed, Dev.dropGraph_formed, Dev.complete_formed]

end Sys2Proof.Machine
end

/-! ### Formed memory is kept: destroying queues and contexts with work in flight -/

section
open Sys2Proof Sys2Proof.Machine

set_option Elab.async false

namespace Sys2Proof.Machine

theorem Dev.finishDestroy_formed {d : Dev} (h : d.Formed) (x : Discards) (st : Status) :
    (d.finishDestroy x st).Formed := by
  grind [Dev.finishDestroy, Dev.complete_formed]

theorem Dev.discardEntries_formed {d : Dev} (h : d.Formed) (q : Nat) : (d.discardEntries q).Formed := by
  grind [Dev.discardEntries, Dev.complete_formed, foldl_formed]

theorem Dev.dropArrivals_formed {d : Dev} (h : d.Formed) (q : Nat) : (d.dropArrivals q).Formed := by
  grind [Dev.Formed, Dev.dropArrivals]

theorem Dev.destroyQueue_formed {d : Dev} (h : d.Formed) (q : Nat) (entry : Option Nat) :
    (d.destroyQueue q entry).Formed := by
  grind [Dev.Formed, Dev.destroyQueue, Dev.setQueue_formed, Dev.dropArrivals_formed, Dev.discardEntries_formed,
      Dev.stopGraphs_formed, Dev.withdrawJob_formed, Dev.updQueue_formed, foldl_formed, foldl_fst_formed]

theorem Dev.queueQuiet_formed {d : Dev} (h : d.Formed) (q : Nat) : (d.queueQuiet q).Formed := by
  grind [Dev.Formed, Dev.queueQuiet, Dev.finishDestroy_formed, Dev.setQueue_formed]

theorem Dev.quiesceLate_formed {d : Dev} (h : d.Formed) (q : Nat) : (d.quiesceLate q).Formed := by
  grind [Dev.quiesceLate, Dev.updQueue_formed, Dev.commandFault_formed, Dev.faultCtx_formed, Dev.finishDestroy_formed,
      Dev.updCtx_formed]

theorem Dev.destroyCtx_formed {d : Dev} (h : d.Formed) (c : BitVec 12) (entry : Option Nat) :
    (d.destroyCtx c entry).Formed := by
  grind [Dev.Formed, Dev.destroyCtx, Dev.setCtx_formed, Dev.destroyQueue_formed, Dev.withdrawJob_formed,
      Dev.updCtx_formed, foldl_formed, foldl_fst_formed]

theorem Dev.ctxGone_formed {d : Dev} (h : d.Formed) (c : BitVec 12) : (d.ctxGone c).Formed := by
  grind [Dev.Formed, Dev.ctxGone, Dev.queueQuiet_formed, Dev.forgetTasks_formed, Dev.progressAll_formed,
      Dev.freeJob_formed, Dev.finishDestroy_formed, Dev.setCtx_formed, foldl_formed]

theorem Dev.saveWritten_formed {d : Dev} (h : d.Formed) (c : BitVec 12) : (d.saveWritten c).Formed := by
  grind [Dev.saveWritten, Dev.updCtx_formed, Dev.finishSave_formed, Dev.destroyCtx_formed, Dev.stallClear_formed]

theorem Dev.saveLost_formed {d : Dev} (h : d.Formed) (c : BitVec 12) : (d.saveLost c).Formed := by
  grind [Dev.saveLost, Dev.setCtx_formed, Dev.destroyCtx_formed, Dev.stallClear_formed]

end Sys2Proof.Machine
end

/-! ### Formed memory is kept: the CTX_CTRL operations of queue 0 -/

section
open Sys2Proof Sys2Proof.Machine

set_option Elab.async false

namespace Sys2Proof.Machine

theorem Dev.endCtl_formed {d : Dev} (h : d.Formed) (k : Ctl) (st : Status) (i0 : Nat) : (d.endCtl k st i0).Formed := by
  grind [Dev.endCtl, Dev.failEntry_formed, Dev.complete_formed]

theorem Dev.tlbDrop_formed {d : Dev} (h : d.Formed) (p : TlbE → Bool) : (d.tlbDrop p).Formed := by
  grind [Dev.Formed, Dev.tlbDrop]

theorem Dev.markInv_formed {d : Dev} (h : d.Formed) (n : BitVec 32) (gone : List TlbE) : (d.markInv n gone).Formed := by
  grind [Dev.Formed, Dev.markInv]

theorem Dev.acceptTlbi_formed {d : Dev} (h : d.Formed) (t : Tlbi) : (d.acceptTlbi t).Formed := by
  grind [Dev.Formed, Dev.acceptTlbi, Dev.tlbDrop_formed, Dev.markInv_formed]

theorem Dev.tlbi_formed {d : Dev} (h : d.Formed) (t : Tlbi) : (d.tlbi t).Formed := by
  grind [Dev.Formed, Dev.tlbi, Dev.acceptTlbi_formed]

theorem Dev.invalidated_formed {d : Dev} (h : d.Formed) : (d.invalidated).Formed := by
  grind [Dev.Formed, Dev.invalidated, Dev.acceptTlbi_formed]

theorem Dev.createCtx_formed {d : Dev} (h : d.Formed) (want : Nat) : (d.createCtx want).Formed := by
  unfold Dev.createCtx
  split <;> grind [Dev.Formed, Dev.endCtl_formed, Dev.acceptTlbi_formed, Dev.setCtx_formed]

theorem Dev.openCtl_formed {d : Dev} (h : d.Formed) (k : Ctl) : (d.openCtl k).Formed := by
  grind [Dev.openCtl, Dev.started_formed]

theorem Dev.ctlDestroyCtx_formed {d : Dev} (h : d.Formed) : (d.ctlDestroyCtx).Formed := by
  grind [Dev.ctlDestroyCtx, Dev.endCtl_formed, Dev.destroyCtx_formed, Dev.openCtl_formed]

theorem Dev.resumeQueues_formed {d : Dev} (h : d.Formed) (c : BitVec 12) : (d.resumeQueues c).Formed := by
  grind [Dev.resumeQueues, Dev.updQueue_formed, foldl_formed]

theorem Dev.ctlResume_formed {d : Dev} (h : d.Formed) : (d.ctlResume).Formed := by
  grind [Dev.ctlResume, Dev.endCtl_formed, Dev.updCtx_formed, Dev.abortFaulted_formed, Dev.resumeQueues_formed]

theorem Dev.ctlAdopt_formed {d : Dev} (h : d.Formed) : (d.ctlAdopt).Formed := by
  grind [Dev.ctlAdopt, Dev.endCtl_formed, Dev.updCtx_formed]

theorem Dev.ctlSched_formed {d : Dev} (h : d.Formed) : (d.ctlSched).Formed := by
  grind [Dev.ctlSched, Dev.endCtl_formed, Dev.updCtx_formed]

theorem Dev.ctlCreateQueue_formed {d : Dev} (h : d.Formed) : (d.ctlCreateQueue).Formed := by
  grind [Dev.ctlCreateQueue, Dev.endCtl_formed, Dev.setQueue_formed]

theorem Dev.ctlDestroyQueue_formed {d : Dev} (h : d.Formed) : (d.ctlDestroyQueue).Formed := by
  grind [Dev.ctlDestroyQueue, Dev.endCtl_formed, Dev.destroyQueue_formed, Dev.openCtl_formed]

theorem Dev.ctlCreateRing_formed {d : Dev} (h : d.Formed) : (d.ctlCreateRing).Formed := by
  grind [Dev.ctlCreateRing, Dev.endCtl_formed, Dev.setCring_formed]

theorem Dev.ctlDestroyRing_formed {d : Dev} (h : d.Formed) : (d.ctlDestroyRing).Formed := by
  grind [Dev.ctlDestroyRing, Dev.endCtl_formed, Dev.setCring_formed]

end Sys2Proof.Machine
end

/-! ### Formed memory is kept: the Exchange's commands -/

section
open Sys2Proof Sys2Proof.Machine

set_option Elab.async false

namespace Sys2Proof.Machine

theorem Dev.fetchDesc_formed {d : Dev} (h : d.Formed) (j : Nat) (op : Nat) : (d.fetchDesc j op).Formed := by
  grind [Dev.fetchDesc, Dev.readVirt_formed, Dev.jobFault_formed, Dev.xchError_formed, Dev.setJob_formed,
      Dev.writeVirt_formed, Dev.placeDesc_formed]

theorem Dev.collective_formed {d : Dev} (h : d.Formed) (j : Nat) (op : Nat) : (d.collective j op).Formed := by
  grind [Dev.Formed, Dev.collective, Dev.placeDesc_formed, Dev.fetchDesc_formed, Dev.commitLoop_formed]

theorem Dev.timedStart_formed {d : Dev} (h : d.Formed) (j : Nat) (n : BitVec 16) : (d.timedStart j n).Formed := by
  grind [Dev.timedStart, Dev.beginBkt_formed, Dev.countEarly_formed, Dev.commitLoop_formed]

theorem Dev.writeResult_formed {d : Dev} (h : d.Formed) (j : Nat) (x : Coll) (codes : List Nat) (psn : Bool) :
    (d.writeResult j x codes psn).1.Formed := by
  simp only [Dev.writeResult]
  split
  · exact foldl_fst_formed h fun r b hr => by grind [Dev.writeElems_formed]
  · exact Dev.writeElems_formed h _ _ _ _ _ _

theorem Dev.writeHist_formed {d : Dev} (h : d.Formed) (j : Nat) (x : Coll) (b : Bucket) (ws : List Word) (psn : Bool) :
    (d.writeHist j x b ws psn).1.Formed := by
  grind [Dev.writeHist, Dev.readHist_formed, Dev.writeElems_formed]

theorem Dev.resultMismatch_formed {d : Dev} (h : d.Formed) (j : Nat) (own : Word) (got : Word) (rank : Nat)
    (bucket : Nat) :
    (d.resultMismatch j own got rank bucket).Formed := by
  grind [Dev.Formed, Dev.resultMismatch, Dev.ledger_formed, Dev.updJob_formed]

theorem Dev.toldMismatch_formed {d : Dev} (h : d.Formed) (j : Nat) (rank : Nat) : (d.toldMismatch j rank).Formed := by
  grind [Dev.toldMismatch, Dev.draw_formed, Dev.resultMismatch_formed]

theorem Dev.bktOver_formed {d : Dev} (h : d.Formed) (k : BKey) : (d.bktOver k).Formed := by
  grind [Dev.bktOver, Dev.updBkt_formed, Dev.dropBkt_formed]

theorem Dev.compareTallies_formed {d : Dev} (h : d.Formed) (j : Nat) (n : BitVec 16) :
    (d.compareTallies j n).Formed := by
  grind [Dev.compareTallies, Dev.raiseAbort_formed, Dev.resultMismatch_formed, Dev.setJob_formed, Dev.bktOver_formed,
      foldl_formed]

theorem Dev.sendResult_formed {d : Dev} (h : d.Formed) (k : BKey) (x : Coll) (bs : List Byte) (psn : Bool) :
    (d.sendResult k x bs psn).Formed := by
  grind [Dev.sendResult, Dev.sendXch_formed, Dev.compareTallies_formed, Dev.updJob_formed, foldl_formed]

theorem Dev.completeColl_formed {d : Dev} (h : d.Formed) (j : Nat) (n : BitVec 16) : (d.completeColl j n).Formed := by
  unfold Dev.completeColl
  split
  · grind [Dev.Formed, Dev.writeResult_formed, Dev.xchFault_formed, Dev.writeHist_formed, Dev.taintCtx_formed,
      Dev.addOne_formed, Dev.trace_formed, Dev.updJob_formed, Dev.updBkt_formed, Dev.settleSent_formed,
      Dev.bktOver_formed, Dev.sendResult_formed, Dev.commitLoop_formed]
  · split <;> grind [Dev.Formed, Dev.writeResult_formed, Dev.xchFault_formed, Dev.writeHist_formed,
      Dev.taintCtx_formed, Dev.addOne_formed, Dev.trace_formed, Dev.updJob_formed, Dev.updBkt_formed,
      Dev.settleSent_formed, Dev.bktOver_formed, Dev.sendResult_formed, Dev.commitLoop_formed]

theorem Dev.overdueRecords_formed {d : Dev} (h : d.Formed) (j : Nat) (n : BitVec 16) (rs : List Nat) :
    (d.overdueRecords j n rs).Formed := by
  grind [Dev.overdueRecords, Dev.ledger_formed, foldl_formed]

theorem Dev.markOverdue_formed {d : Dev} (h : d.Formed) (j : Nat) (n : BitVec 16) : (d.markOverdue j n).Formed := by
  grind [Dev.Formed, Dev.markOverdue]

theorem Dev.timeoutColl_formed {d : Dev} (h : d.Formed) (j : Nat) (n : BitVec 16) : (d.timeoutColl j n).Formed := by
  grind [Dev.timeoutColl, Dev.raiseAbort_formed, Dev.updJob_formed, Dev.markOverdue_formed, Dev.overdueRecords_formed]

theorem Dev.repeatResend_formed {d : Dev} (h : d.Formed) (j : Nat) (n : BitVec 16) : (d.repeatResend j n).Formed := by
  grind [Dev.repeatResend, Dev.sendXch_formed, Dev.ledger_formed, foldl_formed]

theorem Dev.unknownJob_formed {d : Dev} (h : d.Formed) (p : XPkt) : (d.unknownJob p).Formed := by
  grind [Dev.Formed, Dev.unknownJob, Dev.ledger_formed]

theorem Dev.badConfig_formed {d : Dev} (h : d.Formed) (j : Nat) (p : XPkt) : (d.badConfig j p).Formed := by
  grind [Dev.Formed, Dev.badConfig, Dev.progressAll_formed, Dev.jobFault_formed, Dev.ledger_formed]

theorem Dev.entryFor_formed {d : Dev} (h : d.Formed) (j : Nat) (p : XPkt) : ∀ d' ∈ (d.entryFor j p), d'.Formed := by
  intro e he
  unfold Dev.entryFor at he
  extract_lets k at he
  split at he
  · extract_lets ld at he
    split at he
    · exact Option.mem_some.mp he ▸ h
    · obtain ⟨i, -, rfl⟩ := Option.mem_map.mp he
      exact Dev.updBkt_formed h _ _
  · obtain ⟨i, -, rfl⟩ := Option.mem_map.mp he
    exact h.congr rfl rfl

theorem Dev.rxFor_formed {d : Dev} (h : d.Formed) (j : Nat) (p : XPkt) : ∀ r ∈ (d.rxFor j p), r.1.Formed := by
  intro r hr
  obtain ⟨e, he, rfl⟩ := Option.mem_map.mp hr
  exact Dev.updBkt_formed (Dev.entryFor_formed h j p e he) _ _

theorem Dev.placePkt_formed {d : Dev} (h : d.Formed) (j : Nat) (p : XPkt) : (d.placePkt j p).Formed := by
  unfold Dev.placePkt
  split
  · exact h.congr rfl rfl
  · next e k heq =>
    have he : e.Formed := Dev.rxFor_formed h j p _ heq
    grind [Dev.Formed, Dev.updRx_formed, Dev.progress_formed, Dev.spoil_formed]

theorem Dev.ackAgain_formed {d : Dev} (h : d.Formed) (j : Nat) (p : XPkt) (fin : Finished) :
    (d.ackAgain j p fin).Formed := by
  grind [Dev.ackAgain, Dev.staleOne_formed, Dev.sendXch_formed]

theorem Dev.takePkt_formed {d : Dev} (h : d.Formed) (j : Nat) (p : XPkt) : (d.takePkt j p).Formed := by
  grind [Dev.takePkt, Dev.staleOne_formed, Dev.ackAgain_formed, Dev.placePkt_formed, Dev.draw_formed,
      Dev.peerAbort_formed]

theorem Dev.holdPkt_formed {d : Dev} (h : d.Formed) (p : XPkt) : (d.holdPkt p).Formed := by
  grind [Dev.Formed, Dev.holdPkt]

theorem Dev.dataPkt_formed {d : Dev} (h : d.Formed) (p : XPkt) : (d.dataPkt p).Formed := by
  have hc := Dev.consume_formed h 0x01 p.job
  have hhold (j : Nat) (b : Bool) :
      (((if b then (d.consume 0x01 p.job).entryFor j p else none).getD (d.consume 0x01 p.job)).holdPkt p).Formed := by
    refine Dev.holdPkt_formed ?_ p
    cases heq : (if b then (d.consume 0x01 p.job).entryFor j p else none) with
    | none => exact hc
    | some e => exact Dev.entryFor_formed hc j p e (by grind)
  unfold Dev.dataPkt
  split
  · exact Dev.unknownJob_formed hc p
  · next j _ =>
    extract_lets x e
    split
    · exact h
    · split
      · exact h
      · split
        · grind [Dev.staleOne_formed]
        · split
          · exact hc
          · split
            · exact Dev.badConfig_formed hc j p
            · split
              · exact Dev.staleOne_formed hc j
              · exact hhold j _
            · exact Dev.takePkt_formed hc j p

theorem Dev.resultPkt_formed {d : Dev} (h : d.Formed) (j : Nat) (p : XPkt) : (d.resultPkt j p).Formed := by
  grind [Dev.resultPkt, Dev.compareTallies_formed, Dev.setJob_formed, Dev.staleOne_formed, Dev.holdPkt_formed]

theorem Dev.flushEarly_formed {d : Dev} (h : d.Formed) (id : BitVec 16) : (d.flushEarly id).Formed := by
  grind [Dev.Formed, Dev.flushEarly, Dev.resultPkt_formed, Dev.takePkt_formed, Dev.holdPkt_formed, foldl_formed]

theorem Dev.forAnyJob_formed {d : Dev} (h : d.Formed) (p : XPkt) {f : Dev → Nat → Dev}
    (hf : ∀ e j, e.Formed → (f e j).Formed) :
    (d.forAnyJob p f).Formed := by
  grind [Dev.forAnyJob, Dev.consume_formed, Dev.unknownJob_formed]

theorem Dev.forJob_formed {d : Dev} (h : d.Formed) (p : XPkt) {f : Dev → Nat → Dev}
    (hf : ∀ e j, e.Formed → (f e j).Formed) :
    (d.forJob p f).Formed :=
  Dev.forAnyJob_formed h p fun e j he => by grind

theorem Dev.fromPeer_formed {d : Dev} (h : d.Formed) (j : Nat) (p : XPkt) {f : Dev → Dev}
    (hf : ∀ e, e.Formed → (f e).Formed) :
    (d.fromPeer j p f).Formed := by
  grind [Dev.fromPeer, Dev.badConfig_formed]

theorem Dev.segAcked_formed {d : Dev} (h : d.Formed) (j : Nat) (p : XPkt) : (d.segAcked j p).Formed := by
  grind [Dev.Formed, Dev.segAcked, Dev.progressAll_formed]

theorem Dev.segAgain_formed {d : Dev} (h : d.Formed) (j : Nat) (p : XPkt) : (d.segAgain j p).Formed := by
  grind [Dev.segAgain, Dev.updJob_formed, Dev.sendSeg_formed]

theorem Dev.hello_formed {d : Dev} (h : d.Formed) (j : Nat) (p : XPkt) : (d.hello j p).Formed := by
  grind [Dev.hello, Dev.badConfig_formed, Dev.flushEarly_formed, Dev.setJob_formed]

theorem Dev.isTold_formed {d : Dev} (h : d.Formed) (j : Nat) (cause : Nat) (rank : Nat) (p : XPkt) :
    (d.isTold j cause rank p).1.Formed := by
  grind [Dev.isTold, Dev.draw_formed]

theorem Dev.abortPkt_formed {d : Dev} (h : d.Formed) (j : Nat) (p : XPkt) : (d.abortPkt j p).Formed := by
  grind [Dev.abortPkt, Dev.trace_formed, Dev.staleOne_formed, Dev.isTold_formed, Dev.toldMismatch_formed,
      Dev.flushEarly_formed, Dev.peerAbort_formed]

theorem Dev.stirXch_formed {d : Dev} (h : d.Formed) (id : BitVec 16) : (d.stirXch id).Formed := by
  grind [Dev.stirXch, Dev.progressAll_formed, Dev.flushEarly_formed]

theorem Dev.runColl_formed {d : Dev} (h : d.Formed) (j : JobIx) (op : Nat) : (d.runColl j op).Formed := by
  grind [Dev.runColl, Dev.stirXch_formed, Dev.collective_formed]

end Sys2Proof.Machine
end

/-! ### Formed memory is kept: the vector and convert instructions -/

section
open Sys2Proof Sys2Proof.Machine

set_option Elab.async false

namespace Sys2Proof.Machine

theorem Dev.scaleViews_formed {d : Dev} (h : d.Formed) (f : FrameId) (j : VecJob) : (d.scaleViews f j).1.Formed := by
  grind [Dev.scaleViews, Dev.view_formed]

theorem Dev.finishVec_formed {d : Dev} (h : d.Formed) (f : FrameId) (j : VecJob) (sv : ScaleViews) :
    (d.finishVec f j sv).Formed := by
  grind [Dev.Formed, Dev.finishVec, Dev.kill_formed, Dev.setFrame_formed, memForm_applyBuf]

theorem Dev.convBefore_formed {d : Dev} (h : d.Formed) (f : FrameId) (j : VecJob) : (d.convBefore f j).Formed := by
  grind [Dev.Formed, Dev.convBefore, Dev.xlate_formed, Dev.updFrame_formed, memForm_applyBuf]

theorem Dev.completeVec_formed {d : Dev} (h : d.Formed) (f : FrameId) : (d.completeVec f).Formed := by
  grind [Dev.completeVec, Dev.scaleViews_formed, Dev.finishVec_formed]

end Sys2Proof.Machine
end

/-! ### Formed memory is kept: waits -/

section
open Sys2Proof Sys2Proof.Machine

set_option Elab.async false

namespace Sys2Proof.Machine

theorem Dev.taskBellError_formed {d : Dev} (h : d.Formed) (o : Origin) (addr : Word) (cause : Nat) :
    (d.taskBellError o addr cause).Formed := by
  unfold Dev.taskBellError
  split <;> grind [Dev.Formed, Dev.accessFault_formed, Dev.commandFault_formed, Dev.faultCtx_formed,
      Dev.memFault_formed]

theorem Dev.ringTaskBell_formed {d : Dev} (h : d.Formed) (addr : Word) (value : Word) (add : Bool) (job : BitVec 16)
    (o : Origin) :
    (d.ringTaskBell addr value add job o).Formed := by
  grind [Dev.ringTaskBell, Dev.bell_formed, Dev.taskBellError_formed]

theorem Issue.formed_of_check {c : Check} {n : Nat} {i : Issue} (h : i.Formed) :
    (match c with | .bad code a => Issue.fault code n a | .ok => i : Issue).Formed := by
  cases c
  · exact h
  · trivial

theorem Issue.formed_ite {c : Prop} [Decidable c] {i j : Issue} (hi : i.Formed) (hj : j.Formed) :
    (if c then i else j).Formed := by
  split
  · exact hi
  · exact hj

theorem Dev.withRegs_formed {d : Dev} (h : d.Formed) (f : FrameId) (g : Regs → Regs) : (d.withRegs f g).Formed :=
  Dev.updFrame_formed h f _

theorem branchBody_formed {d : Dev} (h : d.Formed) (a : Option Nat) (uses : Insn → List Dest) (ok : Insn → Bool)
    (off : Insn → Word) (take : Regs → Insn → Bool) (f : FrameId) (x : Insn) (imm : Word) :
    ((branchBody a uses ok off take).act d f x imm).Formed := by
  simp only [branchBody]
  split <;> exact h

theorem waitBody_formed {d : Dev} (h : d.Formed) (n : Nat) (src : Option Nat) (cnt : Regs → Insn → BitVec 32)
    (f : FrameId)
    (x : Insn) (imm : Word) : ((waitBody n src cnt).act d f x imm).Formed := by
  grind [waitBody, Issue.Formed]

theorem loadAct_formed {d : Dev} (h : d.Formed) (op : Op) (dst : Insn → Dest) (space : Bool) (size : Nat)
    (addr : Regs → Insn → Nat) (after : Regs → Insn → Regs) (f : FrameId) (x : Insn) (imm : Word) :
    (loadAct op dst space size addr after d f x imm).Formed := by
  grind [loadAct, Issue.Formed, Dev.startLoad_formed, Dev.updFrame_formed]

theorem storeAct_formed {d : Dev} (h : d.Formed) (op : Op) (space : Bool) (size : Nat) (addr : Regs → Insn → Nat)
    (data : Regs → Insn → List Byte) (after : Regs → Insn → Regs) (f : FrameId) (x : Insn) (imm : Word) :
    (storeAct op space size addr data after d f x imm).Formed := by
  grind [storeAct, Issue.Formed, Dev.startStore_formed, Dev.updFrame_formed]

theorem tyIssue_formed {d : Dev} (h : d.Formed) (f : FrameId) (j : TyJob) : (tyIssue d f j).Formed := by
  grind [tyIssue, Issue.Formed, Dev.updFrame_formed]

theorem movIssue_formed {d : Dev} (h : d.Formed) (f : FrameId) (x : Insn) : (movIssue d f x).Formed :=
  Issue.formed_of_check (Issue.formed_ite h (Dev.updFrame_formed h f _))

theorem mmaIssue_formed {d : Dev} (h : d.Formed) (s : Shape) (op : Op) (f : FrameId) (x : Insn) :
    (mmaIssue s op d f x).Formed := by
  refine Issue.formed_of_check ?_
  split
  · refine Issue.formed_of_check ?_
    dsimp only
    generalize hcomb : d.allOwnComb f _ = r
    have hr : r.1.Formed := hcomb ▸ Dev.allOwnComb_formed h f _
    exact Issue.formed_ite trivial (Issue.formed_of_check (Issue.formed_ite hr
      (Dev.updFrame_formed (Dev.trace_formed hr _ _ _ _ _) f _)))
  · trivial

theorem vecIssue_formed {d : Dev} (h : d.Formed) (op : Op) (f : FrameId) (x : Insn) : (vecIssue op d f x).Formed := by
  refine Issue.formed_of_check ?_
  dsimp only
  generalize hcomb : d.allOwnComb f _ = r
  have hr : r.1.Formed := hcomb ▸ Dev.allOwnComb_formed h f _
  exact Issue.formed_ite trivial (Issue.formed_of_check (Issue.formed_ite hr (Dev.updFrame_formed hr f _)))

theorem doneBody_formed {d : Dev} (h : d.Formed) (f : FrameId) (x : Insn) (imm : Word) :
    (doneBody.act d f x imm).Formed := by
  grind [doneBody, Issue.Formed, Dev.updFrame_formed]

theorem bellBody_formed {d : Dev} (h : d.Formed) (f : FrameId) (x : Insn) (imm : Word) :
    (bellBody.act d f x imm).Formed := by
  grind [bellBody, Dev.Formed, Issue.Formed, Dev.commitReady_formed, Dev.kill_formed, Dev.ringTaskBell_formed]

/-- The instructions that write registers, or the frame, in a way of their own. -/
theorem opBody_formed {d : Dev} (h : d.Formed) (op : Op) (f : FrameId) (x : Insn) (imm : Word) :
    ((opBody op).act d f x imm).Formed := by
  cases op
  case nop => exact h
  case add | sub | mul | andS | orS | xorS | shl | shr | sra | addi | andi | shli | shri | cmp | cmpi | amov | aadd |
    smova
      | kand | kor | knot | li64 | ai64 => exact Dev.updFrame_formed h f _
  case b | bz | bnz | bk =>
    simp only [opBody, bBody, bzBody, bnzBody, bkBody]
    exact branchBody_formed h _ _ _ _ _ f x imm
  case br => grind [opBody, brBody, Issue.Formed]
  case mmaF | mmaH2 | mmaQ4 => exact mmaIssue_formed h _ _ f x
  case mov => exact movIssue_formed h f x
  case tld | tldl | lds | ldsl | lda =>
    simp only [opBody, tldBody, tldlBody, ldsBody, ldslBody, ldaBody]
    exact loadAct_formed h _ _ _ _ _ _ f x imm
  case sts | stsl | sta =>
    simp only [opBody, stsBody, stslBody, staBody]
    exact storeAct_formed h _ _ _ _ _ _ f x imm
  case tst =>
    simp only [opBody, tstBody]
    split
    · trivial
    · exact storeAct_formed h _ _ _ _ _ _ f x imm
  case twr => exact Dev.updFrame_formed h f _
  case trd | taddb | text => grind [opBody, trdBody, taddbBody, textBody, Issue.Formed, Dev.withRegs_formed]
  case tyinit | tyrd =>
    refine Issue.formed_ite ?_ ?_
    · exact h
    · exact tyIssue_formed h f _
  case tydata => grind [opBody, tydataBody, Issue.Formed, tyIssue_formed]
  case tywr =>
    refine Issue.formed_ite ?_ (Issue.formed_ite ?_ ?_)
    · exact h
    · trivial
    · exact tyIssue_formed h f _
  case waitAc | waitMc | waitAcr | waitMcr => exact waitBody_formed h _ _ _ f x imm
  case waitAll => grind [opBody, waitAllBody, Issue.Formed]
  case done => exact doneBody_formed h f x imm
  case bell => exact bellBody_formed h f x imm
  all_goals exact vecIssue_formed h _ f x

theorem Dev.releaseHold_formed {d : Dev} (h : d.Formed) (f : FrameId) : (d.releaseHold f).Formed := by
  unfold Dev.releaseHold
  extract_lets fr
  split
  · exact h
  · split
    · exact Dev.pumpTally_formed
        (Dev.pumpMma_formed (Dev.tryIssue_formed h f _ _ _ _ (opBody_formed h _ f _ _)) f 8) f 16
    · exact h

theorem Dev.signalDone_formed {d : Dev} (h : d.Formed) (f : FrameId) : (d.signalDone f).Formed := by
  grind [Dev.signalDone, Dev.updCtx_formed, Dev.commitReady_formed, Dev.kill_formed, Dev.trace_formed,
      Dev.taskDone_formed, Dev.endOnFrame_formed, Dev.ringTaskBell_formed]

theorem Dev.signalFault_formed {d : Dev} (h : d.Formed) (f : FrameId) : (d.signalFault f).Formed := by
  grind [Dev.signalFault, Dev.settle_formed, Dev.updFrame_formed, Dev.faultCtx_formed, Dev.updTask_formed,
      Dev.complete_formed, Dev.commandFault_formed, Dev.trace_formed, Dev.endOnFrame_formed]

theorem Dev.failMma_formed {d : Dev} (h : d.Formed) (f : FrameId) (i : Nat) (j : MmaJob) (e : XErr × Acc6 × Nat) :
    (d.failMma f i j e).Formed := by
  grind [Dev.failMma, Dev.dropTile_formed, Dev.accessFault_formed, Dev.updFrame_formed]

theorem Dev.drainBefore_formed {d : Dev} (h : d.Formed) (f : FrameId) (j : MmaJob) : (d.drainBefore f j).Formed := by
  grind [Dev.drainBefore, Dev.drainViews_formed, Dev.drainRows_formed]

theorem Dev.errorMma_formed {d : Dev} (h : d.Formed) (f : FrameId) : (d.errorMma f).Formed := by
  grind [Dev.errorMma, Dev.failMma_formed, Dev.drainBefore_formed]

theorem Dev.errorVec_formed {d : Dev} (h : d.Formed) (f : FrameId) : (d.errorVec f).Formed := by
  grind [Dev.errorVec, Dev.view_formed, Dev.accessFault_formed, Dev.updFrame_formed, Dev.convBefore_formed]

theorem Dev.errorMove_formed {d : Dev} (h : d.Formed) (f : FrameId) (i : Nat) (line : Nat) :
    (d.errorMove f i line).Formed := by
  unfold Dev.errorMove
  split <;> grind [Dev.Formed, Dev.lineData_formed, Dev.viewOf_formed, Dev.failMove_formed]

theorem Dev.errorAccess_formed {d : Dev} (h : d.Formed) (f : FrameId) (a : Access) : (d.errorAccess f a).Formed := by
  unfold Dev.errorAccess
  split <;> grind [Dev.Formed, Dev.failLoad_formed, Dev.accessFault_formed, Dev.setFrame_formed, Dev.pumpTally_formed,
      Dev.errorMove_formed, Dev.errorMma_formed, Dev.errorVec_formed]

theorem Dev.fetchAt_formed {d : Dev} (h : d.Formed) (f : FrameId) (pc : Nat) : (d.fetchAt f pc).1.Formed := by
  grind [Dev.fetchAt, Dev.xlate_formed]

theorem Dev.fetchFail_formed {d : Dev} (h : d.Formed) (f : FrameId) : (d.fetchFail f).Formed := by
  grind [Dev.fetchFail, Dev.memFault_formed, Dev.updFrame_formed, Dev.fetchAt_formed, Dev.kill_formed]

end Sys2Proof.Machine
end

/-! ### Formed memory is kept: shared operations of the Arvond ports -/

section
open Sys2Proof Sys2Proof.Machine

set_option Elab.async false

namespace Sys2Proof.Machine

theorem Dev.apiaryTx_formed {d : Dev} (h : d.Formed) (type : Nat) (body : List Byte) (dst : Option (List Byte)) :
    (d.apiaryTx type body dst).Formed := by
  grind [Dev.Formed, Dev.apiaryTx, Dev.emit_formed]

theorem Dev.report_formed {d : Dev} (h : d.Formed) (type : Nat) (body : List Byte) : (d.report type body).Formed := by
  grind [Dev.Formed, Dev.report, Dev.apiaryTx_formed]

theorem Dev.setRtb_formed {d : Dev} (h : d.Formed) (i : Nat) (w : Word) : (d.setRtb i w).Formed := by
  grind [Dev.Formed, Dev.setRtb]

theorem Dev.detour_formed {d : Dev} (h : d.Formed) (p : Port) : (d.detour p).Formed := by
  grind [Dev.detour, Dev.setRtb_formed]

theorem Dev.refreshDetours_formed {d : Dev} (h : d.Formed) : (d.refreshDetours).Formed := by
  grind [Dev.refreshDetours, Dev.detour_formed, foldl_formed]

theorem Dev.setParent_formed {d : Dev} (h : d.Formed) (p : Option (BitVec 15)) : (d.setParent p).Formed := by
  grind [Dev.Formed, Dev.setParent]

theorem Dev.setServo_formed {d : Dev} (h : d.Formed) (st : WState) : (d.setServo st).Formed := by
  grind [Dev.Formed, Dev.setServo, Dev.trace_formed]

theorem Dev.reform_formed {d : Dev} (h : d.Formed) : (d.reform).Formed := by
  grind [Dev.Formed, Dev.reform, Dev.setParent_formed, Dev.setServo_formed]

theorem Dev.losePort_formed {d : Dev} (h : d.Formed) (p : Port) : (d.losePort p).Formed := by
  grind [Dev.Formed, Dev.losePort]

theorem Dev.refreshTree_formed {d : Dev} (h : d.Formed) : (d.refreshTree).Formed := by
  grind [Dev.Formed, Dev.refreshTree, Dev.reform_formed]

theorem Dev.barrierError_formed {d : Dev} (h : d.Formed) (key : BitVec 32) : (d.barrierError key).Formed := by
  grind [Dev.barrierError, Dev.breakGroup_formed]

theorem Dev.barrierLost_formed {d : Dev} (h : d.Formed) (fl : Flit) : (d.barrierLost fl).Formed := by
  grind [Dev.barrierLost, Dev.breakGroup_formed]

theorem Dev.originError_formed {d : Dev} (h : d.Formed) (r : Req) (cause : Nat) : (d.originError r cause).Formed := by
  grind [Dev.originError, Dev.settle_formed, Dev.failLoad_formed, Dev.accessFault_formed, Dev.updFrame_formed,
      Dev.pumpTally_formed, Dev.failMove_formed, Dev.taskBellError_formed, Dev.bellFailed_formed,
      Dev.signalError_formed, Dev.memFault_formed]

theorem Dev.errorArrived_formed {d : Dev} (h : d.Formed) (tag : BitVec 32) (cause : Nat) :
    (d.errorArrived tag cause).Formed := by
  grind [Dev.errorArrived, Dev.originError_formed, Dev.dropReq_formed, Dev.barrierError_formed]

theorem Dev.answerError_formed {d : Dev} (h : d.Formed) (fl : Flit) (cause : Nat) :
    (d.answerError fl cause).Formed := by
  grind [Dev.answerError, Dev.barrierLost_formed, Dev.errorArrived_formed, Dev.sendError_formed]

theorem Dev.forward_formed {d : Dev} (h : d.Formed) (fl : Flit) : (d.forward fl).Formed := by
  grind [Dev.forward, Dev.sendFlit_formed, Dev.answerError_formed]

theorem Dev.dropOrResend_formed {d : Dev} (h : d.Formed) (fl : Flit) : (d.dropOrResend fl).Formed := by
  grind [Dev.dropOrResend, Dev.forward_formed, Dev.answerError_formed]

theorem Dev.flushPort_formed {d : Dev} (h : d.Formed) (p : Port) : (d.flushPort p).Formed := by
  grind [Dev.flushPort, Dev.setPort_formed, Dev.dropOrResend_formed, Dev.forward_formed, Dev.sendSeg_formed,
      foldl_formed]

theorem Dev.movePort_formed {d : Dev} (h : d.Formed) (p : Port) (st : PState) : (d.movePort p st).Formed := by
  grind [Dev.movePort, Dev.emit_formed, Dev.setPort_formed, Dev.trace_formed, Dev.refreshDetours_formed,
      Dev.detour_formed, Dev.refreshTree_formed, Dev.losePort_formed, Dev.flushPort_formed]

theorem Dev.missing_formed {d : Dev} (h : d.Formed) (p : Port) : (d.missing p).Formed := by
  grind [Dev.Formed, Dev.missing, Dev.ledger_formed, Dev.detour_formed]

theorem Dev.portDown_formed {d : Dev} (h : d.Formed) (p : Port) (st : PState) : (d.portDown p st).Formed := by
  grind [Dev.portDown, Dev.missing_formed, Dev.updPort_formed, Dev.movePort_formed]

theorem Dev.quarantine_formed {d : Dev} (h : d.Formed) (p : Port) (cause : Nat) : (d.quarantine p cause).Formed := by
  grind [Dev.quarantine, Dev.movePort_formed, Dev.updPort_formed]

theorem Dev.startDetect_formed {d : Dev} (h : d.Formed) (p : Port) : (d.startDetect p).Formed := by
  grind [Dev.startDetect, Dev.updPort_formed, Dev.movePort_formed]

theorem Dev.enterEq_formed {d : Dev} (h : d.Formed) (p : Port) : (d.enterEq p).Formed := by
  grind [Dev.enterEq, Dev.updPort_formed, Dev.movePort_formed]

theorem Dev.fillPlaces_formed {d : Dev} (h : d.Formed) : (d.fillPlaces).Formed := by
  grind [Dev.fillPlaces, Dev.enterEq_formed, foldl_formed]

theorem Dev.activate_formed {d : Dev} (h : d.Formed) (p : Port) : (d.activate p).Formed := by
  grind [Dev.activate, Dev.movePort_formed, Dev.updPort_formed, Dev.setRtb_formed, Dev.refreshDetours_formed,
      Dev.report_formed, Dev.refreshTree_formed]

theorem Dev.comparePeer_formed {d : Dev} (h : d.Formed) (p : Port) : (d.comparePeer p).Formed := by
  grind [Dev.comparePeer, Dev.ledger_formed, Dev.quarantine_formed, Dev.activate_formed]

theorem Dev.retrainPort_formed {d : Dev} (h : d.Formed) (p : Port) (cause : Nat) : (d.retrainPort p cause).Formed := by
  grind [Dev.retrainPort, Dev.updPort_formed, Dev.ledger_formed, Dev.quarantine_formed, Dev.startDetect_formed,
      Dev.portDown_formed]

theorem Dev.sendControl_formed {d : Dev} (h : d.Formed) (p : Port) (msg : List Byte) :
    (d.sendControl p msg).Formed := by
  grind [Dev.sendControl, Dev.emit_formed]

theorem Dev.violation_formed {d : Dev} (h : d.Formed) (p : Port) : (d.violation p).Formed := by
  grind [Dev.violation, Dev.logEntry_formed, Dev.updPort_formed, Dev.retrainPort_formed, Dev.sendControl_formed]

end Sys2Proof.Machine
end

/-! ### Formed memory is kept: the Arvond ports -/

section
open Sys2Proof Sys2Proof.Machine

set_option Elab.async false

namespace Sys2Proof.Machine

theorem Dev.fecErrors_formed {d : Dev} (h : d.Formed) (p : Port) (n : Nat) : (d.fecErrors p n).Formed := by
  grind [Dev.fecErrors, Dev.updPort_formed]

theorem Dev.unknownMessage_formed {d : Dev} (h : d.Formed) (p : Port) (bs : List Byte) :
    (d.unknownMessage p bs).Formed := by
  grind [Dev.unknownMessage, Dev.updPort_formed, Dev.ledger_formed, Dev.violation_formed]

theorem Dev.acceptFlit_formed {d : Dev} (h : d.Formed) (p : Port) (fl : Flit) : (d.acceptFlit p fl).Formed := by
  grind [Dev.acceptFlit, Dev.updPort_formed, Dev.forward_formed]

theorem Dev.receiveFlit_formed {d : Dev} (h : d.Formed) (p : Port) (bs : List Byte) : (d.receiveFlit p bs).Formed := by
  grind [Dev.receiveFlit, Dev.setPort_formed, Dev.violation_formed, Dev.unknownMessage_formed, Dev.updPort_formed,
      Dev.acceptFlit_formed]

theorem Dev.receiveControl_formed {d : Dev} (h : d.Formed) (p : Port) (bs : List Byte) :
    (d.receiveControl p bs).Formed := by
  grind [Dev.receiveControl, Dev.violation_formed, Dev.setPort_formed, Dev.unknownMessage_formed]

theorem Dev.hearHello_formed {d : Dev} (h : d.Formed) (p : Port) (id : BitVec 16) (peerPort : Byte) :
    (d.hearHello p id peerPort).Formed := by
  grind [Dev.hearHello, Dev.comparePeer_formed, Dev.updPort_formed]

theorem Dev.logPartner_formed {d : Dev} (h : d.Formed) (p : Port) : (d.logPartner p).Formed := by
  grind [Dev.logPartner, Dev.logEntry_formed]

theorem Dev.setLanes_formed {d : Dev} (h : d.Formed) (p : Port) (mask : Byte) (n : Nat) :
    (d.setLanes p mask n).Formed := by
  grind [Dev.setLanes, Dev.trace_formed, Dev.updPort_formed]

theorem Dev.laneFails_formed {d : Dev} (h : d.Formed) (p : Port) (lane : Fin 8) : (d.laneFails p lane).Formed := by
  grind [Dev.laneFails, Dev.portDown_formed, Dev.updPort_formed, Dev.setLanes_formed]

theorem Dev.partnerLanes_formed {d : Dev} (h : d.Formed) (p : Port) (mask : Byte) (count : Byte) :
    (d.partnerLanes p mask count).Formed := by
  grind [Dev.partnerLanes, Dev.portDown_formed, Dev.updPort_formed, Dev.setLanes_formed]

theorem Dev.putFlit_formed {d : Dev} (h : d.Formed) (p : Port) (fl : Flit) : (d.putFlit p fl).Formed := by
  grind [Dev.putFlit, Dev.setPort_formed, Dev.emit_formed]

theorem Dev.dataSlot_formed {d : Dev} (h : d.Formed) (p : Port) : (d.dataSlot p).Formed := by
  grind [Dev.dataSlot, Dev.updPort_formed, Dev.emit_formed, Dev.setPort_formed, Dev.putFlit_formed]

theorem Dev.flitSlot_formed {d : Dev} (h : d.Formed) (p : Port) : (d.flitSlot p).Formed := by
  grind [Dev.flitSlot, Dev.emit_formed, Dev.setPort_formed, Dev.dataSlot_formed]

theorem Dev.sendHello_formed {d : Dev} (h : d.Formed) (p : Port) : (d.sendHello p).Formed := by
  grind [Dev.sendHello, Dev.sendControl_formed]

theorem Dev.trainDone_formed {d : Dev} (h : d.Formed) (p : Port) (o : TrainObs) : (d.trainDone p o).Formed := by
  grind [Dev.trainDone, Dev.updPort_formed, Dev.setPort_formed, Dev.enterEq_formed, Dev.movePort_formed,
      Dev.portDown_formed, Dev.sendHello_formed]

theorem Dev.trainTimeout_formed {d : Dev} (h : d.Formed) (p : Port) : (d.trainTimeout p).Formed := by
  grind [Dev.trainTimeout, Dev.portDown_formed, Dev.setPort_formed]

theorem Dev.startWave_formed {d : Dev} (h : d.Formed) (wave : Fin 4) : (d.startWave wave).Formed := by
  grind [Dev.Formed, Dev.startWave, Dev.startDetect_formed, Dev.movePort_formed, foldl_formed]

theorem Dev.retryPort_formed {d : Dev} (h : d.Formed) (p : Port) : (d.retryPort p).Formed := by
  grind [Dev.retryPort, Dev.startDetect_formed]

theorem Dev.unpark_formed {d : Dev} (h : d.Formed) (p : Port) : (d.unpark p).Formed := by
  grind [Dev.unpark, Dev.enterEq_formed]

theorem Dev.routeOp_formed {d : Dev} (h : d.Formed) (o : RouteOp) : (d.routeOp o).Formed := by
  unfold Dev.routeOp
  split <;> grind [Dev.Formed, Dev.setRtb_formed]

theorem Dev.changeRoutes_formed {d : Dev} (h : d.Formed) (ops : List RouteOp) : (d.changeRoutes ops).Formed := by
  grind [Dev.changeRoutes, Dev.refreshTree_formed, Dev.routeOp_formed, Dev.flushPort_formed, foldl_formed]

end Sys2Proof.Machine
end

/-! ### Formed memory is kept: the power-management core -/

section
open Sys2Proof Sys2Proof.Machine

set_option Elab.async false

namespace Sys2Proof.Machine

theorem Dev.setDie_formed {d : Dev} (h : d.Formed) (i : Nat) (x : Die) : (d.setDie i x).Formed := by
  grind [Dev.Formed, Dev.setDie]

theorem Dev.applyCaps_formed {d : Dev} (h : d.Formed) : (d.applyCaps).Formed := by
  grind [Dev.Formed, Dev.applyCaps]

theorem Dev.withCaps_formed {d : Dev} (h : d.Formed) (g : Power → Power) : (d.withCaps g).Formed := by
  grind [Dev.Formed, Dev.withCaps, Dev.applyCaps_formed, Dev.trace_formed, foldl_formed]

theorem Dev.controlInterval_formed {d : Dev} (h : d.Formed) (watts : Nat) (temps : List Nat) :
    (d.controlInterval watts temps).Formed := by
  grind [Dev.Formed, Dev.controlInterval, Dev.withCaps_formed]

theorem Dev.fastCheck_formed {d : Dev} (h : d.Formed) (watts : Nat) : (d.fastCheck watts).Formed := by
  grind [Dev.fastCheck, Dev.withCaps_formed]

theorem Dev.sendCode_formed {d : Dev} (h : d.Formed) (i : Nat) : (d.sendCode i).Formed := by
  grind [Dev.sendCode, Dev.emit_formed]

theorem Dev.voltageStep_formed {d : Dev} (h : d.Formed) (i : Fin 16) (up : Bool) : (d.voltageStep i up).Formed := by
  grind [Dev.voltageStep, Dev.trace_formed, Dev.sendCode_formed, Dev.setDie_formed]

theorem Dev.vrAlert_formed {d : Dev} (h : d.Formed) : (d.vrAlert).Formed := by
  grind [Dev.vrAlert, Dev.logEntry_formed, Dev.sendCode_formed, foldl_formed]

theorem Dev.homeRails_formed {d : Dev} (h : d.Formed) : (d.homeRails).Formed := by
  grind [Dev.homeRails, Dev.sendCode_formed, Dev.setDie_formed, foldl_formed]

end Sys2Proof.Machine
end

/-! ### Formed memory is kept: what each reset level keeps and clears -/

section
open Sys2Proof Sys2Proof.Machine

set_option Elab.async false

namespace Sys2Proof.Machine

theorem Dev.trainHost_formed {d : Dev} (h : d.Formed) : (d.trainHost).Formed := by
  grind [Dev.Formed, Dev.trainHost, Dev.draw_formed]

theorem Dev.romDone_formed {d : Dev} (h : d.Formed) : (d.romDone).Formed := by
  grind [Dev.Formed, Dev.romDone, Dev.applyRepairs_formed, Dev.trainHost_formed, Dev.movePort_formed, foldl_formed]

theorem Dev.selfChecked_formed {d : Dev} (h : d.Formed) : (d.selfChecked).Formed := by
  grind [Dev.Formed, Dev.selfChecked, Dev.romDone_formed]

theorem Dev.romStart_formed {d : Dev} (h : d.Formed) : (d.romStart).Formed := by
  grind [Dev.Formed, Dev.romStart, Dev.homeRails_formed, Dev.selfChecked_formed]

theorem Dev.resume_formed {d : Dev} (h : d.Formed) : (d.resume).Formed := by
  grind [Dev.resume, Dev.romStart_formed]

theorem Dev.levelFive_formed (d : Dev) (cause rail tj : Nat) : (d.levelFive cause rail tj).Formed :=
  ⟨rfl, rfl⟩

theorem Dev.levelFour_formed {d : Dev} (h : d.Formed) (cause : Nat) : (d.levelFour cause).Formed :=
  Dev.resume_formed ⟨Memory.warm_wf h.mem, rfl⟩

theorem Dev.abortJobs_formed {d : Dev} (h : d.Formed) : (d.abortJobs).Formed := by
  grind [Dev.abortJobs, Dev.jobFault_formed, foldl_formed]

theorem Dev.drainPort_formed {d : Dev} (h : d.Formed) (p : Port) (n : Nat) : (d.drainPort p n).Formed := by
  induction n generalizing d with
  | zero => exact h
  | succ n ih => grind [Dev.drainPort, Dev.flitSlot_formed]

theorem Dev.warmByRegister_formed {d : Dev} (h : d.Formed) : (d.warmByRegister).Formed := by
  grind [Dev.warmByRegister, Dev.abortJobs_formed, Dev.drainPort_formed, Dev.levelFour_formed, foldl_formed]

theorem Dev.levelThree_formed {d : Dev} (h : d.Formed) : (d.levelThree).Formed := by
  unfold Dev.levelThree
  extract_lets d1 qs d2 k2 d3 mine gone d4 ws k4 d5 g5 d6 d7
  have h2 : d2.Formed := foldl_formed (Dev.abortJobs_formed h) fun _ _ hd => Dev.dropArrivals_formed hd _
  clear_value d2
  have h3 : d3.Formed := ⟨h2.mem, rising_map h2.ctxs fun _ => rfl⟩
  have h4 : d4.Formed := Dev.forgetTasks_formed h3 _
  clear_value d4
  have h6 : d6.Formed := h4.withMkt
  have h7 : d7.Formed := foldl_formed h6 fun _ _ hd => Dev.updFrame_formed (Dev.clearFrame_formed hd _) _ _
  clear_value d7
  exact h7.congr rfl rfl

theorem Dev.loseSequenced_formed {d : Dev} (h : d.Formed) (p : Ctx → BitVec 12 → Bool) :
    (d.loseSequenced p).Formed := by
  grind [Dev.Formed, Dev.loseSequenced, rising_map]

theorem Dev.watchdog_formed {d : Dev} (h : d.Formed) (core : CoreId) : (d.watchdog core).Formed := by
  cases core <;> grind [Dev.Formed, Dev.watchdog, Dev.logEntry_formed, Dev.withCaps_formed, Dev.loseSequenced_formed]

end Sys2Proof.Machine
end

/-! ### Formed memory is kept: the boot ROM's image load -/

section
open Sys2Proof Sys2Proof.Machine

set_option Elab.async false

namespace Sys2Proof.Machine

theorem Dev.abandonLoad_formed {d : Dev} (h : d.Formed) (c : BootCause) : (d.abandonLoad c).Formed := by
  grind [Dev.Formed, Dev.abandonLoad, Dev.apiaryTx_formed]

theorem Dev.askPiece_formed {d : Dev} (h : d.Formed) (region : Nat) (piece : Nat) (mask : Nat) :
    (d.askPiece region piece mask).Formed := by
  grind [Dev.askPiece, Dev.apiaryTx_formed]

theorem Dev.bootRequest_formed {d : Dev} (h : d.Formed) : (d.bootRequest).Formed := by
  grind [Dev.Formed, Dev.bootRequest, Dev.apiaryTx_formed]

theorem Dev.bootOffered_formed {d : Dev} (h : d.Formed) (len : Nat) (nchunk : Nat) (server : BitVec 128) :
    (d.bootOffered len nchunk server).Formed := by
  grind [Dev.Formed, Dev.bootOffered, Dev.askPiece_formed]

theorem Dev.setLoad_formed {d : Dev} (h : d.Formed) (l : BootLoad) : (d.setLoad l).Formed := by
  grind [Dev.Formed, Dev.setLoad]

theorem Dev.askChunks_formed {d : Dev} (h : d.Formed) (l : BootLoad) (n : Nat) : (d.askChunks l n).Formed := by
  induction n generalizing d l with
  | zero => exact Dev.setLoad_formed h _
  | succ n ih => grind [Dev.askChunks, Dev.setLoad_formed, Dev.askPiece_formed]

theorem Dev.enterCore_formed {d : Dev} (h : d.Formed) (c : CoreId) : (d.enterCore c).Formed := by
  grind [Dev.Formed, Dev.enterCore]

theorem Dev.startCores_formed {d : Dev} (hd : d.Formed) (h : List Byte) : (d.startCores h).Formed := by
  grind [Dev.Formed, Dev.startCores, Dev.apiaryTx_formed, Dev.enterCore_formed, foldl_formed]

theorem Dev.pieceDone_formed {d : Dev} (h : d.Formed) (l : BootLoad) (region : Nat) (i : Nat) (bs : List Byte) :
    (d.pieceDone l region i bs).Formed := by
  grind [Dev.Formed, Dev.pieceDone, Dev.abandonLoad_formed, Dev.askPiece_formed, Dev.setLoad_formed,
      Dev.askChunks_formed, Dev.startCores_formed, foldl_formed]

theorem Dev.chunkData_formed {d : Dev} (h : d.Formed) (region : Nat) (piece : Nat) (frag : Nat) (bs : List Byte) :
    (d.chunkData region piece frag bs).Formed := by
  unfold Dev.chunkData
  split
  · exact h
  · extract_lets stage n want known
    split
    · exact h
    · split
      · exact Dev.pieceDone_formed h _ _ _ _
      · exact Dev.setLoad_formed h _

theorem Dev.recordService_formed {d : Dev} (h : d.Formed) : (d.recordService).Formed := by
  grind [Dev.recordService, Dev.ledger_formed, foldl_formed]

theorem Dev.selfTested_formed {d : Dev} (h : d.Formed) (rs : List (FrameId × SelfTest)) : (d.selfTested rs).Formed := by
  unfold Dev.selfTested
  exact (Dev.recordService_formed (h.withFrames _ _)).withFrames _ _

end Sys2Proof.Machine
end

/-! ### Formed memory is kept: the patrol scrubber -/

section
open Sys2Proof Sys2Proof.Machine

set_option Elab.async false

namespace Sys2Proof.Machine

theorem Dev.patrolStart_formed {d : Dev} (h : d.Formed) (pa : Nat) : (d.patrolStart pa).Formed := by
  grind [Dev.patrolStart, Dev.updFrame_formed]

theorem Dev.scrub_formed {d : Dev} (h : d.Formed) (line : Nat) (o : ScrubObs) : (d.scrub line o).Formed := by
  grind [Dev.Formed, Dev.scrub, Dev.lineRead_formed, Dev.patrolStart_formed]

theorem Dev.writeBack_formed {d : Dev} (h : d.Formed) (i : Nat) : (d.writeBack i).Formed := by
  grind [Dev.Formed, Dev.writeBack, memForm_storeBytes]

theorem Dev.spareDone_formed {d : Dev} (h : d.Formed) (i : Nat) : (d.spareDone i).Formed := by
  grind [Dev.Formed, Dev.spareDone, Dev.ledger_formed]

end Sys2Proof.Machine
end

/-! ### Formed memory is kept: the tree and the servo of Waggle time -/

section
open Sys2Proof Sys2Proof.Machine

set_option Elab.async false

namespace Sys2Proof.Machine

theorem Dev.setRoot_formed {d : Dev} (h : d.Formed) (root : BitVec 15) (named : Bool) :
    (d.setRoot root named).Formed := by
  grind [Dev.Formed, Dev.setRoot, Dev.reform_formed]

theorem Dev.waggleRequest_formed {d : Dev} (h : d.Formed) (to_ : BitVec 15) (n : BitVec 32) :
    (d.waggleRequest to_ n).Formed := by
  grind [Dev.waggleRequest, Dev.sendFlit_formed]

theorem Dev.exchangeTimer_formed {d : Dev} (h : d.Formed) : (d.exchangeTimer).Formed := by
  grind [Dev.Formed, Dev.exchangeTimer, Dev.waggleRequest_formed]

theorem Dev.takeWag_formed {d : Dev} (h : d.Formed) (p : Port) (src : BitVec 15) : (d.takeWag p src).Formed := by
  grind [Dev.takeWag, Dev.setPort_formed]

theorem Dev.waggleAnswer_formed {d : Dev} (h : d.Formed) (src : BitVec 15) (m : WagMsg) (t2 : Nat) :
    (d.waggleAnswer src m t2).Formed := by
  grind [Dev.waggleAnswer, Dev.sendFlit_formed]

theorem Dev.servo_formed {d : Dev} (h : d.Formed) (t1 : Nat) (t2 : Nat) (t3 : Nat) (t4 : Nat) :
    (d.servo t1 t2 t3 t4).Formed := by
  grind [Dev.Formed, Dev.servo, Dev.setServo_formed]

theorem Dev.waggleResponse_formed {d : Dev} (h : d.Formed) (src : BitVec 15) (m : WagMsg) (t4 : Nat) :
    (d.waggleResponse src m t4).Formed := by
  grind [Dev.Formed, Dev.waggleResponse, Dev.ledger_formed, Dev.servo_formed, Dev.setParent_formed]

theorem Dev.loseParent_formed {d : Dev} (h : d.Formed) : (d.loseParent).Formed := by
  have hheld : (if d.parentSilent = false then d
      else if d.wag.state == .acquiring || d.wag.state == .locked then
        ({ d with wag := { d.wag with rate := d.wag.fi } } : Dev).setServo .holdover else d).Formed := by
    refine Dev.formed_ite h (Dev.formed_ite (Dev.setServo_formed ?_ _) h)
    exact ⟨h.mem, h.ctxs⟩
  simp only [Dev.loseParent]
  split
  · exact h
  · split
    · exact Dev.setParent_formed hheld _
    · exact hheld

end Sys2Proof.Machine
end

/-! ### Formed memory is kept: bells and class B accesses of other devices -/

section
open Sys2Proof Sys2Proof.Machine

set_option Elab.async false

namespace Sys2Proof.Machine

theorem Dev.sendAck_formed {d : Dev} (h : d.Formed) (job : BitVec 16) (dst : BitVec 15) (tag : BitVec 32) (n : Nat) :
    (d.sendAck job dst tag n).Formed := by
  grind [Dev.sendAck, Dev.forward_formed]

theorem Dev.refuse_formed {d : Dev} (h : d.Formed) (cls : BitVec 2) (job : BitVec 16) (dst : BitVec 15)
    (tag : BitVec 32) :
    (d.refuse cls job dst tag).Formed := by
  grind [Dev.refuse, Dev.sendError_formed]

theorem Dev.bellFlit_formed {d : Dev} (h : d.Formed) (m : BellMsg) : (d.bellFlit m).Formed := by
  grind [Dev.Formed, Dev.bellFlit, Dev.consume_formed, Dev.bellHere_formed, Dev.sendAck_formed, Dev.refuse_formed,
      Dev.ledger_formed]

theorem Dev.refuseAccess_formed {d : Dev} (h : d.Formed) (addr : Word) (job : BitVec 16) (src : BitVec 15)
    (tag : BitVec 32) :
    (d.refuseAccess addr job src tag).Formed := by
  grind [Dev.Formed, Dev.refuseAccess, Dev.refuse_formed, Dev.ledger_formed]

theorem Dev.remoteRead_formed {d : Dev} (h : d.Formed) (m : BReadMsg) : (d.remoteRead m).Formed := by
  grind [Dev.remoteRead, Dev.consume_formed, Dev.refuseAccess_formed, Dev.forward_formed, foldl_formed]

theorem Dev.remoteWrite_formed {d : Dev} (h : d.Formed) (m : BWriteMsg) : (d.remoteWrite m).Formed := by
  grind [Dev.remoteWrite, Dev.consume_formed, Dev.refuseAccess_formed, Dev.sendAck_formed, Dev.write_formed,
      Dev.demandRead_formed]

theorem Dev.dataArrived_formed {d : Dev} (h : d.Formed) (m : BDataMsg) : (d.dataArrived m).Formed := by
  grind [Dev.Formed, Dev.dataArrived, Dev.consumeTag_formed, Dev.loadArrived_formed, Dev.dropReq_formed,
      Dev.moveRead_formed]

theorem Dev.ackArrived_formed {d : Dev} (h : d.Formed) (tag : BitVec 32) (n : Nat) : (d.ackArrived tag n).Formed := by
  grind [Dev.ackArrived, Dev.consumeTag_formed, Dev.storeAcked_formed, Dev.dropReq_formed, Dev.pumpTally_formed,
      Dev.moveWritten_formed, Dev.complete_formed]

end Sys2Proof.Machine
end

/-! ### Formed memory is kept: commands that reset the device or change its pins and rails -/

section
open Sys2Proof Sys2Proof.Machine

set_option Elab.async false

namespace Sys2Proof.Machine

theorem Dev.coldNow_formed {d : Dev} (h : d.Formed) (cause : Nat) (rail : Nat) (tj : Nat) :
    (d.coldNow cause rail tj).Formed := by
  grind [Dev.coldNow, Dev.levelFive_formed]

end Sys2Proof.Machine
end

/-! ### Formed memory is kept: the host's accesses -/

section
open Sys2Proof Sys2Proof.Machine

set_option Elab.async false

namespace Sys2Proof.Machine

theorem Dev.answerMailbox_formed {d : Dev} (h : d.Formed) (seq : BitVec 16) (status : Nat) (reason : Nat)
    (detail : Nat) :
    (d.answerMailbox seq status reason detail).Formed := by
  grind [Dev.Formed, Dev.answerMailbox, Dev.irq_formed]

theorem Dev.attachDriver_formed {d : Dev} (h : d.Formed) (b : List Byte) : (d.attachDriver b).Formed := by
  grind [Dev.Formed, Dev.attachDriver, Dev.setQueue_formed, Dev.setCring_formed, rising_map]

theorem Dev.serveMailbox_formed {d : Dev} (h : d.Formed) : (d.serveMailbox).Formed := by
  grind [Dev.Formed, Dev.serveMailbox, Dev.answerMailbox_formed, Dev.attachDriver_formed]

theorem Dev.holdMailbox_formed {d : Dev} (h : d.Formed) (op : Byte) (seq : BitVec 16) :
    (d.holdMailbox op seq).Formed := by
  grind [Dev.Formed, Dev.holdMailbox]

theorem Dev.mailbox_formed {d : Dev} (h : d.Formed) (op : Byte) (seq : BitVec 16) : (d.mailbox op seq).Formed := by
  grind [Dev.mailbox, Dev.serveMailbox_formed, Dev.holdMailbox_formed]

theorem Dev.heartbeat_formed {d : Dev} (h : d.Formed) (v : Word) : (d.heartbeat v).Formed := by
  grind [Dev.Formed, Dev.heartbeat]

theorem Dev.driverLost_formed {d : Dev} (h : d.Formed) : (d.driverLost).Formed := by
  grind [Dev.Formed, Dev.driverLost, Dev.destroyCtx_formed, foldl_formed, rising_map]

theorem Dev.sampleHeartbeat_formed {d : Dev} (h : d.Formed) : (d.sampleHeartbeat).Formed := by
  grind [Dev.Formed, Dev.sampleHeartbeat, Dev.driverLost_formed]

theorem Dev.orphanLimit_formed {d : Dev} (h : d.Formed) (c : BitVec 12) : (d.orphanLimit c).Formed := by
  grind [Dev.orphanLimit, Dev.updCtx_formed]

theorem Dev.invalidate_formed {d : Dev} (h : d.Formed) (t : Tlbi) : (d.invalidate t).Formed := by
  grind [Dev.invalidate, Dev.tlbi_formed]

theorem Dev.setDram_formed {d : Dev} (h : d.Formed) (key : Nat) (c : UChan) : (d.setDram key c).Formed := by
  grind [Dev.Formed, Dev.setDram]

theorem Dev.startScan_formed {d : Dev} (h : d.Formed) (v : Word) : (d.startScan v).Formed := by
  grind [Dev.startScan, Dev.setDram_formed]

theorem Dev.finishScan_formed {d : Dev} (h : d.Formed) (die : Nat) (ch : Nat) : (d.finishScan die ch).Formed := by
  grind [Dev.finishScan, Dev.setDram_formed]

theorem Dev.answerHost_formed {d : Dev} (h : d.Formed) (bs : List Byte) (p : Bool) : (d.answerHost bs p).Formed := by
  grind [Dev.Formed, Dev.answerHost, Dev.emit_formed]

theorem Dev.aerLog_formed {d : Dev} (h : d.Formed) : (d.aerLog).Formed := by
  grind [Dev.Formed, Dev.aerLog]

theorem Dev.abortHost_formed {d : Dev} (h : d.Formed) : (d.abortHost).Formed := by
  grind [Dev.abortHost, Dev.emit_formed, Dev.aerLog_formed]

theorem Dev.writeMsix_formed {d : Dev} (h : d.Formed) (i : Nat) (bs : List Byte) : (d.writeMsix i bs).Formed := by
  grind [Dev.Formed, Dev.writeMsix, Dev.emit_formed]

theorem Dev.writeHif_formed {d : Dev} (h : d.Formed) (o : Nat) (v : Word) : (d.writeHif o v).Formed := by
  unfold Dev.writeHif
  split <;> grind [Dev.Formed, Dev.heartbeat_formed, Dev.holdMailbox_formed]

theorem Dev.writeFrmCtrl_formed {d : Dev} (h : d.Formed) (f : FrameId) (v : Word) : (d.writeFrmCtrl f v).Formed := by
  grind [Dev.writeFrmCtrl, Dev.setPreempt_formed, Dev.updFrame_formed]

theorem Dev.writeFrame_formed {d : Dev} (h : d.Formed) (f : FrameId) (o : Nat) (v : Word) :
    (d.writeFrame f o v).Formed := by
  unfold Dev.writeFrame
  split <;> grind [Dev.Formed, Dev.updFrame_formed]

theorem Dev.writeTlbi_formed {d : Dev} (h : d.Formed) (v : Word) : (d.writeTlbi v).Formed := by
  grind [Dev.writeTlbi, Dev.invalidate_formed]

theorem Dev.writeMem_formed {d : Dev} (h : d.Formed) (o : Nat) (v : Word) : (d.writeMem o v).Formed := by
  unfold Dev.writeMem
  split <;> grind [Dev.Formed, Dev.writeTlbi_formed]

theorem Dev.writeMkt_formed {d : Dev} (h : d.Formed) (o : Nat) (v : Word) : (d.writeMkt o v).Formed := by
  unfold Dev.writeMkt
  split <;> grind [Dev.Formed]

theorem Dev.writeXch_formed {d : Dev} (h : d.Formed) (o : Nat) (v : Word) : (d.writeXch o v).Formed := by
  unfold Dev.writeXch
  split <;> grind [Dev.Formed]

theorem Dev.writeLnk_formed {d : Dev} (h : d.Formed) (o : Nat) (v : Word) : (d.writeLnk o v).Formed := by
  unfold Dev.writeLnk
  split <;> grind [Dev.Formed]

theorem Dev.writeTly_formed {d : Dev} (h : d.Formed) (o : Nat) (v : Word) : (d.writeTly o v).Formed := by
  unfold Dev.writeTly
  split <;> grind [Dev.Formed, Dev.setDram_formed, Dev.startScan_formed]

theorem Dev.writeGrd_formed {d : Dev} (h : d.Formed) (o : Nat) (v : Word) : (d.writeGrd o v).Formed := by
  unfold Dev.writeGrd
  split <;> grind [Dev.Formed, Dev.setSusp_formed]

theorem Dev.writeSec_formed {d : Dev} (h : d.Formed) (o : Nat) (v : Word) : (d.writeSec o v).Formed := by
  grind [Dev.Formed, Dev.writeSec]

theorem Dev.writeDbg_formed {d : Dev} (h : d.Formed) (o : Nat) (v : Word) : (d.writeDbg o v).Formed := by
  unfold Dev.writeDbg
  split <;> grind [Dev.Formed, Dev.warmByRegister_formed, Dev.resume_formed, Dev.levelFive_formed]

theorem Dev.writeReg_formed {d : Dev} (h : d.Formed) (a : Nat) (v : Word) : (d.writeReg a v).Formed := by
  unfold Dev.writeReg
  split
  · grind [Dev.Formed, Dev.writeHif_formed, Dev.writeFrame_formed, Dev.writeMem_formed, Dev.writeMkt_formed,
      Dev.writeXch_formed, Dev.writeLnk_formed, Dev.writeTly_formed, Dev.writeGrd_formed, Dev.writeSec_formed,
      Dev.writeDbg_formed]
  · split <;> grind [Dev.Formed, Dev.writeHif_formed, Dev.writeFrame_formed, Dev.writeMem_formed, Dev.writeMkt_formed,
      Dev.writeXch_formed, Dev.writeLnk_formed, Dev.writeTly_formed, Dev.writeGrd_formed, Dev.writeSec_formed,
      Dev.writeDbg_formed]

theorem Dev.moveRegion_formed {d : Dev} (h : d.Formed) (n : Nat) (r : Region) : (d.moveRegion n r).Formed := by
  have hlost : (d.mem.clearRange (n * 2 ^ 30) ((n + 1) * 2 ^ 30)).lost = d.mem.lost := by
    unfold Memory.clearRange Memory.staleBacks
    split <;> rfl
  have hmem := Memory.moveRegion_wf (m := d.mem) n d.fresh r h.mem
  unfold Dev.moveRegion
  split
  · exact h
  · refine ⟨?_, h.ctxs⟩
    simp only [hlost]
    exact hmem

theorem Dev.coreWrite_formed {d : Dev} (h : d.Formed) (a : Nat) (v : Word) : (d.coreWrite a v).Formed := by
  unfold Dev.coreWrite
  extract_lets o i w w' ch
  split
  · exact Dev.moveRegion_formed h _ _
  · split
    · exact h.withMem h.mem
    · split
      · exact Dev.serveChannel_formed (Dev.setCredit_formed h _ _) _
      · exact h

theorem Dev.registerWrite_formed {d : Dev} (h : d.Formed) (core : Bool) (a : Nat) (n : Nat) (v : Word) :
    (d.registerWrite core a n v).Formed := by
  grind [Dev.Formed, Dev.registerWrite, Dev.writeFrmCtrl_formed, Dev.coreWrite_formed, Dev.aerLog_formed,
      Dev.writeMsix_formed, Dev.writeReg_formed]

theorem Dev.clearRead_formed {d : Dev} (h : d.Formed) (a : Nat) (lo : Nat) (hi : Nat) :
    (d.clearRead a lo hi).Formed := by
  unfold Dev.clearRead
  extract_lets c o p
  split
  · exact Dev.updMErr_formed h _ _ _
  · split
    · exact Dev.updMErr_formed h _ _ _
    · split
      · split
        · exact Dev.updPort_formed h _ _
        · exact Dev.updPort_formed h _ _
        · exact h
      · split <;> first | exact h.congr rfl rfl | (split <;> first | exact h.congr rfl rfl | exact ⟨h.mem, h.ctxs⟩)

theorem Dev.readClear_formed {d : Dev} (h : d.Formed) (a : Nat) (n : Nat) : (d.readClear a n).Formed := by
  grind [Dev.readClear, Dev.abortHost_formed, Dev.answerHost_formed, Dev.clearRead_formed]

theorem Dev.bar2_formed {d : Dev} (h : d.Formed) (op : Bar2Op) : (d.bar2 op).Formed := by
  grind [Dev.Formed, Dev.bar2, Dev.readClear_formed, Dev.abortHost_formed, Dev.demandRead_formed, Dev.ledger_formed,
      Dev.answerHost_formed, Dev.registerWrite_formed, Dev.aerLog_formed, Dev.write_formed]

theorem Dev.abortAccess_formed {d : Dev} (h : d.Formed) (off : Nat) (n : Nat) (write : Bool) :
    (d.abortAccess off n write).Formed := by
  grind [Dev.abortAccess, Dev.aerLog_formed, Dev.abortHost_formed]

end Sys2Proof.Machine
end

/-! ### Formed memory is kept: what the commands of the Apiary port do once they are accepted -/

section
open Sys2Proof Sys2Proof.Machine

set_option Elab.async false

namespace Sys2Proof.Machine

theorem Dev.ran_formed {d : Dev} (h : d.Formed) : (d.ran).1.Formed := by
  grind [Dev.ran]

theorem Dev.badBody_formed {d : Dev} (h : d.Formed) : (d.badBody).1.Formed := by
  grind [Dev.badBody, Dev.draw_formed]

theorem Dev.refused_formed {d : Dev} (h : d.Formed) (reason : Option Nat) : (d.refused reason).1.Formed := by
  unfold Dev.refused
  split <;> grind [Dev.Formed, Dev.draw_formed]

theorem Dev.runKey_formed {d : Dev} (h : d.Formed) (key : List Byte) : (d.runKey key).1.Formed := by
  grind [Dev.Formed, Dev.runKey, Dev.ran_formed, Dev.refused_formed]

theorem Dev.recheckPort_formed {d : Dev} (h : d.Formed) (p : Port) : (d.recheckPort p).Formed := by
  grind [Dev.recheckPort, Dev.setRtb_formed, Dev.ledger_formed, Dev.quarantine_formed, Dev.comparePeer_formed,
      Dev.detour_formed]

theorem Dev.stopTraining_formed {d : Dev} (h : d.Formed) (p : Port) : (d.stopTraining p).Formed := by
  grind [Dev.stopTraining, Dev.portDown_formed, Dev.setPort_formed]

theorem Dev.runPlan_formed {d : Dev} (h : d.Formed) (dev : BitVec 16) (gen : BitVec 32) (es : List PlanEntry) :
    (d.runPlan dev gen es).1.Formed := by
  grind [Dev.Formed, Dev.runPlan, Dev.badBody_formed, Dev.ledger_formed, Dev.stopTraining_formed,
      Dev.recheckPort_formed, Dev.setRtb_formed, Dev.ran_formed, Dev.fillPlaces_formed, Dev.reform_formed,
      Dev.setRoot_formed, foldl_formed]

theorem Dev.runHints_formed {d : Dev} (h : d.Formed) (mask : BitVec 32) (hs : List EqHint) :
    (d.runHints mask hs).1.Formed := by
  grind [Dev.Formed, Dev.runHints, Dev.badBody_formed, Dev.ran_formed]

theorem Dev.runLeave_formed {d : Dev} (h : d.Formed) (p : Port) : (d.runLeave p).1.Formed := by
  grind [Dev.runLeave, Dev.ran_formed, Dev.startDetect_formed, Dev.refused_formed]

theorem Dev.runQuarantine_formed {d : Dev} (h : d.Formed) (p : Port) : (d.runQuarantine p).1.Formed := by
  grind [Dev.runQuarantine, Dev.sendControl_formed, Dev.ran_formed, Dev.ledger_formed, Dev.fillPlaces_formed,
      Dev.quarantine_formed]

theorem Dev.runRetrain_formed {d : Dev} (h : d.Formed) (p : Port) : (d.runRetrain p).1.Formed := by
  grind [Dev.runRetrain, Dev.ran_formed, Dev.fillPlaces_formed, Dev.retrainPort_formed, Dev.sendControl_formed,
      Dev.refused_formed, Dev.startDetect_formed]

theorem Dev.readyIfDone_formed {d : Dev} (h : d.Formed) : (d.readyIfDone).Formed := by
  grind [Dev.Formed, Dev.readyIfDone, Dev.serveMailbox_formed]

theorem Dev.runRepairs_formed {d : Dev} (h : d.Formed) (more : Bool) (es : List RepairEntry) :
    (d.runRepairs more es).1.Formed := by
  grind [Dev.Formed, Dev.runRepairs, Dev.refused_formed, Dev.badBody_formed, Dev.ran_formed, Dev.readyIfDone_formed,
      Dev.applyRepairs_formed]

theorem Dev.runSuspicion_formed {d : Dev} (h : d.Formed) (ls : List (BitVec 2)) : (d.runSuspicion ls).1.Formed := by
  grind [Dev.Formed, Dev.runSuspicion, Dev.badBody_formed, Dev.ran_formed, Dev.setSusp_formed, foldl_formed]

theorem Dev.runExclude_formed {d : Dev} (h : d.Formed) (mask : BitVec 384) : (d.runExclude mask).1.Formed := by
  grind [Dev.runExclude, Dev.updFrame_formed, Dev.ran_formed, Dev.leaveService_formed, foldl_formed]

theorem Dev.runPower_formed {d : Dev} (h : d.Formed) (watts : Nat) (celsius : Nat) :
    (d.runPower watts celsius).1.Formed := by
  grind [Dev.Formed, Dev.runPower, Dev.badBody_formed, Dev.ran_formed]

theorem Dev.bindBarrier_formed {d : Dev} (h : d.Formed) (r : JobReq) : (d.bindBarrier r).Formed := by
  grind [Dev.bindBarrier, Dev.setGroup_formed]

theorem Dev.runAdmit_formed {d : Dev} (h : d.Formed) (r0 : JobReq) : (d.runAdmit r0).1.Formed := by
  grind [Dev.runAdmit, Dev.badBody_formed, Dev.refused_formed, Dev.write_formed, Dev.bindBarrier_formed,
      Dev.storeStepSem_formed, Dev.setJob_formed, Dev.ran_formed, Dev.sendPeers_formed]

theorem Dev.runKill_formed {d : Dev} (h : d.Formed) (job : BitVec 16) : (d.runKill job).1.Formed := by
  grind [Dev.runKill, Dev.refused_formed, Dev.ran_formed, Dev.updJob_formed, Dev.progressAll_formed,
      Dev.jobFault_formed]

theorem Dev.runBarrier_formed {d : Dev} (h : d.Formed) (r : BarReq) : (d.runBarrier r).1.Formed := by
  grind [Dev.runBarrier, Dev.badBody_formed, Dev.refused_formed, Dev.ran_formed, Dev.setGroup_formed,
      Dev.write_formed]

theorem Dev.runLedgerAck_formed {d : Dev} (h : d.Formed) (seq : BitVec 32) : (d.runLedgerAck seq).1.Formed := by
  grind [Dev.Formed, Dev.runLedgerAck, Dev.ran_formed]

theorem Dev.ledgerExport_formed {d : Dev} (h : d.Formed) : (d.ledgerExport).Formed := by
  grind [Dev.ledgerExport, Dev.report_formed]

theorem Dev.runLog_formed {d : Dev} (h : d.Formed) (first : BitVec 32) (n : Nat) : (d.runLog first n).1.Formed := by
  grind [Dev.runLog, Dev.badBody_formed, Dev.ran_formed, Dev.apiaryTx_formed]

theorem Dev.runAttest_formed {d : Dev} (h : d.Formed) (nonce : List Byte) : (d.runAttest nonce).1.Formed := by
  grind [Dev.runAttest, Dev.badBody_formed, Dev.refused_formed, Dev.ran_formed, Dev.report_formed]

end Sys2Proof.Machine
end

/-! ### Formed memory is kept: acceptance of Apiary commands -/

section
open Sys2Proof Sys2Proof.Machine

set_option Elab.async false

namespace Sys2Proof.Machine

theorem Dev.runCmd_formed {d : Dev} (h : d.Formed) (x : ApiaryCmd) : (d.runCmd x).1.Formed := by
  unfold Dev.runCmd
  split <;> grind [Dev.Formed, Dev.runKey_formed, Dev.runLeave_formed, Dev.runQuarantine_formed,
      Dev.runRetrain_formed, Dev.runPlan_formed, Dev.runHints_formed, Dev.runRepairs_formed, Dev.runSuspicion_formed,
      Dev.ran_formed, Dev.setRoot_formed, Dev.runExclude_formed, Dev.runPower_formed, Dev.runAdmit_formed,
      Dev.runBarrier_formed, Dev.runKill_formed, Dev.runLedgerAck_formed, Dev.runLog_formed, Dev.runAttest_formed]

theorem Dev.runAndAnswer_formed {d : Dev} (h : d.Formed) (seq : Word) (i : ApiaryCmd) :
    (d.runAndAnswer seq i).Formed := by
  grind [Dev.Formed, Dev.runAndAnswer, Dev.runCmd_formed, Dev.apiaryTx_formed]

theorem Dev.dropCmd_formed {d : Dev} (h : d.Formed) : (d.dropCmd).Formed := by
  grind [Dev.Formed, Dev.dropCmd]

theorem Dev.accept_formed {d : Dev} (h : d.Formed) (seq : Word) (i : ApiaryCmd) (next : Firmware) :
    (d.accept seq i next).Formed := by
  grind [Dev.Formed, Dev.accept, Dev.runAndAnswer_formed, Dev.apiaryTx_formed]

theorem Dev.sayAgain_formed {d : Dev} (h : d.Formed) : (d.sayAgain).Formed := by
  grind [Dev.sayAgain, Dev.apiaryTx_formed]

theorem Dev.command_formed {d : Dev} (h : d.Formed) (au : Auth) (i : ApiaryCmd) : (d.command au i).Formed := by
  grind [Dev.command, Dev.dropCmd_formed, Dev.sayAgain_formed, Dev.accept_formed]

theorem Dev.offerKey_formed {d : Dev} (h : d.Formed) (au : Auth) (key : List Byte) : (d.offerKey au key).Formed := by
  grind [Dev.offerKey, Dev.dropCmd_formed, Dev.sayAgain_formed, Dev.accept_formed]

theorem Dev.sayHello_formed {d : Dev} (h : d.Formed) : (d.sayHello).Formed := by
  grind [Dev.sayHello, Dev.apiaryTx_formed]

theorem Dev.noRepairs_formed {d : Dev} (h : d.Formed) : (d.noRepairs).Formed := by
  grind [Dev.Formed, Dev.noRepairs, Dev.readyIfDone_formed, Dev.logEntry_formed, Dev.applyRepairs_formed]

theorem Dev.bootDone_formed {d : Dev} (h : d.Formed) (rs : List (FrameId × SelfTest)) : (d.bootDone rs).Formed := by
  grind [Dev.bootDone, Dev.readyIfDone_formed, Dev.selfTested_formed]

theorem Dev.coreBack_formed {d : Dev} (h : d.Formed) (c : CoreId) : (d.coreBack c).Formed := by
  grind [Dev.Formed, Dev.coreBack, Dev.enterCore_formed, Dev.withCaps_formed, Dev.serveMailbox_formed,
      Dev.runAndAnswer_formed, Dev.assignWaiting_formed, foldl_formed]

theorem Dev.resendReports_formed {d : Dev} (h : d.Formed) : (d.resendReports).Formed := by
  grind [Dev.resendReports, Dev.emit_formed, foldl_formed]

theorem Dev.echoed_formed {d : Dev} (h : d.Formed) (seq : Word) : (d.echoed seq).Formed := by
  grind [Dev.Formed, Dev.echoed]

theorem Dev.ptpSync_formed {d : Dev} (h : d.Formed) (offset : Int) (t : Nat) : (d.ptpSync offset t).Formed := by
  grind [Dev.Formed, Dev.ptpSync]

theorem Dev.ptpAnnounce_formed {d : Dev} (h : d.Formed) (off : Int) (u : UtcFlags) : (d.ptpAnnounce off u).Formed := by
  grind [Dev.Formed, Dev.ptpAnnounce]

theorem Dev.ptpLost_formed {d : Dev} (h : d.Formed) : (d.ptpLost).Formed := by
  grind [Dev.Formed, Dev.ptpLost]

end Sys2Proof.Machine
end

/-! ### Formed memory is kept: commands of Waggle time -/

section
open Sys2Proof Sys2Proof.Machine

set_option Elab.async false

namespace Sys2Proof.Machine

theorem Dev.releaseBell_formed {d : Dev} (h : d.Formed) (i : Nat) : (d.releaseBell i).Formed := by
  grind [Dev.Formed, Dev.releaseBell, Dev.ringTaskBell_formed]

theorem Dev.releaseStart_formed {d : Dev} (h : d.Formed) (f : FrameId) : (d.releaseStart f).Formed := by
  grind [Dev.Formed, Dev.releaseStart, Dev.pumpMma_formed, Dev.setFrame_formed]

theorem Dev.slotStart_formed {d : Dev} (h : d.Formed) : (d.slotStart).Formed := by
  grind [Dev.Formed, Dev.slotStart, Dev.releaseStart_formed, foldl_formed]

theorem Dev.barrierMsg_formed {d : Dev} (h : d.Formed) (m : BarMsg) : (d.barrierMsg m).Formed := by
  grind [Dev.barrierMsg, Dev.consume_formed, Dev.ledger_formed, Dev.stirGroup_formed, Dev.setGroup_formed]

theorem Dev.resendBarrier_formed {d : Dev} (h : d.Formed) (gi : Nat) : (d.resendBarrier gi).Formed := by
  grind [Dev.resendBarrier, Dev.setGroup_formed, Dev.sendBar_formed, Dev.stirGroup_formed, Dev.nextArrival_formed,
      Dev.commitGroup_formed, foldl_formed]

end Sys2Proof.Machine
end

/-! ### Formed memory is kept: the passing of time -/

section
open Sys2Proof Sys2Proof.Machine

set_option Elab.async false

namespace Sys2Proof.Machine

theorem Dev.countIdle_formed {d : Dev} (h : d.Formed) (n : Nat) : (d.countIdle n).Formed := by
  grind [Dev.Formed, Dev.countIdle]

theorem Dev.tick_formed {d : Dev} (h : d.Formed) : (d.tick).Formed := by
  grind [Dev.Formed, Dev.tick, Dev.countIdle_formed]

end Sys2Proof.Machine
end

/-! ### Every command, and every step, keeps the form -/

section
open Sys2Proof Sys2Proof.Machine

namespace Sys2Proof.Machine

/-- The device after an instruction came to issue, with what the matrix unit's and the tally unit's queues then
start. -/
def Dev.issued (d : Dev) (f : FrameId) (op : Op) (x : Insn) (imm : Word) : Dev :=
  match op with
  | .mmaF | .mmaH2 | .mmaQ4 => (d.issue f op x 0 (opBody op)).pumpMma f 8
  | .tyinit | .tydata | .tyrd | .tywr => (d.issue f op x 0 (opBody op)).pumpTally f 16
  | .li64 | .ai64 => d.issue f op x imm (opBody op)
  | _ => d.issue f op x 0 (opBody op)

/-- The command of a frame instruction is its coming to issue. -/
theorem exec_insnCommand (f : FrameId) (op : Op) (x : Insn) (imm : Word) (s : State) :
    exec (insnCommand f op x imm) s = s.stepDev (s.toDev.issued f op x imm) := by
  cases op <;> rfl

theorem Dev.issued_formed {d : Dev} (h : d.Formed) (f : FrameId) (op : Op) (x : Insn) (imm : Word) :
    (d.issued f op x imm).Formed := by
  have hop (imm : Word) : (d.issue f op x imm (opBody op)).Formed :=
    Dev.issue_formed h f op x imm _ (opBody_formed h op f x imm)
  unfold Dev.issued
  split
  case h_1 | h_2 | h_3 => exact Dev.pumpMma_formed (hop 0) f 8
  case h_4 | h_5 | h_6 | h_7 => exact Dev.pumpTally_formed (hop 0) f 16
  case h_8 | h_9 => exact hop imm
  next => exact hop 0

theorem insnCommand_formed {s : State} (h : s.toDev.Formed) (f : FrameId) (op : Op) (x : Insn) (imm : Word) :
    ∃ d : Dev, d.Formed ∧ exec (insnCommand f op x imm) s = s.stepDev d :=
  ⟨_, Dev.issued_formed h f op x imm, exec_insnCommand f op x imm s⟩

theorem Dev.decArrives_head_formed {d : Dev} (h : d.Formed) :
    (match d.mkt.decs with
      | [] => d
      | x :: xs => ({ d with mkt := { d.mkt with decs := xs } } : Dev).decArrives x).Formed := by
  split
  · exact h
  · exact Dev.decArrives_formed h.withMkt _ _

theorem Dev.applySem_head_formed {d : Dev} (h : d.Formed) :
    (match d.mkt.semQ with
      | [] => d
      | u :: us => ({ d with mkt := { d.mkt with semQ := us } } : Dev).applySem u).Formed := by
  split
  · exact h
  · exact Dev.applySem_formed h.withMkt _

/-- The state of the pins is no part of what is formed. -/
theorem Dev.Formed.withDbg {d : Dev} (h : d.Formed) (x : Pins) : ({ d with dbg := x } : Dev).Formed := ⟨h.mem, h.ctxs⟩

/-- Every command comes down to one device, which is formed when the device before it was. -/
theorem exec_formed {s : State} (h : s.toDev.Formed) (c : Instr) : ∃ d : Dev, d.Formed ∧ exec c s = s.stepDev d := by
  cases c
  case nop f x => exact insnCommand_formed h f .nop x 0
  case add f x => exact insnCommand_formed h f .add x 0
  case sub f x => exact insnCommand_formed h f .sub x 0
  case mul f x => exact insnCommand_formed h f .mul x 0
  case andS f x => exact insnCommand_formed h f .andS x 0
  case orS f x => exact insnCommand_formed h f .orS x 0
  case xorS f x => exact insnCommand_formed h f .xorS x 0
  case shl f x => exact insnCommand_formed h f .shl x 0
  case shr f x => exact insnCommand_formed h f .shr x 0
  case sra f x => exact insnCommand_formed h f .sra x 0
  case addi f x => exact insnCommand_formed h f .addi x 0
  case andi f x => exact insnCommand_formed h f .andi x 0
  case shli f x => exact insnCommand_formed h f .shli x 0
  case shri f x => exact insnCommand_formed h f .shri x 0
  case cmp f x => exact insnCommand_formed h f .cmp x 0
  case cmpi f x => exact insnCommand_formed h f .cmpi x 0
  case amov f x => exact insnCommand_formed h f .amov x 0
  case aadd f x => exact insnCommand_formed h f .aadd x 0
  case smova f x => exact insnCommand_formed h f .smova x 0
  case kand f x => exact insnCommand_formed h f .kand x 0
  case kor f x => exact insnCommand_formed h f .kor x 0
  case knot f x => exact insnCommand_formed h f .knot x 0
  case b f x => exact insnCommand_formed h f .b x 0
  case bz f x => exact insnCommand_formed h f .bz x 0
  case bnz f x => exact insnCommand_formed h f .bnz x 0
  case bk f x => exact insnCommand_formed h f .bk x 0
  case br f x => exact insnCommand_formed h f .br x 0
  case li64 f x imm => exact insnCommand_formed h f .li64 x imm
  case ai64 f x imm => exact insnCommand_formed h f .ai64 x imm
  case mmaF f x => exact insnCommand_formed h f .mmaF x 0
  case mmaH2 f x => exact insnCommand_formed h f .mmaH2 x 0
  case mmaQ4 f x => exact insnCommand_formed h f .mmaQ4 x 0
  case vadd f x => exact insnCommand_formed h f .vadd x 0
  case vsub f x => exact insnCommand_formed h f .vsub x 0
  case vmul f x => exact insnCommand_formed h f .vmul x 0
  case vfma f x => exact insnCommand_formed h f .vfma x 0
  case vmax f x => exact insnCommand_formed h f .vmax x 0
  case vmin f x => exact insnCommand_formed h f .vmin x 0
  case vabs f x => exact insnCommand_formed h f .vabs x 0
  case vneg f x => exact insnCommand_formed h f .vneg x 0
  case vcmp f x => exact insnCommand_formed h f .vcmp x 0
  case vsel f x => exact insnCommand_formed h f .vsel x 0
  case vand f x => exact insnCommand_formed h f .vand x 0
  case vor f x => exact insnCommand_formed h f .vor x 0
  case vxor f x => exact insnCommand_formed h f .vxor x 0
  case vshl f x => exact insnCommand_formed h f .vshl x 0
  case vshr f x => exact insnCommand_formed h f .vshr x 0
  case vexp2 f x => exact insnCommand_formed h f .vexp2 x 0
  case vlog2 f x => exact insnCommand_formed h f .vlog2 x 0
  case vrcp f x => exact insnCommand_formed h f .vrcp x 0
  case vrsqrt f x => exact insnCommand_formed h f .vrsqrt x 0
  case vsqrt f x => exact insnCommand_formed h f .vsqrt x 0
  case vexp f x => exact insnCommand_formed h f .vexp x 0
  case vtanh f x => exact insnCommand_formed h f .vtanh x 0
  case vsigm f x => exact insnCommand_formed h f .vsigm x 0
  case vrsum f x => exact insnCommand_formed h f .vrsum x 0
  case vrmax f x => exact insnCommand_formed h f .vrmax x 0
  case vrmin f x => exact insnCommand_formed h f .vrmin x 0
  case cvt f x => exact insnCommand_formed h f .cvt x 0
  case cvtg f x => exact insnCommand_formed h f .cvtg x 0
  case gadd f x => exact insnCommand_formed h f .gadd x 0
  case cvtx f x => exact insnCommand_formed h f .cvtx x 0
  case mov f x => exact insnCommand_formed h f .mov x 0
  case tld f x => exact insnCommand_formed h f .tld x 0
  case tldl f x => exact insnCommand_formed h f .tldl x 0
  case tst f x => exact insnCommand_formed h f .tst x 0
  case twr f x => exact insnCommand_formed h f .twr x 0
  case trd f x => exact insnCommand_formed h f .trd x 0
  case taddb f x => exact insnCommand_formed h f .taddb x 0
  case text f x => exact insnCommand_formed h f .text x 0
  case lds f x => exact insnCommand_formed h f .lds x 0
  case sts f x => exact insnCommand_formed h f .sts x 0
  case ldsl f x => exact insnCommand_formed h f .ldsl x 0
  case stsl f x => exact insnCommand_formed h f .stsl x 0
  case lda f x => exact insnCommand_formed h f .lda x 0
  case sta f x => exact insnCommand_formed h f .sta x 0
  case tyinit f x => exact insnCommand_formed h f .tyinit x 0
  case tydata f x => exact insnCommand_formed h f .tydata x 0
  case tyrd f x => exact insnCommand_formed h f .tyrd x 0
  case tywr f x => exact insnCommand_formed h f .tywr x 0
  case waitAc f x => exact insnCommand_formed h f .waitAc x 0
  case waitMc f x => exact insnCommand_formed h f .waitMc x 0
  case waitAcr f x => exact insnCommand_formed h f .waitAcr x 0
  case waitMcr f x => exact insnCommand_formed h f .waitMcr x 0
  case waitAll f x => exact insnCommand_formed h f .waitAll x 0
  case done f x => exact insnCommand_formed h f .done x 0
  case bell f x => exact insnCommand_formed h f .bell x 0
  case successorDecrement => exact ⟨_, Dev.decArrives_head_formed h, rfl⟩
  case semaphoreUpdate => exact ⟨_, Dev.applySem_head_formed h, rfl⟩
  case weightPlaneLoaded => exact ⟨_, Dev.loadPlane_formed h _, rfl⟩
  case mmaComplete => exact ⟨_, Dev.completeMma_formed h _, rfl⟩
  case vectorComplete => exact ⟨_, Dev.settle_formed (Dev.completeVec_formed h _) _, rfl⟩
  case moveLineLanded => exact ⟨_, Dev.pumpTally_formed (Dev.landLine_formed h _ _ _ _ _ _) _ _, rfl⟩
  case moveAcknowledged => exact ⟨_, Dev.settle_formed (Dev.pumpTally_formed (Dev.ackMove_formed h _ _) _ _) _, rfl⟩
  case lockedRegisterUnlock => exact ⟨_, Dev.settle_formed (Dev.landLoad_formed h _ _ _) _, rfl⟩
  case storeAcknowledged => exact ⟨_, Dev.settle_formed (Dev.retireStore_formed h _ _) _, rfl⟩
  case issueHoldRelease => exact ⟨_, Dev.releaseHold_formed h _, rfl⟩
  case taskDoneSignal => exact ⟨_, Dev.signalDone_formed h _, rfl⟩
  case taskFaultSignal => exact ⟨_, Dev.signalFault_formed h _, rfl⟩
  case memoryErrorResponse => exact ⟨_, Dev.errorAccess_formed h _ _, rfl⟩
  case fetchFault => exact ⟨_, Dev.fetchFail_formed h _, rfl⟩
  case rampRiseInterval => exact ⟨_, Dev.rampRise_formed h _ _ _, rfl⟩
  case rampFallInterval => exact ⟨_, Dev.updFrame_formed h _ _, rfl⟩
  case guardBufferFreed => exact ⟨_, Dev.bufferFreed_formed h _, rfl⟩
  case guardTake => exact ⟨_, Dev.guardTake_formed h _, rfl⟩
  case guardRunComplete => exact ⟨_, Dev.guardDone_formed h _ _, rfl⟩
  case guardWaitExpiry => exact ⟨_, Dev.guardExpire_formed h _, rfl⟩
  case flaggedFrameRemoval => exact ⟨_, Dev.removeFlagged_formed h _, rfl⟩
  case takeRequest => exact ⟨_, Dev.requestTake_formed h _, rfl⟩
  case takeGrant => exact ⟨_, Dev.grantTake_formed h _ _, rfl⟩
  case takeComplete => exact ⟨_, Dev.completeTake_formed h _, rfl⟩
  case launchHoldRelease => exact ⟨_, Dev.retryLaunch_formed h _, rfl⟩
  case graphHang => exact ⟨_, Dev.graphHung_formed h _, rfl⟩
  case contextBind => exact ⟨_, Dev.bindCtx_formed h _ _, rfl⟩
  case contextUnbind => exact ⟨_, Dev.unbindCtx_formed h _, rfl⟩
  case preemptWaitExpiry => exact ⟨_, Dev.preemptWait_formed h _, rfl⟩
  case stallReallocation => exact ⟨_, Dev.reallocate_formed h _, rfl⟩
  case saveImageWritten => exact ⟨_, Dev.saveWritten_formed h _, rfl⟩
  case restoreComplete => exact ⟨_, Dev.restored_formed h _, rfl⟩
  case contextDestroyComplete => exact ⟨_, Dev.ctxGone_formed h _, rfl⟩
  case stallReset => exact ⟨_, Dev.stallReset_formed h _, rfl⟩
  case saveResetWaitExpiry => exact ⟨_, Dev.saveLost_formed h _, rfl⟩
  case frmCtrlPreempt => exact ⟨_, Dev.setPreempt_formed h _, rfl⟩
  case frmCtrlStep => exact ⟨_, Dev.updFrame_formed h _ _, rfl⟩
  case entryFetch => exact ⟨_, Dev.fetchEntry_formed h _, rfl⟩
  case graphLaunch => exact ⟨_, Dev.startLaunch_formed h _ _, rfl⟩
  case taskBatch => exact ⟨_, Dev.startLaunch_formed h _ _, rfl⟩
  case copy => exact ⟨_, Dev.startCopy_formed h _, rfl⟩
  case waitSem => exact ⟨_, Dev.startWait_formed h _, rfl⟩
  case waitSemTimeout => exact ⟨_, Dev.waitTimeout_formed h _, rfl⟩
  case signalSem => exact ⟨_, Dev.startSignal_formed h _, rfl⟩
  case barrier => exact ⟨_, Dev.startBarrier_formed h _, rfl⟩
  case nopEntry => exact ⟨_, Dev.startNop_formed h _, rfl⟩
  case createCtx => exact ⟨_, Dev.createCtx_formed h _, rfl⟩
  case destroyCtx => exact ⟨_, Dev.ctlDestroyCtx_formed h, rfl⟩
  case resumeCtx => exact ⟨_, Dev.ctlResume_formed h, rfl⟩
  case createQueue => exact ⟨_, Dev.ctlCreateQueue_formed h, rfl⟩
  case destroyQueue => exact ⟨_, Dev.ctlDestroyQueue_formed h, rfl⟩
  case adoptCtx => exact ⟨_, Dev.ctlAdopt_formed h, rfl⟩
  case createCring => exact ⟨_, Dev.ctlCreateRing_formed h, rfl⟩
  case destroyCring => exact ⟨_, Dev.ctlDestroyRing_formed h, rfl⟩
  case setSched => exact ⟨_, Dev.ctlSched_formed h, rfl⟩
  case queueQuiesced => exact ⟨_, Dev.queueQuiet_formed h _, rfl⟩
  case quiesceTimeout => exact ⟨_, Dev.quiesceLate_formed h _, rfl⟩
  case cringHeadPoll => exact ⟨_, Dev.pollRing_formed h _, rfl⟩
  case irqModerationExpiry => exact ⟨_, Dev.moderationEnd_formed h _, rfl⟩
  case hostReadFailure => exact ⟨_, Dev.hostReadFail_formed h _, rfl⟩
  case attach => exact ⟨_, Dev.mailbox_formed h _ _, rfl⟩
  case detach => exact ⟨_, Dev.mailbox_formed h _ _, rfl⟩
  case heartbeat => exact ⟨_, Dev.heartbeat_formed h _, rfl⟩
  case heartbeatSample => exact ⟨_, Dev.sampleHeartbeat_formed h, rfl⟩
  case orphanLimitExpiry => exact ⟨_, Dev.orphanLimit_formed h _, rfl⟩
  case memTlbiVa => exact ⟨_, Dev.invalidate_formed h _, rfl⟩
  case memTlbiCtx => exact ⟨_, Dev.invalidate_formed h _, rfl⟩
  case memTlbiAll => exact ⟨_, Dev.invalidate_formed h _, rfl⟩
  case tlbiDone => exact ⟨_, Dev.invalidated_formed h, rfl⟩
  case scanGo => exact ⟨_, Dev.startScan_formed h _, rfl⟩
  case scanComplete => exact ⟨_, Dev.finishScan_formed h _ _, rfl⟩
  case registerWrite => exact ⟨_, Dev.registerWrite_formed h _ _ _ _, rfl⟩
  case registerReadClear => exact ⟨_, Dev.readClear_formed h _ _, rfl⟩
  case hostAccessAbort => exact ⟨_, Dev.abortAccess_formed h _ _ _, rfl⟩
  case bar2Access => exact ⟨_, Dev.bar2_formed h _, rfl⟩
  case allReduce => exact ⟨_, Dev.runColl_formed h _ _, rfl⟩
  case reduceScatter => exact ⟨_, Dev.runColl_formed h _ _, rfl⟩
  case allGather => exact ⟨_, Dev.runColl_formed h _ _, rfl⟩
  case broadcast => exact ⟨_, Dev.runColl_formed h _ _, rfl⟩
  case allToAll => exact ⟨_, Dev.runColl_formed h _ _, rfl⟩
  case maxIdx => exact ⟨_, Dev.runColl_formed h _ _, rfl⟩
  case minIdx => exact ⟨_, Dev.runColl_formed h _ _, rfl⟩
  case commit => exact ⟨_, Dev.runColl_formed h _ _, rfl⟩
  case timedCollectiveStart => exact ⟨_, Dev.stirXch_formed (Dev.timedStart_formed h _ _) _, rfl⟩
  case collectiveComplete => exact ⟨_, Dev.stirXch_formed (Dev.completeColl_formed h _ _) _, rfl⟩
  case collectiveTimeout => exact ⟨_, Dev.stirXch_formed (Dev.timeoutColl_formed h _ _) _, rfl⟩
  case resendRepeat => exact ⟨_, Dev.repeatResend_formed h _ _, rfl⟩
  case data => exact ⟨_, Dev.stirXch_formed (Dev.dataPkt_formed h _) _, rfl⟩
  case tally => exact ⟨_, Dev.stirXch_formed (Dev.dataPkt_formed h _) _, rfl⟩
  case dataFlit => exact ⟨_, Dev.receiveFlit_formed (Dev.fecErrors_formed h _ _) _ _, rfl⟩
  case linkControlFlit => exact ⟨_, Dev.receiveControl_formed (Dev.fecErrors_formed h _ _) _ _, rfl⟩
  case linkHello => exact ⟨_, Dev.fillPlaces_formed (Dev.hearHello_formed h _ _ _), rfl⟩
  case unsupported => exact ⟨_, Dev.logPartner_formed h _, rfl⟩
  case creditViolation => exact ⟨_, Dev.logPartner_formed h _, rfl⟩
  case laneDrop => exact ⟨_, Dev.partnerLanes_formed h _ _ _, rfl⟩
  case bReadData => exact ⟨_, Dev.dataArrived_formed h _, rfl⟩
  case bWriteAcknowledgement => exact ⟨_, Dev.ackArrived_formed h _ _, rfl⟩
  case errorResponse => exact ⟨_, Dev.errorArrived_formed (Dev.consumeTag_formed h _ _) _ _, rfl⟩
  case laneFailure => exact ⟨_, Dev.laneFails_formed h _ _, rfl⟩
  case routeChange => exact ⟨_, Dev.changeRoutes_formed h _, rfl⟩
  case trainingWaveStart => exact ⟨_, Dev.startWave_formed h _, rfl⟩
  case trainingStateComplete => exact ⟨_, Dev.fillPlaces_formed (Dev.trainDone_formed h _ _), rfl⟩
  case trainingTimeout => exact ⟨_, Dev.fillPlaces_formed (Dev.trainTimeout_formed h _), rfl⟩
  case trainingRetry => exact ⟨_, Dev.retryPort_formed h _, rfl⟩
  case parkedPortRelease => exact ⟨_, Dev.unpark_formed h _, rfl⟩
  case portLeaveQuarantine => exact ⟨_, Dev.command_formed h _ _, rfl⟩
  case portQuarantine => exact ⟨_, Dev.command_formed h _ _, rfl⟩
  case portRetrain => exact ⟨_, Dev.command_formed h _ _, rfl⟩
  case waggleExchangeTimer => exact ⟨_, Dev.exchangeTimer_formed h, rfl⟩
  case parentLost => exact ⟨_, Dev.loseParent_formed h, rfl⟩
  case timedBellRelease => exact ⟨_, Dev.releaseBell_formed h _, rfl⟩
  case scrubRead => exact ⟨_, Dev.scrub_formed h _ _, rfl⟩
  case correctionWriteBack => exact ⟨_, Dev.writeBack_formed h _, rfl⟩
  case rowSpareComplete => exact ⟨_, Dev.spareDone_formed h _, rfl⟩
  case powerControlInterval => exact ⟨_, Dev.controlInterval_formed h _ _, rfl⟩
  case powerFastCheck => exact ⟨_, Dev.fastCheck_formed h _, rfl⟩
  case voltageStep => exact ⟨_, Dev.voltageStep_formed h _ _, rfl⟩
  case vrAlert => exact ⟨_, Dev.vrAlert_formed h, rfl⟩
  case watchdogExpiry => exact ⟨_, Dev.watchdog_formed h _, rfl⟩
  case coreRestartComplete => exact ⟨_, Dev.coreBack_formed h _, rfl⟩
  case bootReq => exact ⟨_, Dev.bootRequest_formed h, rfl⟩
  case bootOffer => exact ⟨_, Dev.bootOffered_formed h _ _ _, rfl⟩
  case chunkData => exact ⟨_, Dev.chunkData_formed h _ _ _ _, rfl⟩
  case repairListTimeout => exact ⟨_, Dev.noRepairs_formed h, rfl⟩
  case apiaryHello => exact ⟨_, Dev.sayHello_formed h, rfl⟩
  case mgmtKey => exact ⟨_, Dev.offerKey_formed h _ _, rfl⟩
  case wiringPlan => exact ⟨_, Dev.command_formed h _ _, rfl⟩
  case eqHints => exact ⟨_, Dev.command_formed h _ _, rfl⟩
  case repairList => exact ⟨_, Dev.command_formed h _ _, rfl⟩
  case suspicion => exact ⟨_, Dev.command_formed h _ _, rfl⟩
  case waggleRoot => exact ⟨_, Dev.command_formed h _ _, rfl⟩
  case frameExclude => exact ⟨_, Dev.command_formed h _ _, rfl⟩
  case powerCfg => exact ⟨_, Dev.command_formed h _ _, rfl⟩
  case jobAdmit => exact ⟨_, Dev.command_formed h _ _, rfl⟩
  case barrierSetup => exact ⟨_, Dev.command_formed h _ _, rfl⟩
  case jobKill => exact ⟨_, Dev.command_formed h _ _, rfl⟩
  case ledgerExport => exact ⟨_, Dev.ledgerExport_formed h, rfl⟩
  case ledgerAck => exact ⟨_, Dev.command_formed h _ _, rfl⟩
  case reportResend => exact ⟨_, Dev.resendReports_formed h, rfl⟩
  case logReq => exact ⟨_, Dev.command_formed h _ _, rfl⟩
  case attestReq => exact ⟨_, Dev.command_formed h _ _, rfl⟩
  case ptpSync => exact ⟨_, Dev.ptpSync_formed h _ _, rfl⟩
  case ptpAnnounce => exact ⟨_, Dev.ptpAnnounce_formed h _ _, rfl⟩
  case ptpSyncLoss => exact ⟨_, Dev.ptpLost_formed h, rfl⟩
  case flitSlot => exact ⟨_, Dev.flitSlot_formed h _, rfl⟩
  case frameSelfTestComplete => exact ⟨_, Dev.bootDone_formed h _, rfl⟩
  case resultEcho => exact ⟨_, Dev.echoed_formed h _, rfl⟩
  case doorbell => exact ⟨_, Dev.formed_ite (Dev.ringQueue_formed h _) h, rfl⟩
  case queueHoldEnd => exact ⟨_, Dev.updQueue_formed h _ _, rfl⟩
  case dbgResetWarm => exact ⟨_, Dev.formed_ite (Dev.warmByRegister_formed h) h, rfl⟩
  case dbgResetCold => exact ⟨_, Dev.formed_ite (Dev.resume_formed (Dev.levelFive_formed _ _ _ _)) h, rfl⟩
  case segAck => exact ⟨_, Dev.forJob_formed h _ fun _ j hd => Dev.fromPeer_formed hd j _ fun _ he =>
    Dev.segAcked_formed he j _, rfl⟩
  case resend => exact ⟨_, Dev.forJob_formed h _ fun _ j hd => Dev.fromPeer_formed hd j _ fun _ he =>
    Dev.segAgain_formed he j _, rfl⟩
  case jobHello => exact ⟨_, Dev.forJob_formed h _ fun _ j hd => Dev.hello_formed hd j _, rfl⟩
  case stepAbort => exact ⟨_, Dev.progressAll_formed (Dev.forAnyJob_formed h _ fun _ j hd => Dev.abortPkt_formed hd j
    _), rfl⟩
  case jobAbort => exact ⟨_, Dev.forJob_formed h _ fun _ j hd => Dev.progressAll_formed (Dev.jobFault_formed hd j _ _
    _), rfl⟩
  case resultTally => exact ⟨_, Dev.forJob_formed h _ fun _ j hd =>
    Dev.stirXch_formed (Dev.commitLoop_formed (Dev.resultPkt_formed hd j _) j) _, rfl⟩
  case retrain => exact ⟨_, Dev.formed_ite (Dev.retrainPort_formed h _ _) h, rfl⟩
  case quarantine => exact ⟨_, Dev.formed_ite (Dev.ledger_formed (Dev.quarantine_formed h _ _) _ _ _) h, rfl⟩
  case bellFlit => exact ⟨_, Dev.formed_ite (Dev.bellFlit_formed h _) h, rfl⟩
  case bReadRequest => exact ⟨_, Dev.formed_ite (Dev.remoteRead_formed h _) h, rfl⟩
  case bWrite => exact ⟨_, Dev.formed_ite (Dev.remoteWrite_formed h _) h, rfl⟩
  case remoteRequestTimeout => exact ⟨_, Dev.formed_ite (Dev.errorArrived_formed h _ _) h, rfl⟩
  case waggleReq => exact ⟨_, Dev.formed_ite (Dev.waggleAnswer_formed (Dev.takeWag_formed h _ _) _ _ _) h, rfl⟩
  case waggleRsp => exact ⟨_, Dev.formed_ite (Dev.waggleResponse_formed (Dev.takeWag_formed h _ _) _ _ _) h, rfl⟩
  case powerSlotStart => exact ⟨_, Dev.formed_ite (Dev.slotStart_formed h) h, rfl⟩
  case barrierMessage => exact ⟨_, Dev.formed_ite (Dev.barrierMsg_formed h _) h, rfl⟩
  case barrierResend => exact ⟨_, Dev.formed_ite (Dev.resendBarrier_formed h _) h, rfl⟩
  case ledgerWindowEnd =>
    refine ⟨_, ?_, rfl⟩
    exact h.congr rfl rfl
  case thermalForce => exact ⟨_, Dev.formed_ite (Dev.withCaps_formed h _) h, rfl⟩
  case thermalForceRelease => exact ⟨_, Dev.formed_ite (Dev.withCaps_formed h _) h, rfl⟩
  case thermalTrip =>
    refine ⟨_, ?_, rfl⟩
    exact Dev.formed_ite h (Dev.resume_formed ((Dev.emit_formed (Dev.levelFive_formed _ _ _ _) _).withDbg _))
  case thermalHoldEnd =>
    refine ⟨_, ?_, rfl⟩
    exact Dev.formed_ite (Dev.selfChecked_formed ((Dev.emit_formed h _).withDbg _)) h
  case railFault =>
    refine ⟨_, ?_, rfl⟩
    exact Dev.formed_ite h ((Dev.levelFive_formed s.toDev _ _ _).withDbg _)
  case railRecovery =>
    refine ⟨_, ?_, rfl⟩
    exact Dev.formed_ite (Dev.resume_formed (h.withDbg _)) h
  case powerRemoved =>
    refine ⟨_, ?_, rfl⟩
    exact ⟨rfl, rfl⟩
  case perstNAssert =>
    refine ⟨_, ?_, rfl⟩
    exact Dev.formed_ite h ((Dev.coldNow_formed h _ _ _).withDbg _)
  case perstNRelease =>
    refine ⟨_, ?_, rfl⟩
    exact Dev.formed_ite h (Dev.resume_formed (h.congr rfl rfl))
  case functionLevelReset => exact ⟨_, Dev.formed_ite (Dev.levelThree_formed h) h, rfl⟩
  case warmReset => exact ⟨_, Dev.formed_ite (Dev.levelFour_formed h _) h, rfl⟩
  case jtagPinTakeover =>
    refine ⟨_, ?_, rfl⟩
    exact Dev.formed_ite h ((Dev.coldNow_formed h _ _ _).withDbg _)
  case tapReset =>
    refine ⟨_, ?_, rfl⟩
    exact Dev.formed_ite (Dev.resume_formed (h.withDbg _)) (Dev.formed_ite h (h.withDbg _))
  case bootLoadAbandon => exact ⟨_, Dev.formed_ite (Dev.abandonLoad_formed h _) h, rfl⟩
  case bootRetry =>
    refine ⟨_, ?_, rfl⟩
    exact Dev.formed_ite (Dev.bootRequest_formed (h.congr rfl rfl)) h
  case statusReport => exact ⟨_, Dev.formed_ite (Dev.apiaryTx_formed h _ _ _) h, rfl⟩
  case powerUp =>
    refine ⟨_, ?_, rfl⟩
    exact Dev.formed_ite h ⟨rfl, rfl⟩
  case atbInstrumentWrite =>
    refine ⟨_, ?_, rfl⟩
    exact Dev.formed_ite h (h.withDbg _)
  case routerAdvertisement =>
    refine ⟨_, ?_, rfl⟩
    exact Dev.formed_ite (h.congr rfl rfl) h

theorem stepDev_formed {s t : State} {d : Dev} (h : d.Formed) (he : s.stepDev d = .next t) : t.toDev.Formed := by
  obtain rfl := Host.Outcome.next.inj ((State.stepDev_next s d).symm.trans he)
  exact h

end Sys2Proof.Machine

/-- Settles O22: each command comes down to a device that is formed when the one before it was (`exec_formed`), and a
step is the front command or a tick. -/
theorem memoryFormKept : Obligations.MemoryFormKept := by
  have hexec (c : Instr) (s t : State) (h : s.toDev.Formed) (he : exec c s = .next t) : t.toDev.Formed := by
    obtain ⟨d, hd, hs⟩ := exec_formed h c
    exact stepDev_formed hd (hs ▸ he)
  refine ⟨⟨rfl, rfl⟩, fun c s t h he => Dev.formed_iff.mp (hexec c s t (Dev.formed_iff.mpr h) he), fun s t h he => ?_⟩
  have hs : s.toDev.Formed := Dev.formed_iff.mpr h
  apply Dev.formed_iff.mp
  cases hp : s.pending with
  | nil => exact stepDev_formed (Dev.tick_formed hs) (step_of_pending_nil hp ▸ he)
  | cons c cs => exact hexec c { s with pending := cs } t hs (by simpa [step, hp] using he)

end

/-! ### Register fields beyond their class (R108, R139) -/

section
open Sys2Proof Sys2Proof.Machine Sys2Proof.Machine.Claim

namespace Sys2Proof.Machine

/-- A tally unit with an empty queue starts nothing. -/
theorem Dev.pumpTally_of_tyQ_nil {d : Dev} {f : FrameId} (n : Nat) (h : (d.frame f).tyQ = []) :
    d.pumpTally f n = d := by
  cases n with
  | zero => rfl
  | succ n => simp [Dev.pumpTally, h]

namespace Claim

theorem not_regOk_of_wrong {cls : Option Nat} {i : BitVec 6} (h : wrong cls i) : regOk cls i = false := by
  cases cls with
  | none => simpa [regOk, wrong] using h
  | some n => simpa [regOk, wrong] using h

theorem not_fieldsOk_of_wrong {x : Insn} {cd ca cb cc : Option Nat}
    (h : wrong cd x.dst ∨ wrong ca x.a ∨ wrong cb x.b ∨ wrong cc x.c) : fieldsOk x cd ca cb cc = false := by
  obtain h | h | h | h := h <;> simp [fieldsOk, not_regOk_of_wrong h]

/-- A legal word has each field within the class that `classes` names. -/
theorem fieldsOk_of_legal {op : Op} {x : Insn} {cd ca cb cc : Option Nat} (hcls : classes op = some (cd, ca, cb, cc))
    (hlegal : (opBody op).legal x = true) : fieldsOk x cd ca cb cc = true := by
  cases op <;> cases hcls <;>
    simp_all [opBody, vecLegal, Op.hasB, Op.hasC, fieldsOk, rS, rA, rT, rK,
      nopBody, addBody, subBody, mulBody, andBody, orBody, xorBody, shlBody, shrBody, sraBody, addiBody,
      andiBody, shliBody, shriBody, cmpBody, cmpiBody, amovBody, aaddBody, smovaBody, kBody, kandBody,
      korBody, knotBody, branchBody, bBody, bzBody, bnzBody, bkBody, brBody, li64Body, ai64Body, movBody,
      tldBody, tldlBody, ldsBody, ldslBody, ldaBody, stsBody, stslBody, staBody, tstBody, twrBody, trdBody,
      taddbBody, textBody, tyinitBody, tydataBody, tyrdBody, tywrBody, vecBody, waitBody, waitAcBody,
      waitMcBody, waitAcrBody, waitMcrBody, waitAllBody, body3, body2i]

/-- The unit that the body of an instruction names is the one of R144. -/
theorem opBody_unit (op : Op) : BitVec.ofNat 4 (opBody op).unit = unitOf op := by
  cases op <;> rfl

/-- A word that is not legal is an illegal instruction; what the queues of the matrix and tally units hold is not asked
for an instruction of another unit. -/
theorem exec_illegal {s : State} {f : FrameId} {op : Op} {x : Insn} (imm : Word) (h : Ready s f [])
    (hmma : unitOf op ≠ 1) (hty : unitOf op = 5 → (s.frame f).tyQ = []) (hlegal : (opBody op).legal x = false) :
    exec (insnCommand f op x imm) s
      = .next (stopped s f { code := 0x01, unit := unitOf op, precise := true, insn := insnWord op x }) := by
  have hissue (imm : Word) := h.issue_illegal op imm hlegal
  have hqueue (hq : (s.frame f).tyQ = []) : ((s.toDev.issue f op x 0 (opBody op)).frame f).tyQ = [] := by
    rw [show s.toDev.issue f op x 0 (opBody op) = _ from congrArg State.toDev (Host.Outcome.next.inj (hissue 0))]
    simpa [stopped, withDev, Dev.updFrame, Frame.keepMma] using hq
  rw [exec_insnCommand, ← opBody_unit]
  unfold Dev.issued
  split
  case h_1 | h_2 | h_3 => exact absurd rfl hmma
  case h_4 | h_5 | h_6 | h_7 =>
    rw [Dev.pumpTally_of_tyQ_nil 16 (hqueue (hty rfl))]
    exact hissue 0
  case h_8 | h_9 => exact hissue imm
  next => exact hissue 0

end Claim
end Sys2Proof.Machine

/-- Settles O4: a legal word has each of its fields within its class, so such a word is not legal. -/
theorem illegalFields : Obligations.IllegalFields := by
  intro s f op x imm cd ca cb cc hcls hwrong hready hty
  refine exec_illegal imm hready (fun h => ?_) hty (Bool.eq_false_iff.mpr fun hlegal => ?_)
  · cases op <;> simp_all [unitOf, classes]
  · exact absurd (fieldsOk_of_legal hcls hlegal) (by simp [not_fieldsOk_of_wrong hwrong])

end

/-! ### Instructions that only compute (R103, R151, R178, R186) -/

section
open Sys2Proof Sys2Proof.Machine Sys2Proof.Machine.Claim

namespace Sys2Proof.Machine

/-- Coming to issue, an instruction leaves the device as it is but for the registers of its frame, which become what `P`
allows. -/
def Issue.WritesRegs (P : Regs → Regs → Prop) (d : Dev) (f : FrameId) : Issue → Prop
  | .next e | .jump e _ | .hold e | .stop e =>
    ∃ g : Regs → Regs, e = d.updFrame f (fun fr => { fr with regs := g fr.regs }) ∧ ∀ r, P r (g r)
  | .fault .. => True

/-- A frame after an instruction that only computes: what is not a register, the sequencer's, or a matrix instruction
that
a fault discards, is as it was. -/
structure Frame.Computed (P : Regs → Regs → Prop) (fr fr' : Frame) : Prop where
  regs : P fr.regs fr'.regs
  mmaQ : fr'.mmaQ.length ≤ fr.mmaQ.length
  geom : fr'.geom = fr.geom
  svc : fr'.svc = fr.svc
  moves : fr'.moves = fr.moves
  task : fr'.task = fr.task
  eff : fr'.eff = fr.eff
  chans : fr'.chans = fr.chans

section
variable {P : Regs → Regs → Prop} {d : Dev} {f : FrameId} {op : Op} {x : Insn} {imm : Word} {body : Body}

theorem Dev.updFrame_regs_self (d : Dev) (f : FrameId) : d = d.updFrame f (fun fr => { fr with regs := id fr.regs }) :=
  (d.setFrame_self f).symm

/-- An instruction that changes nothing. -/
theorem Issue.WritesRegs.same (hP : ∀ r, P r r) :
    ∃ g : Regs → Regs, d = d.updFrame f (fun fr => { fr with regs := g fr.regs }) ∧ ∀ r, P r (g r) :=
  ⟨id, d.updFrame_regs_self f, hP⟩

theorem Issue.WritesRegs.withRegs {g : Regs → Regs} (hg : ∀ r, P r (g r)) : (d.withRegs f g).WritesRegs P d f :=
  ⟨g, rfl, hg⟩

theorem Issue.WritesRegs.ite {c : Prop} [Decidable c] {i j : Issue} (hi : i.WritesRegs P d f)
    (hj : j.WritesRegs P d f) :
    (if c then i else j).WritesRegs P d f := by
  split
  · exact hi
  · exact hj

/-- Whether it issues, is held or faults, only the frame changes. -/
theorem Dev.tryIssue_computed (hP : ∀ r, P r r) (hact : (body.act d f x imm).WritesRegs P d f) :
    ∃ fr, d.tryIssue f op x imm body = d.setFrame f fr ∧ Frame.Computed P (d.frame f) fr := by
  have hstop (r : FaultRec) : Frame.Computed P (d.frame f) ((d.frame f).stopWith r) :=
    ⟨hP _, List.length_filter_le _ _, rfl, rfl, rfl, rfl, rfl, rfl⟩
  have hheld (h : Option Held) : Frame.Computed P (d.frame f) { d.frame f with held := h } :=
    ⟨hP _, le_rfl, rfl, rfl, rfl, rfl, rfl, rfl⟩
  simp only [Dev.tryIssue]
  split
  · exact ⟨_, rfl, hstop _⟩
  split
  · exact ⟨_, rfl, hheld _⟩
  cases hr : body.act d f x imm with
  | fault code unit addr => exact ⟨_, rfl, hstop _⟩
  | next e | jump e pc | hold e | stop e =>
    rw [hr] at hact
    obtain ⟨g, rfl, hg⟩ := hact
    simp only [Dev.updFrame_updFrame]
    exact ⟨_, rfl, hg _, le_rfl, rfl, rfl, rfl, rfl, rfl, rfl⟩

theorem Dev.issue_computed (hP : ∀ r, P r r) (hact : (body.act d f x imm).WritesRegs P d f) :
    ∃ fr, d.issue f op x imm body = d.setFrame f fr ∧ Frame.Computed P (d.frame f) fr := by
  simp only [Dev.issue]
  split
  · exact Dev.tryIssue_computed hP hact
  · exact ⟨d.frame f, (d.setFrame_self f).symm, hP _, le_rfl, rfl, rfl, rfl, rfl, rfl, rfl⟩

theorem branchBody_writesRegs (hP : ∀ r, P r r) (a : Option Nat) (uses : Insn → List Dest) (ok : Insn → Bool)
    (off : Insn → Word) (take : Regs → Insn → Bool) :
    ((branchBody a uses ok off take).act d f x imm).WritesRegs P d f := by
  simp only [branchBody]
  split <;> exact Issue.WritesRegs.same hP

theorem waitBody_writesRegs (hP : ∀ r, P r r) (n : Nat) (src : Option Nat) (cnt : Regs → Insn → BitVec 32) :
    ((waitBody n src cnt).act d f x imm).WritesRegs P d f := by
  simp only [waitBody]
  exact .ite trivial (.ite (Issue.WritesRegs.same hP) (Issue.WritesRegs.same hP))

/-- Of the s registers at most the destination changes. -/
def Regs.OnlyDst (x : Insn) (r r' : Regs) : Prop := ∀ i : Fin 64, i.val ≠ x.dst.toNat → r'.s[i] = r.s[i]

theorem Regs.onlyDst_setS (x : Insn) (v : Word) (r : Regs) : Regs.OnlyDst x r (r.setS x.dst v) :=
  fun i hi => by simp [Regs.setS, Ne.symm hi]

theorem Regs.onlyDst_setA (x : Insn) (i : BitVec 6) (v : Word) (r : Regs) : Regs.OnlyDst x r (r.setA i v) :=
  fun _ _ => rfl

theorem Regs.onlyDst_setK (x : Insn) (v : BitVec 256) (r : Regs) : Regs.OnlyDst x r (r.setK x.dst v) :=
  fun i _ => by unfold Regs.setK; split <;> rfl

/-- The scalar and branch class, and the two-word forms. -/
def scalarOps : List Op :=
  [.nop, .add, .sub, .mul, .andS, .orS, .xorS, .shl, .shr, .sra, .addi, .andi, .shli, .shri, .cmp, .cmpi, .amov,
    .aadd, .smova, .kand, .kor, .knot, .b, .bz, .bnz, .bk, .br, .li64, .ai64]

theorem scalar_onlyDst (hop : op ∈ scalarOps) : ((opBody op).act d f x imm).WritesRegs (Regs.OnlyDst x) d f := by
  have hsame (r : Regs) : Regs.OnlyDst x r r := fun _ _ => rfl
  cases op
  case nop => exact Issue.WritesRegs.same hsame
  case add | sub | mul | andS | orS | xorS | shl | shr | sra | addi | andi | shli | shri | smova | li64 =>
    exact .withRegs fun r => Regs.onlyDst_setS x _ r
  case cmp | cmpi | kand | kor | knot => exact .withRegs fun r => Regs.onlyDst_setK x _ r
  case amov | aadd | ai64 => exact .withRegs fun r => Regs.onlyDst_setA x _ _ r
  case b | bz | bnz | bk =>
    simp only [opBody, bBody, bzBody, bnzBody, bkBody]
    exact branchBody_writesRegs hsame ..
  case br => exact .ite (Issue.WritesRegs.same hsame) trivial
  all_goals exact absurd hop (by decide)

/-- Any change of the registers. -/
def Regs.Any (_ _ : Regs) : Prop := True

theorem Regs.any (r r' : Regs) : Regs.Any r r' := trivial

theorem Issue.WritesRegs.toAny {i : Issue} (h : i.WritesRegs P d f) : i.WritesRegs Regs.Any d f := by
  cases i with
  | fault => trivial
  | next | jump | hold | stop =>
    obtain ⟨g, rfl, -⟩ := h
    exact ⟨g, rfl, fun r => r.any (g r)⟩

/-- The instructions that only compute and are not scalar: those on t registers, and the waits. -/
def descriptorAndWaitOps : List Op := [.twr, .trd, .taddb, .text, .waitAc, .waitMc, .waitAcr, .waitMcr, .waitAll]

theorem descriptorAndWait_writesRegs (hop : op ∈ descriptorAndWaitOps) :
    ((opBody op).act d f x imm).WritesRegs Regs.Any d f := by
  have hsame (r : Regs) : r.Any r := r.any r
  cases op
  case twr => exact ⟨fun r => r.setT x.dst {
    desc := BitVec.ofNat 512 (unle ((eightS x.a).flatMap fun i => le 8 (r.getS i).toNat)), valid := true }, rfl, hsame⟩
  case trd | taddb => exact .ite trivial (.withRegs hsame)
  case text => exact .ite trivial (.ite trivial (.withRegs hsame))
  case waitAc | waitMc | waitAcr | waitMcr => exact waitBody_writesRegs hsame ..
  case waitAll => exact .ite (Issue.WritesRegs.same hsame) (Issue.WritesRegs.same hsame)
  all_goals exact absurd hop (by decide)

/-- The instructions that only compute. -/
theorem computing_writesRegs (hop : op ∈ scalarOps ++ descriptorAndWaitOps) :
    ((opBody op).act d f x imm).WritesRegs Regs.Any d f := by
  obtain h | h := List.mem_append.mp hop
  · exact (scalar_onlyDst h).toAny
  · exact descriptorAndWait_writesRegs h

/-- The frame instructions that neither the matrix nor the tally unit executes issue and do no more. -/
theorem exec_computing {s t : State} (hop : op ∈ scalarOps ++ descriptorAndWaitOps) (hP : ∀ r, P r r)
    (hact : ∀ imm, ((opBody op).act s.toDev f x imm).WritesRegs P s.toDev f)
    (he : exec (insnCommand f op x imm) s = .next t) :
    ∃ fr, t = withDev s (s.toDev.setFrame f fr) ∧ Frame.Computed P (s.frame f) fr := by
  obtain ⟨imm, hi⟩ : ∃ i, s.toDev.issued f op x imm = s.toDev.issue f op x i (opBody op) := by
    unfold Dev.issued
    split
    case h_1 | h_2 | h_3 | h_4 | h_5 | h_6 | h_7 => exact absurd hop (by decide)
    all_goals exact ⟨_, rfl⟩
  obtain ⟨fr, hfr, hc⟩ := Dev.issue_computed (op := op) hP (hact imm)
  rw [exec_insnCommand, hi, hfr] at he
  exact ⟨fr, (Host.Outcome.next.inj he).symm, hc⟩

end

theorem Claim.computesInFrame : Claim.ComputesInFrame := by
  intro s t f op x imm hop he
  obtain ⟨fr, ht, -, hmma, hgeom, hsvc, hmoves, htask, heff, hchans⟩ :=
    exec_computing hop (P := Regs.Any) (fun _ => trivial) (fun _ => computing_writesRegs hop) he
  exact ⟨fr, ht, hmma, hgeom, hsvc, hmoves, htask, heff, hchans⟩

theorem Claim.oneRegisterWritten : Claim.OneRegisterWritten := by
  intro s t f op x imm i hop he hi
  obtain ⟨fr, rfl, hregs, -⟩ :=
    exec_computing (List.mem_append_left _ hop) (P := Regs.OnlyDst x) (fun _ _ _ => rfl) (fun _ => scalar_onlyDst hop)
      he
  simpa [withDev] using hregs i hi

end Sys2Proof.Machine

/-- Settles O59: such an instruction changes at most registers (`computing_writesRegs`), and the scalar ones at most
their
destination among the s registers (`scalar_onlyDst`). -/
theorem instructionFrames : Obligations.InstructionFrames := ⟨Claim.computesInFrame, Claim.oneRegisterWritten⟩

end

/-! ### Barrier messages (R401, R402) -/

section
open Sys2Proof Sys2Proof.Machine

namespace Sys2Proof.Machine

/-- Going forward by `k` and back by `k` in a ring of `n` is standing still. -/
theorem add_mod_sub_mod {n i k : Nat} (hi : i < n) (hk : k < n) : ((i + k) % n + n - k) % n = i := by
  have hsub : (i + k) % n + n - k = i ∨ (i + k) % n + n - k = i + n := by
    by_cases hwrap : i + k < n
    · rw [Nat.mod_eq_of_lt hwrap]; omega
    · rw [Nat.mod_eq_sub_mod (by omega), Nat.mod_eq_of_lt (by omega)]; omega
  obtain h | h := hsub
  · rw [h, Nat.mod_eq_of_lt hi]
  · rw [h, Nat.add_mod_right, Nat.mod_eq_of_lt hi]

/-- The same with a step taken round the ring. -/
theorem add_mod_sub_mod_mod {n i k : Nat} (hi : i < n) : ((i + k) % n + n - k % n) % n = i := by
  rw [← Nat.add_mod_mod i k n]
  exact add_mod_sub_mod hi (Nat.mod_lt k (by omega))

theorem Group.at_lt {g : Group} {o i : Nat} (ho : o < g.nOut) (hi : i < g.nIn) : g.at o i < g.nIn * g.nOut := by
  calc o * g.nIn + i < o * g.nIn + g.nIn := by omega
    _ = (o + 1) * g.nIn := by ring
    _ ≤ g.nOut * g.nIn := Nat.mul_le_mul_right _ ho
    _ = g.nIn * g.nOut := Nat.mul_comm _ _

/-- A member's place within the inner ring, and the ring's place within the outer one. -/
theorem Group.at_mod {g : Group} {o i : Nat} (hi : i < g.nIn) : g.at o i % g.nIn = i := by
  rw [Group.at, Nat.mul_add_mod', Nat.mod_eq_of_lt hi]

theorem Group.at_div {g : Group} {o i : Nat} (hi : i < g.nIn) : g.at o i / g.nIn = o := by
  rw [Group.at, Nat.add_comm, Nat.add_mul_div_right _ _ (by omega), Nat.div_eq_of_lt hi, Nat.zero_add]

/-- Whom a member sends to in a round is a member, and waits for it in that round. -/
theorem Group.targets_source {g : Group} (hin : 0 < g.nIn) (hout : 0 < g.nOut) (hmem : g.member < g.nIn * g.nOut)
    {r t : Nat}
    (ht : t ∈ g.targets r) : t < g.nIn * g.nOut ∧
      ∀ h : Group, h.nIn = g.nIn → h.nOut = g.nOut → h.member = t → g.member ∈ h.sources r := by
  have ho : g.member / g.nIn < g.nOut := Nat.div_lt_of_lt_mul hmem
  have hi : g.member % g.nIn < g.nIn := Nat.mod_lt _ hin
  have hself : g.at (g.member / g.nIn) (g.member % g.nIn) = g.member := Nat.div_add_mod' _ _
  simp only [Group.targets, Nat.max_eq_left hin] at ht
  split at ht
  case isTrue hr =>
    obtain rfl := List.mem_singleton.mp ht
    have hi' : (g.member % g.nIn + 2 ^ r) % g.nIn < g.nIn := Nat.mod_lt _ hin
    refine ⟨Group.at_lt ho hi', fun h hIn hOut hm => ?_⟩
    have hhr : r < h.innerRounds := by rwa [Group.innerRounds, hIn]
    simp only [Group.sources, hIn, hm, Nat.max_eq_left hin, hhr, if_true, Group.at_div hi', Group.at_mod hi',
      add_mod_sub_mod_mod hi, List.mem_singleton]
    rw [Group.at, hIn]
    exact hself.symm
  case isFalse hr =>
    obtain ⟨k, hk, rfl⟩ := List.mem_map.mp ht
    have hkn : k < g.nOut := by simpa using (List.mem_filter.mp hk).2
    have ho' : (g.member / g.nIn + k) % g.nOut < g.nOut := Nat.mod_lt _ hout
    refine ⟨Group.at_lt ho' hi, fun h hIn hOut hm => ?_⟩
    have hhr : ¬ r < h.innerRounds := by rwa [Group.innerRounds, hIn]
    have hsteps : h.outerSteps (r - h.innerRounds) = g.outerSteps (r - g.innerRounds) := by
      simp only [Group.outerSteps, Group.innerRounds, hIn, hOut]
    simp only [Group.sources, hIn, hOut, hm, Nat.max_eq_left hin, hhr, if_false, Group.at_div hi, Group.at_mod hi,
      hsteps]
    refine List.mem_map.mpr ⟨k, hk, ?_⟩
    rw [add_mod_sub_mod ho hkn, Group.at, hIn]
    exact hself

/-- A flag that stands is not put a second time. -/
theorem Group.place_idem (g : Group) (r m : Nat) (hpast : g.past = false) :
    g.place g.episode r m = { g with flags := if (r, m) ∈ g.flags then g.flags else g.flags ++ [(r, m)] } := by
  simp [Group.place, hpast]

end Sys2Proof.Machine

/-- Settles O17: the branches of `Group.place` in the order of the episodes, and the arithmetic of the two rings. -/
theorem barrierRounds : Obligations.BarrierRounds := by
  intro g r m
  refine ⟨fun hpast => ⟨g.place_idem r m hpast, ?_⟩, fun ep hep => ?_, fun ep hep => ?_, fun hin hout hmem _ t ht =>
    Group.targets_source hin hout hmem ht⟩
  · by_cases hmem : (r, m) ∈ g.flags <;> simp [Group.place, hpast, hmem]
  · have hold : (ep.toNat < g.episode.toNat || (ep == g.episode && g.past)) = true := by simpa using hep
    simp [Group.place, hold]
  · have hne : ep ≠ g.episode := by rintro rfl; omega
    have hnew : (ep.toNat < g.episode.toNat || (ep == g.episode && g.past)) = false := by simp [hne]; omega
    refine ⟨fun hlater => by simp [Group.place, hnew, hne, hlater], fun e fl hlater => ⟨?_, fun hlt => ?_, fun hlt =>
      ?_⟩⟩
    · rintro rfl
      simp [Group.place, hnew, hne, hlater]
    · have hee : ep ≠ e := by rintro rfl; omega
      simp [Group.place, hnew, hne, hlater, hee, hlt]
    · have hee : ep ≠ e := by rintro rfl; omega
      simp [Group.place, hnew, hne, hlater, hee, Nat.not_lt.mpr hlt.le]

end

/-! ### Sequencer loads and stores (R107, R178, R180) -/

section
open Sys2Proof Sys2Proof.Machine Sys2Proof.Machine.Claim

namespace Sys2Proof.Machine

theorem Dev.OnlyTlbs.isRetired {a b : Dev} (h : a.OnlyTlbs b) (pa : Nat) : b.mem.isRetired pa = a.mem.isRetired pa := by
  obtain ⟨t, n, rfl⟩ := h; rfl

/-- A run of bytes within the local store passes the checks of R180. -/
theorem seqCheck_local {fr : Frame} {a size : Nat} (write : Bool) (h : a + size ≤ 0x800000) :
    seqCheck fr false a size write = .ok := by
  simp [seqCheck, Nat.not_lt.mpr h]

/-- A run of bytes of the address space that the effects grant passes the checks of R180. -/
theorem seqCheck_virtual {fr : Frame} {a size : Nat} {write : Bool} (ha : a < 2 ^ 52)
    (hgrant : fr.ungranted (if write then .w else .r) a (a + size) = none) : seqCheck fr true a size write = .ok := by
  simp only [seqCheck, if_true, if_neg (Nat.not_le.mpr ha), hgrant]

theorem Claim.Free.may_go {s : State} {f : FrameId} {space write : Bool} {a size : Nat} (h : Free s f space a size
    write) :
    ((s.frame f).remoteBusy || (s.frame f).overlaps [accSpan space a size write]) = false := by
  obtain ⟨hloads, hstores, hspan⟩ := h
  have hbusy : (s.frame f).remoteBusy = false := by
    simp only [Frame.remoteBusy, Bool.or_eq_false_iff, List.any_eq_false]
    exact ⟨fun l hl => by simp [hloads l hl], fun t ht => by simp [hstores t ht]⟩
  rw [hbusy, Bool.false_or]
  exact hspan

section
variable {d : Dev} {f : FrameId} {op : Op} {x : Insn} {imm : Word} {size pa : Nat} {addr : Regs → Insn → Nat}
  {data : Regs → Insn → List Byte} {after : Regs → Insn → Regs} {dst : Insn → Dest}

/-- A store to the local store writes its bytes and stays open. -/
theorem storeAct_local (hfit : addr (d.frame f).regs x + size ≤ 0x800000)
    (hgo : ((d.frame f).remoteBusy
      || (d.frame f).overlaps [accSpan false (addr (d.frame f).regs x) size true]) = false) :
    storeAct op false size addr data after d f x imm
      = .next ((d.write (lsAddr f (addr (d.frame f).regs x)) (data (d.frame f).regs x)).updFrame f fun fr => { fr with
        regs := after fr.regs x
        stores := fr.stores ++ [{ word := insnWord op x, addr := BitVec.ofNat 52 (addr (d.frame f).regs x) }] }) := by
  simp [storeAct, seqCheck_local true hfit, hgo, Dev.startStore]

/-- A store through the tables to this device writes its bytes where they say and stays open. -/
theorem storeAct_virtual (ha : addr (d.frame f).regs x < 2 ^ 52)
    (hgrant : (d.frame f).ungranted .w (addr (d.frame f).regs x) (addr (d.frame f).regs x + size) = none)
    (hgo : ((d.frame f).remoteBusy
      || (d.frame f).overlaps [accSpan true (addr (d.frame f).regs x) size true]) = false)
    (hxlate : (d.xlate f.val (d.frame f).ctx (addr (d.frame f).regs x) .write).2 = .ok (none, pa)) :
    storeAct op true size addr data after d f x imm
      = .next (((d.xlate f.val (d.frame f).ctx (addr (d.frame f).regs x) .write).1.write pa
          (data (d.frame f).regs x)).updFrame f fun fr => { fr with
        regs := after fr.regs x
        stores := fr.stores ++ [{
          word := insnWord op x, addr := BitVec.ofNat 52 (addr (d.frame f).regs x), virt := true }] }) := by
  generalize hr : d.xlate f.val (d.frame f).ctx (addr (d.frame f).regs x) .write = r at hxlate ⊢
  obtain ⟨e, v⟩ := r
  simp only at hxlate
  simp [storeAct, seqCheck_virtual (write := true) ha hgrant, hgo, Dev.startStore, hr, hxlate]

/-- A load of the local store has its bytes at once, and waits to land. -/
theorem loadAct_local (hfit : addr (d.frame f).regs x + size ≤ 0x800000)
    (hgo : ((d.frame f).remoteBusy
      || (d.frame f).overlaps [accSpan false (addr (d.frame f).regs x) size false]) = false) :
    loadAct op dst false size addr after d f x imm
      = .next (d.updFrame f fun fr => { fr with
        regs := after fr.regs x
        loads := fr.loads ++ [{
          dst := dst x, word := insnWord op x, addr := BitVec.ofNat 52 (addr (d.frame f).regs x)
          data := d.mem.read (lsAddr f (addr (d.frame f).regs x)) size
          poison := d.mem.readPoison (lsAddr f (addr (d.frame f).regs x)) size
          pa := some (lsAddr f (addr (d.frame f).regs x)) }] }) := by
  simp [loadAct, seqCheck_local false hfit, hgo, Dev.startLoad, Dev.read]

/-- A load through the tables of this device has its bytes at once, and waits to land. -/
theorem loadAct_virtual (ha : addr (d.frame f).regs x < 2 ^ 52)
    (hgrant : (d.frame f).ungranted .r (addr (d.frame f).regs x) (addr (d.frame f).regs x + size) = none)
    (hgo : ((d.frame f).remoteBusy
      || (d.frame f).overlaps [accSpan true (addr (d.frame f).regs x) size false]) = false)
    (hxlate : (d.xlate f.val (d.frame f).ctx (addr (d.frame f).regs x) .read).2 = .ok (none, pa)) :
    loadAct op dst true size addr after d f x imm
      = .next ((d.xlate f.val (d.frame f).ctx (addr (d.frame f).regs x) .read).1.updFrame f fun fr => { fr with
        regs := after fr.regs x
        loads := fr.loads ++ [{
          dst := dst x, word := insnWord op x, addr := BitVec.ofNat 52 (addr (d.frame f).regs x)
          data := d.mem.read pa size, poison := d.mem.readPoison pa size, pa := some pa, virt := true }] }) := by
  have honly := d.xlate_only f.val (d.frame f).ctx (addr (d.frame f).regs x) .read
  generalize hr : d.xlate f.val (d.frame f).ctx (addr (d.frame f).regs x) .read = r at hxlate honly ⊢
  obtain ⟨e, v⟩ := r
  simp only at hxlate
  obtain ⟨t, n, rfl⟩ := honly
  simp only [loadAct, seqCheck_virtual (write := false) ha hgrant, hgo, Dev.startLoad, hr, hxlate]
  simp
  rfl

end

/-- The fields that name a t register, and an a register. -/
@[simp] theorem regOk_t (i : BitVec 6) : regOk rT i = true ↔ i.toNat < 32 := decide_eq_true_iff

@[simp] theorem regOk_a (i : BitVec 6) : regOk rA i = true ↔ i.toNat < 16 := decide_eq_true_iff

namespace Claim

/-- A one-word instruction that issues on another device, with an effect on its frame. -/
theorem Ready.issue_upd {s : State} {f : FrameId} {body : Body} {x : Insn} {imm : Word} {op : Op} {d : Dev}
    {g : Frame → Frame}
    (h : Ready s f (body.uses x)) (hword : Op.twoWord op = false) (hlegal : body.legal x = true)
    (hact : body.act s.toDev f x imm = .next (d.updFrame f g)) (hpc : ∀ fr, (g fr).pc = fr.pc := by intro _; rfl)
    (hstep : ∀ fr, (g fr).step = fr.step := by intro _; rfl) :
    s.stepDev (s.toDev.issue f op x imm body) = .next (issued (withDev s d) f g) := by
  rw [h.issue_next op hlegal hact, Dev.updFrame_updFrame, hword]
  simp only [Frame.advance, hpc, hstep, State.stepDev_next, issued, withDev, Bool.false_eq_true, if_false]

/-- What a store leaves, on a device that differs from the state's at most in its TLBs. -/
theorem stored_of_write {s : State} {f : FrameId} {d : Dev} {pa : Nat} {bs : List Byte} {g : Frame → Frame}
    (honly : s.toDev.OnlyTlbs d) (hwf : s.mem.wf = true) : Stored s (issued (withDev s (d.write pa bs)) f g) pa bs := by
  have hwf' : d.mem.wf = true := honly.wf.trans hwf
  refine ⟨fun b hb => (Memory.write_outside pa bs false b hwf' hb).trans (honly.byte b), fun i hi hr => ?_⟩
  rw [List.getD_eq_getElem _ _ hi]
  exact Memory.write_inside pa bs false i hwf' hi ((honly.isRetired _).trans hr)

theorem localStore : LocalStore := by
  intro s f x hdst hc hready a bs t hfit hfree
  have hlegal : stslBody.legal x = true := by simp [stslBody, fieldsOk, hdst, hc]
  have hact : stslBody.act s.toDev f x 0 = _ := storeAct_local (imm := 0) (addr := sAddr 8) hfit hfree.may_go
  exact ⟨Ready.issue_upd (op := .stsl) hready rfl hlegal hact, stored_of_write (Dev.OnlyTlbs.refl _)⟩

theorem virtualStores : VirtualStores := by
  intro s f x pa hdst hc fr base at_ tr ok go word desc moved
  refine ⟨fun hb hvalid hready hok => ?_, fun hready hok => ?_, fun ha hready hok => ?_⟩ <;>
    obtain ⟨haddr, hgrant, hfree, hxlate⟩ := hok <;>
    refine ⟨?_, stored_of_write (s.toDev.xlate_only ..)⟩
  · have hlegal : tstBody.legal x = true := by simp [tstBody, fieldsOk, hdst, hc, hb]
    have hstore : storeAct .tst true 64 (sAddr 64) (fun r x => le 64 (r.getT x.b).desc.toNat) keepRegs s.toDev f x 0 =
      _ :=
      storeAct_virtual (imm := 0) (addr := sAddr 64) haddr hgrant hfree.may_go hxlate
    have hact : tstBody.act s.toDev f x 0 = _ := (if_neg (by simpa using hvalid)).trans hstore
    exact Ready.issue_upd (op := .tst) hready rfl hlegal hact
  · have hlegal : stsBody.legal x = true := by simp [stsBody, fieldsOk, hdst, hc]
    have hact : stsBody.act s.toDev f x 0 = _ := storeAct_virtual (imm := 0) (addr := sAddr 8) haddr hgrant hfree.may_go
      hxlate
    exact Ready.issue_upd (op := .sts) hready rfl hlegal hact
  · have hlegal : staBody.legal x = true := by simp [staBody, fieldsOk, hdst, hc, ha]
    have hact : staBody.act s.toDev f x 0 = _ := storeAct_virtual (imm := 0) (addr := aAddr) haddr hgrant hfree.may_go
      hxlate
    exact Ready.issue_upd (op := .sta) hready rfl hlegal hact

theorem localLoads : LocalLoads := by
  intro s f x hb hc base go
  refine ⟨fun hdst hready hfit hfree => ?_, fun hready hfit hfree => ?_⟩
  · have hlegal : tldlBody.legal x = true := by simp [tldlBody, fieldsOk, hb, hc, hdst]
    have hact : tldlBody.act s.toDev f x 0 = _ := loadAct_local (imm := 0) (dst := fun x => .t x.dst) (addr := sAddr 64)
      hfit hfree.may_go
    exact Ready.issue_upd (op := .tldl) (d := s.toDev) hready rfl hlegal hact
  · have hlegal : ldslBody.legal x = true := by simp [ldslBody, fieldsOk, hb, hc]
    have hact : ldslBody.act s.toDev f x 0 = _ := loadAct_local (imm := 0) (dst := fun x => .s x.dst) (addr := sAddr 8)
      hfit hfree.may_go
    exact Ready.issue_upd (op := .ldsl) (d := s.toDev) hready rfl hlegal hact

theorem virtualLoads : VirtualLoads := by
  intro s f x pa hb hc fr base tr ok go
  refine ⟨fun hdst hready hok => ?_, fun hready hok => ?_, fun ha hready hok => ?_⟩ <;>
    obtain ⟨haddr, hgrant, hfree, hxlate⟩ := hok
  · have hlegal : tldBody.legal x = true := by simp [tldBody, fieldsOk, hb, hc, hdst]
    have hact : tldBody.act s.toDev f x 0 = _ :=
      loadAct_virtual (imm := 0) (dst := fun x => .t x.dst) (addr := sAddr 64) haddr hgrant hfree.may_go hxlate
    exact Ready.issue_upd (op := .tld) hready rfl hlegal hact
  · have hlegal : ldsBody.legal x = true := by simp [ldsBody, fieldsOk, hb, hc]
    have hact : ldsBody.act s.toDev f x 0 = _ := loadAct_virtual (imm := 0) (dst := fun x => .s x.dst) (addr := sAddr 8)
      haddr hgrant hfree.may_go hxlate
    exact Ready.issue_upd (op := .lds) hready rfl hlegal hact
  · have hlegal : ldaBody.legal x = true := by simp [ldaBody, fieldsOk, hb, hc, ha]
    have hact : ldaBody.act s.toDev f x 0 = _ := loadAct_virtual (imm := 0) (dst := fun x => .s x.dst) (addr := aAddr)
      haddr hgrant hfree.may_go hxlate
    exact Ready.issue_upd (op := .lda) hready rfl hlegal hact

end Claim
end Sys2Proof.Machine

/-- Settles O32: what the two ways to store leave (`storeAct_local`, `storeAct_virtual`), and what a write of memory
changes (`stored_of_write`). -/
theorem stores : Obligations.Stores := ⟨Claim.localStore, Claim.virtualStores⟩

/-- Settles O31: what the two ways to load leave (`loadAct_local`, `loadAct_virtual`). -/
theorem loads : Obligations.Loads := ⟨Claim.localLoads, Claim.virtualLoads⟩

end

/-! ### The record of a spared row (R223, R435) -/

section
open Sys2Proof Sys2Proof.Machine

namespace Sys2Proof.Machine

/-- Raising an interrupt cause leaves memory alone. -/
theorem Dev.irq_mem (d : Dev) (b : Nat) : (d.irq b).mem = d.mem := by
  simp only [Dev.irq, Dev.msix]
  split <;> rfl

/-- The bytes of a record that the ledger takes. -/
theorem Dev.ledger_byte {d : Dev} {cls code : Nat} {x : LedF} {i : Nat} (hrun : d.fwRuns = true)
    (hwin : d.grd.window = []) (hwf : d.mem.wf = true) (hi : i < (d.ledgerBytes cls code x).length)
    (hret : d.mem.isRetired (d.grd.ledgerBase.toNat + 128 * (d.grd.written.toNat % 4096) + i) = false) :
    (d.ledger cls code x).mem.byte (d.grd.ledgerBase.toNat + 128 * (d.grd.written.toNat % 4096) + i)
      = (d.ledgerBytes cls code x)[i] := by
  have hcount : ¬ 256 ≤ (d.windowCounts.get? (256 * (d.waggle / 1000000000) + cls)).getD 0 := by
    simp [Dev.windowCounts, hwin, SMap.get?]
  simp only [Dev.ledger, hrun, hcount, Bool.not_true, Bool.false_eq_true, if_false, Dev.irq_mem]
  generalize d.ledgerBytes cls code x = bs at hi ⊢
  exact Memory.write_inside _ bs false i hwf hi hret

namespace Claim

/-- A device whose firmware is up, with one line retired already, while row 0 of die 0 is copied. -/
def copyingRow : Dev :=
  { sec := { phase := .ready }, mem := { copying := [{ die := 0, bank := 0, row := 0 }], retired := [(0, 7)] } }

/-- The same device once the row is spared. -/
def sparedRow : Dev :=
  { copyingRow with mem := { copyingRow.mem with copying := [], spared := [{ die := 0, bank := 0, row := 0 }] } }

/-- The record that the model writes holds the number of retired lines in AUX0, which is at byte 104. -/
theorem spareDone_aux0 : (copyingRow.spareDone 0).mem.byte 104 = 1 :=
  Dev.ledger_byte (d := sparedRow) (cls := 0x01) (code := 0x03) (x := {
      unit := 3, index := 0, sub := 0, addr := sparedRow.mem.lineAddr (0 * 2 ^ 27 + 0 * 32)
      aux0 := (sparedRow.mem.retired.filter fun k => k.1 == 0 / 4).length }) (i := 104)
    rfl rfl rfl (by decide +kernel) (by decide +kernel)

/-- The record of the statement has zero there. -/
theorem stated_aux0 : (sparedRow.ledger 0x01 0x03 { unit := 3, index := 0, sub := 0 }).mem.byte 104 = 0 :=
  Dev.ledger_byte (i := 104) rfl rfl rfl (by decide +kernel) (by decide +kernel)

theorem not_scrubs : ¬ Scrubs := by
  intro h
  obtain ⟨-, -, -, hspare, -⟩ := h { toDev := copyingRow, pending := [] }
  have hdev := congrArg (·.toDev) (Host.Outcome.next.inj (hspare 0 { die := 0, bank := 0, row := 0 } rfl))
  have hbyte := spareDone_aux0.symm.trans (congrArg (fun d => d.mem.byte 104) hdev)
  exact absurd (hbyte.trans stated_aux0) (by decide)

end Claim
end Sys2Proof.Machine

/-- Refutes O54: the statement gives the record of a spared row the die and the bank alone, while the model also writes
the
row's address and, in AUX0, how many lines are retired; with one line retired (`copyingRow`) the two differ in a byte of
the
ledger. -/
theorem not_memoryScrubbed : ¬ Obligations.MemoryScrubbed := fun h => Claim.not_scrubs h.1

end

/-! ### Warm resets and restarts of cores (R443, R473, R476, R484) -/

section
open Sys2Proof Sys2Proof.Machine

namespace Sys2Proof.Machine

/-- Dropping entries by their keys leaves what is at a key that stays. -/
theorem SMap.get?_filter_key {α : Type} {m : SMap α} (hm : SMap.rising m = true) {q : Nat → Bool} {i : Nat}
    (hi : q i = true) : SMap.get? (m.filter fun c => q c.1) i = SMap.get? m i := by
  rw [SMap.rising_iff] at hm
  induction m with
  | nil => rfl
  | cons c m ih =>
    obtain ⟨k, v⟩ := c
    obtain ⟨hk, hm⟩ := List.pairwise_cons.mp hm
    by_cases hq : q k = true
    · simp only [List.filter_cons, hq, if_true, SMap.get?, ih hm]
    · have hne : i ≠ k := fun he => hq (he ▸ hi)
      rw [List.filter_cons_of_neg (p := fun c : Nat × α => q c.1) hq, ih hm, SMap.get?, if_neg hne]
      split
      case isTrue hlt => exact SMap.get?_none fun c hc => hlt.trans (hk c hc)
      case isFalse => rfl

/-- A reset asked for at the level it names, with its confirmation. -/
theorem resetAsked_eq (v : Word) (level : Nat) :
    resetAsked v level = (decide (v.toNat / 256 % 256 = 0xA5) && decide (v.toNat % 8 = level)) := by
  have hfield : field (le 8 v.toNat) 1 1 = v.toNat / 256 % 256 := by
    rw [field_one (b := BitVec.ofNat 8 (v.toNat / 256)) rfl, BitVec.toNat_ofNat]
  simp [resetAsked, hfield, Bool.beq_eq_decide_eq]

/-- Entering a core's image leaves what waits for it. -/
theorem Dev.enterCore_cmdWait (d : Dev) (c : CoreId) : (d.enterCore c).sec.cmdWait = d.sec.cmdWait := by
  unfold Dev.enterCore
  split <;> rfl

/-- A log entry touches memory and the log only: no frame. -/
theorem Dev.logEntry_onCluster (d : Dev) (src level cl : Nat) (c : BitVec 12) :
    (d.logEntry src level).onCluster cl c = d.onCluster cl c := by
  unfold Dev.logEntry
  split <;> rfl

namespace Claim

theorem warmResets : WarmResets := by
  intro s hrun
  have hconfig : s.toDev.configAnswers = true := by
    simp only [Dev.fwRuns, Bool.or_eq_true, beq_iff_eq] at hrun
    obtain h | h := hrun <;> simp [Dev.configAnswers, h]
  have hlate (core : CoreId) (h : core ∉ s.sec.restarting) :
      ¬ (!s.toDev.fwRuns || s.sec.restarting.contains core) = true := by simpa [hrun] using h
  have hback (c : CoreId) (h : c ∈ s.sec.restarting) (hc : c ≠ .security) :
      ¬ (!(s.toDev.fwRuns && s.sec.restarting.contains c) || c == .security) = true := by simpa [hrun, h] using hc
  refine ⟨fun v hv => ⟨fun hl => ?_, fun hl => ?_⟩, fun v hv => ⟨?_, ?_⟩, ?_, fun h => ?_, ?_, ?_, ?_⟩
  · exact congrArg s.stepDev (if_pos (by simp [hrun, resetAsked_eq, hv, hl]))
  · exact congrArg s.stepDev (if_pos (by simp [hrun, resetAsked_eq, hv, hl]))
  · exact congrArg s.stepDev (if_neg (by simp [resetAsked_eq, hv]))
  · exact congrArg s.stepDev (if_neg (by simp [resetAsked_eq, hv]))
  · exact congrArg s.stepDev (if_pos hconfig)
  · exact congrArg s.stepDev (if_pos (by simpa using h))
  · refine ⟨fun h => ?_, fun h => ?_, fun h => ?_, fun cl h => ?_⟩
    · exact congrArg s.stepDev (if_neg (hlate _ h))
    · exact congrArg s.stepDev (if_neg (hlate _ h))
    · exact congrArg s.stepDev (if_neg (hlate _ h))
    · refine congrArg s.stepDev ((if_neg (hlate _ h)).trans ?_)
      exact congrArg (Dev.loseSequenced _) (funext₂ fun x c => by
        rw [← s.toDev.logEntry_onCluster (64 + cl.val) 0 cl.val c]; rfl)
  · refine ⟨fun h => ?_, fun h => ?_, fun cl h => ?_, fun c x hx => ?_⟩
    · exact congrArg s.stepDev (if_neg (hback _ h nofun))
    · refine congrArg s.stepDev ((if_neg (hback _ h nofun)).trans ?_)
      dsimp only
      rw [Dev.enterCore_cmdWait]
    · exact congrArg s.stepDev (if_neg (hback _ h nofun))
    · simp [Dev.enterCore, hx]
  · intro n0 n1 e0 e1 hoff h0 h1
    refine congrArg s.stepDev ((if_neg (by simpa using hoff)).trans ?_)
    rw [if_pos (decide_eq_true h0), if_pos (decide_eq_true h1)]

theorem warmResetKeeps : WarmResetKeeps := by
  intro d cause pa hwf hpa e
  obtain ⟨hmem, -, hpoison, -⟩ := (Memory.wf_iff d.mem).mp hwf
  have hget : SMap.get? d.mem.warm.mem pa = SMap.get? d.mem.mem pa :=
    SMap.get?_filter_key (q := fun k => decide (k < dramEnd)) hmem (by simpa using hpa)
  refine ⟨rfl, ?_, ?_, rfl, rfl, rfl⟩
  · exact congrArg (·.getD (d.mem.dflt pa)) hget
  · exact SMap.get?_filter_key (q := fun k => decide (k * 32 < dramEnd)) hpoison
      (decide_eq_true ((Nat.div_mul_le_self pa 32).trans_lt hpa))

end Claim
end Sys2Proof.Machine

/-- Settles O49: each command's guard is decided by the clause's hypotheses, and what a level 4 reset keeps of memory is
its
DRAM, because the entries it drops lie beyond (`SMap.get?_filter_key`). -/
theorem warmReset : Obligations.WarmReset := ⟨Claim.warmResets, Claim.warmResetKeeps⟩

end

/-! ### Scalar arithmetic, register moves and predicate logic (R108, R111, R151, R154) -/

section
open Sys2Proof Sys2Proof.Machine Sys2Proof.Machine.Claim

namespace Sys2Proof.Machine.Claim

/-- Of a write of registers only the outcome on the registers that the instruction finds counts. -/
theorem next_regs_congr {s : State} {f : FrameId} {g g' : Regs → Regs} (h : g (s.frame f).regs = g' (s.frame f).regs) :
    (.next (issued s f (regs g)) : Host.Outcome State Fault Refusal) = .next (issued s f (regs g')) :=
  congrArg _ (issued_congr (by simp [regs, h]))

/-- A result in s(dst), given by its value on the registers the instruction finds. -/
theorem setS_eq {r : Regs} {i : BitVec 6} {v w : Word} (h : v = w) :
    r.setS i v = { r with s := r.s.set i.toNat w } := by
  rw [h, Regs.setS]

/-- A logical shift right is a division. -/
theorem ushiftRight_eq_div (a : Word) (n : Nat) : a >>> n = BitVec.ofNat 64 (a.toNat / 2 ^ n) := by
  apply BitVec.eq_of_toNat_eq
  rw [BitVec.toNat_ushiftRight, Nat.shiftRight_eq_div_pow, BitVec.toNat_ofNat, Nat.mod_eq_of_lt]
  exact (Nat.div_le_self _ _).trans_lt a.isLt

theorem scalarThreeRegister : ScalarThreeRegister := by
  intro s f x hready hc hmod a b n d
  have hlegal (g : Word → Word → Word) : (body3 g).legal x = true := by simp [body3, fieldsOk, hc, hmod]
  have hgo {op : Op} (g : Word → Word → Word) (hword : Op.twoWord op = false) {v : Word} (hv : g a b = v) :
      s.stepDev (s.toDev.issue f op x 0 (body3 g)) = .next (d v) :=
    (Ready.issue_regs (body := body3 g) (g := fun r => r.setS x.dst (g (r.getS x.a) (r.getS x.b))) hready hword
      (hlegal g)
      rfl).trans (next_regs_congr (setS_eq hv))
  have hshift : shAmt b = n := by
    have hmask : (63 : Nat) = 2 ^ 6 - 1 := rfl
    simp only [shAmt, BitVec.toNat_and, n]
    exact (congrArg _ hmask).trans (Nat.and_two_pow_sub_one_eq_mod _ 6)
  refine ⟨hgo (op := .add) _ rfl ?_, hgo (op := .sub) _ rfl ?_, hgo (op := .mul) _ rfl ?_, hgo (op := .andS) _ rfl rfl,
    hgo (op := .orS) _ rfl rfl, hgo (op := .xorS) _ rfl rfl, hgo (op := .shl) _ rfl ?_, hgo (op := .shr) _ rfl ?_,
    hgo (op := .sra) _ rfl ?_⟩
  · exact BitVec.eq_of_toNat_eq (by simp)
  · apply BitVec.eq_of_toNat_eq
    rw [BitVec.toNat_sub, BitVec.toNat_ofInt]
    omega
  · exact BitVec.eq_of_toNat_eq (by simp)
  · rw [hshift]
    exact BitVec.eq_of_toNat_eq (by simp [Nat.shiftLeft_eq])
  · rw [hshift]
    exact ushiftRight_eq_div a n
  · rw [hshift, BitVec.sshiftRight, Int.shiftRight_eq_div_pow]
    rfl

theorem scalarImmediate : ScalarImmediate := by
  intro s f x hready hb hc a d
  have hlegal (ok : BitVec 32 → Bool) (g : Word → Insn → Word) (hok : ok x.mod = true) : (body2i ok g).legal x =
    true := by
    simp [body2i, fieldsOk, hb, hc, hok]
  have hgo {op : Op} (ok : BitVec 32 → Bool) (g : Word → Insn → Word) (hword : Op.twoWord op = false)
      (hok : ok x.mod = true) {v : Word} (hv : g a x = v) :
      s.stepDev (s.toDev.issue f op x 0 (body2i ok g)) = .next (d v) :=
    (Ready.issue_regs (body := body2i ok g) (g := fun r => r.setS x.dst (g (r.getS x.a) x)) hready hword
      (hlegal ok g hok)
      rfl).trans (next_regs_congr (setS_eq hv))
  refine ⟨hgo (op := .addi) _ _ rfl rfl ?_, hgo (op := .andi) _ _ rfl rfl rfl, fun hm =>
    ⟨hgo (op := .shli) _ _ rfl (decide_eq_true hm) ?_, hgo (op := .shri) _ _ rfl (decide_eq_true hm) ?_⟩⟩
  · rw [imm64_eq, BitVec.ofInt_add, BitVec.ofInt_toInt]
  · exact BitVec.eq_of_toNat_eq (by simp [Nat.shiftLeft_eq])
  · exact ushiftRight_eq_div a _

theorem addressRegisters : AddressRegisters := by
  intro s f x hb hc r putA getA
  have hgetA : r.getA x.a = getA := (List.getD_eq_getElem?_getD ..).symm
  refine ⟨fun hdst ha hmod h => ?_, fun hdst hmod h => ?_, fun hdst ha h => ?_, fun ha hmod h => ?_⟩
  · have hlegal : nopBody.legal x = true := by simp [nopBody, fieldsOk, hdst, ha, hb, hc, hmod]
    have hact : nopBody.act s.toDev f x 0 = .next s.toDev := rfl
    exact congrArg s.stepDev (Ready.issue_next (body := nopBody) .nop h hlegal hact)
  · have hlegal : amovBody.legal x = true := by simp [amovBody, fieldsOk, hb, hc, hmod, hdst]
    exact (Ready.issue_regs (op := .amov) (imm := 0) (body := amovBody) (g := fun r => r.setA x.dst (r.getS x.a)) h rfl
      hlegal rfl).trans (next_regs_congr rfl)
  · have hlegal : aaddBody.legal x = true := by simp [aaddBody, fieldsOk, hb, hc, hdst, ha]
    refine (Ready.issue_regs (op := .aadd) (imm := 0) (body := aaddBody) (g := fun r => r.setA x.dst
      (r.getA x.a + imm64 x)) h rfl hlegal rfl).trans (next_regs_congr ?_)
    rw [← hgetA, BitVec.ofInt_add, BitVec.ofInt_toInt]
    rfl
  · have hlegal : smovaBody.legal x = true := by simp [smovaBody, fieldsOk, hb, hc, hmod, ha]
    exact (Ready.issue_regs (op := .smova) (imm := 0) (body := smovaBody) (g := fun r => r.setS x.dst (r.getA x.a)) h
      rfl hlegal rfl).trans (next_regs_congr (setS_eq hgetA))

theorem twoWordForms : TwoWordForms := by
  intro s f x imm ha hb hc hmod
  refine ⟨fun h => ?_, fun hdst h => ?_⟩
  · have hlegal : li64Body.legal x = true := by simp [li64Body, fieldsOk, ha, hb, hc, hmod]
    have hact : li64Body.act s.toDev f x imm = .next _ := rfl
    refine congrArg s.stepDev ((Ready.issue_next (body := li64Body) .li64 h hlegal hact).trans ?_)
    rw [Dev.updFrame_updFrame]
    rfl
  · have hlegal : ai64Body.legal x = true := by simp [ai64Body, fieldsOk, ha, hb, hc, hmod, hdst]
    have hact : ai64Body.act s.toDev f x imm = .next _ := rfl
    refine congrArg s.stepDev ((Ready.issue_next (body := ai64Body) .ai64 h hlegal hact).trans ?_)
    rw [Dev.updFrame_updFrame]
    rfl

theorem predicateLogic : PredicateLogic := by
  intro s f x hc hmod hdst ha val put
  have hval (i : BitVec 6) : (s.frame f).regs.getK i = val i := by
    simp only [Regs.getK, val, List.getD_eq_getElem?_getD]
  have hput (v : BitVec 256) : issued s f (regs fun r => r.setK x.dst v) = put v := by rw [regs_setK]
  refine ⟨fun hb h => ⟨?_, ?_⟩, fun hb h => ?_⟩ <;> rw [← hput, ← hval x.a]
  · have hlegal : kandBody.legal x = true := by simp [kandBody, kBody, fieldsOk, hc, hmod, hdst, ha, hb]
    rw [← hval x.b]
    exact (Ready.issue_regs (op := .kand) (imm := 0) (body := kandBody) (g := fun r => r.setK x.dst
      (r.getK x.a &&& r.getK x.b)) h rfl hlegal rfl).trans (next_regs_congr rfl)
  · have hlegal : korBody.legal x = true := by simp [korBody, kBody, fieldsOk, hc, hmod, hdst, ha, hb]
    rw [← hval x.b]
    exact (Ready.issue_regs (op := .kor) (imm := 0) (body := korBody) (g := fun r => r.setK x.dst
      (r.getK x.a ||| r.getK x.b)) h rfl hlegal rfl).trans (next_regs_congr rfl)
  · have hlegal : knotBody.legal x = true := by simp [knotBody, kBody, fieldsOk, hc, hmod, hdst, ha, hb]
    have huses : knotBody.uses x = ([x.dst, x.a].filter (· != 0)).map .k := by
      simp [knotBody, kBody, useK, hb, List.filter_cons]
    exact (Ready.issue_regs (op := .knot) (imm := 0) (body := knotBody) (g := fun r => r.setK x.dst (~~~r.getK x.a))
      (huses ▸ h) rfl hlegal rfl).trans (next_regs_congr rfl)

end Sys2Proof.Machine.Claim

/-- Settles O24: each form writes its result into its destination, and the results agree with their arithmetic. -/
theorem scalarArithmetic : Obligations.ScalarArithmetic := ⟨Claim.scalarThreeRegister, Claim.scalarImmediate⟩

/-- Settles O26: each form issues with its one write of the registers. -/
theorem registerMoves : Obligations.RegisterMoves :=
  ⟨Claim.addressRegisters, Claim.twoWordForms, Claim.predicateLogic⟩

end

/-! ### Waits and the release of a held wait (R131, R186) -/

section
open Sys2Proof Sys2Proof.Machine Sys2Proof.Machine.Claim

namespace Sys2Proof.Machine

/-- A matrix unit with an empty queue starts nothing. -/
theorem Dev.pumpMma_of_mmaQ_nil {d : Dev} {f : FrameId} (n : Nat) (h : (d.frame f).mmaQ = []) : d.pumpMma f n = d := by
  cases n with
  | zero => rfl
  | succ n => simp [Dev.pumpMma, h]

/-- A change of a frame that leaves it as it is. -/
theorem Dev.updFrame_of_eq {d : Dev} {f : FrameId} {g : Frame → Frame} (h : g (d.frame f) = d.frame f) :
    d.updFrame f g = d := by
  rw [Dev.updFrame, h, Dev.setFrame_self]

/-- A legal word whose registers are free goes past itself when its body says so, and is held when it says that. -/
theorem Dev.tryIssue_next {d e : Dev} {f : FrameId} {op : Op} {x : Insn} {imm : Word} {body : Body}
    (hlegal : body.legal x = true) (hfree : (d.frame f).locked (body.uses x) = false)
    (hact : body.act d f x imm = .next e) :
    d.tryIssue f op x imm body = e.updFrame f fun fr => fr.advance (fr.pc + if Op.twoWord op then 16 else 8) := by
  simp [Dev.tryIssue, hlegal, hfree, hact]

theorem Dev.tryIssue_hold {d e : Dev} {f : FrameId} {op : Op} {x : Insn} {imm : Word} {body : Body}
    (hlegal : body.legal x = true) (hfree : (d.frame f).locked (body.uses x) = false)
    (hact : body.act d f x imm = .hold e) :
    d.tryIssue f op x imm body = e.updFrame f fun fr => { fr with held := some { op := op, x := x, imm := imm } } := by
  simp [Dev.tryIssue, hlegal, hfree, hact]

/-- A wait whose counter has come to its value goes on, and another is held. -/
theorem waitBody_act {d : Dev} {f : FrameId} {x : Insn} {imm : Word} {n : Nat} {src : Option Nat}
    {cnt : Regs → Insn → BitVec 32} {v : Nat}
    (hv : (if src.isNone then x.mod.toNat else ((d.frame f).regs.getS x.a).toNat) = v) (hlt : v < 2 ^ 32) :
    (waitBody n src cnt).act d f x imm = if v ≤ (cnt (d.frame f).regs x).toNat then .next d else .hold d := by
  simp only [waitBody, hv, if_neg (Nat.not_le.mpr hlt)]

namespace Claim

/-- An instruction that comes to issue and is held changes nothing else. -/
theorem Ready.issue_hold {s : State} {f : FrameId} {body : Body} {x : Insn} {imm : Word} {op : Op} {d : Dev}
    (h : Ready s f (body.uses x)) (hlegal : body.legal x = true) (hact : body.act s.toDev f x imm = .hold d) :
    s.toDev.issue f op x imm body = d.updFrame f fun fr => { fr with held := some { op := op, x := x, imm := imm }
      } := by
  rw [h.issue_eq, Dev.tryIssue_hold hlegal h.unlocked hact]

/-- A wait that comes to issue with the value it waits for. -/
theorem Ready.issue_wait {s : State} {f : FrameId} {x : Insn} {op : Op} {n : Nat} {src : Option Nat}
    {cnt : Regs → Insn → BitVec 32} {v : Nat} {c : BitVec 32} (h : Ready s f ((waitBody n src cnt).uses x))
    (hword : Op.twoWord op = false) (hlegal : (waitBody n src cnt).legal x = true)
    (hv : (if src.isNone then x.mod.toNat else ((s.frame f).regs.getS x.a).toNat) = v) (hlt : v < 2 ^ 32)
    (hc : cnt (s.frame f).regs x = c) :
    s.stepDev (s.toDev.issue f op x 0 (waitBody n src cnt)) = .next (if v ≤ c.toNat then issued s f id
      else withDev s (s.toDev.updFrame f fun fr => { fr with held := some { op := op, x := x } })) := by
  have hact := waitBody_act (imm := 0) (n := n) (cnt := cnt) hv hlt
  rw [hc] at hact
  split
  case isTrue hreached =>
    rw [h.issue_next op hlegal (hact.trans (if_pos hreached)), hword]
    rfl
  case isFalse hwait =>
    rw [h.issue_hold hlegal (hact.trans (if_neg hwait))]
    rfl

theorem acOf_eq {r : Regs} {x : Insn} (h : x.dst.toNat < 16) : acOf r x = r.ac[x.dst.toNat] := by
  simp [acOf, h]

theorem mcOf_eq {r : Regs} {x : Insn} (h : x.dst.toNat < 8) : mcOf r x = r.mc[x.dst.toNat] := by
  simp [mcOf, h]

theorem counterWaits : CounterWaits := by
  intro s f x hb hc r out v
  refine ⟨fun h => ⟨fun ha hr => ?_, fun hmod hv hr => ?_⟩, fun h => ⟨fun ha hr => ?_, fun hmod hv hr => ?_⟩⟩
  · have hlegal : waitAcBody.legal x = true := by simp [waitAcBody, waitBody, regOk, h, ha, hb, hc]
    exact Ready.issue_wait (op := .waitAc) (src := none) hr rfl hlegal rfl x.mod.isLt (acOf_eq h)
  · have hlegal : waitAcrBody.legal x = true := by simp [waitAcrBody, waitBody, regOk, rS, h, hb, hc, hmod, x.a.isLt]
    exact Ready.issue_wait (op := .waitAcr) (src := rS) hr rfl hlegal rfl hv (acOf_eq h)
  · have hlegal : waitMcBody.legal x = true := by simp [waitMcBody, waitBody, regOk, h, ha, hb, hc]
    exact Ready.issue_wait (op := .waitMc) (src := none) hr rfl hlegal rfl x.mod.isLt (mcOf_eq h)
  · have hlegal : waitMcrBody.legal x = true := by simp [waitMcrBody, waitBody, regOk, rS, h, hb, hc, hmod, x.a.isLt]
    exact Ready.issue_wait (op := .waitMcr) (src := rS) hr rfl hlegal rfl hv (mcOf_eq h)

theorem waitAll : WaitAll := by
  intro s f x hx hr fr
  have hlegal : waitAllBody.legal x = true := by subst hx; rfl
  have hquiet : fr.quiet = true ↔ fr.mmaQ = [] ∧ fr.vecQ = [] ∧ fr.tyQ = [] ∧ fr.loads = [] ∧ fr.stores = []
      ∧ ∀ m ∈ fr.moves, m.acked = true := by
    simp [Frame.quiet, and_assoc]
  rw [← hquiet]
  refine ⟨fun h => ?_, fun h => ?_⟩
  · exact congrArg s.stepDev (Ready.issue_next (body := waitAllBody) (imm := 0) .waitAll hr hlegal (if_pos h))
  · exact congrArg s.stepDev (Ready.issue_hold (body := waitAllBody) (imm := 0) (op := .waitAll) hr hlegal (if_neg h))

theorem holdRelease : HoldRelease := by
  intro s f x h ha hb hc hup hmay hheld hmma hty
  have hlegal : waitAcBody.legal x = true := by simp [waitAcBody, waitBody, regOk, h, ha, hb, hc]
  have hact : waitAcBody.act s.toDev f x 0
      = if x.mod.toNat ≤ ((s.frame f).regs.ac[x.dst.toNat]).toNat then .next s.toDev else .hold s.toDev := by
    rw [← acOf_eq h]
    exact waitBody_act (src := none) rfl x.mod.isLt
  have hfree : (s.frame f).locked (waitAcBody.uses x) = false := by simp [waitAcBody, waitBody, Frame.locked, hty]
  have hrelease : exec (.issueHoldRelease f) s
      = s.stepDev (((s.toDev.tryIssue f .waitAc x 0 waitAcBody).pumpMma f 8).pumpTally f 16) := by
    refine congrArg s.stepDev ?_
    simp only [Dev.releaseHold, hheld, hup, hmay, Bool.and_self, if_true]
    rfl
  have hquiet (g : Frame → Frame) (hg : (g (s.frame f)).mmaQ = (s.frame f).mmaQ)
      (hg' : (g (s.frame f)).tyQ = (s.frame f).tyQ) :
      ((s.toDev.updFrame f g).pumpMma f 8).pumpTally f 16 = s.toDev.updFrame f g := by
    rw [Dev.pumpMma_of_mmaQ_nil, Dev.pumpTally_of_tyQ_nil]
    · simp [Dev.updFrame, hg', hty]
    · simp [Dev.updFrame, hg, hmma]
  refine ⟨fun hreached => ?_, fun hwait => ?_⟩ <;> rw [hrelease]
  · rw [Dev.tryIssue_next hlegal hfree (hact.trans (if_pos hreached)), hquiet _ rfl rfl]
    rfl
  · have hsame : ({ s.frame f with held := some { op := .waitAc, x := x } } : Frame) = s.frame f := by rw [← hheld]
    rw [Dev.tryIssue_hold hlegal hfree (hact.trans (if_neg (Nat.not_le.mpr hwait))), hquiet _ rfl rfl,
      Dev.updFrame_of_eq hsame]
    rfl

end Claim
end Sys2Proof.Machine

/-- Settles O28: a wait compares its counter once (`waitBody_act`), when it comes to issue and when its hold is
released. -/
theorem waits : Obligations.Waits := ⟨Claim.counterWaits, Claim.waitAll, Claim.holdRelease⟩

end

/-! ### Instructions on t registers (R178, R179) -/

section
open Sys2Proof Sys2Proof.Machine Sys2Proof.Machine.Claim

namespace Sys2Proof.Machine

/-- Little-endian bytes before others. -/
theorem unle_append (as bs : List Byte) : unle (as ++ bs) = unle as + 256 ^ as.length * unle bs := by
  induction as with
  | nil => simp [unle]
  | cons a as ih =>
    rw [List.cons_append, unle, ih, unle, List.length_cons, pow_succ']
    ring

/-- Words of 8 bytes in a row, as one number. -/
theorem unle_words (g : Nat → Word) (n : Nat) :
    unle ((List.range n).flatMap fun k => le 8 (g k).toNat)
      = ((List.range n).map fun k => (g k).toNat * 2 ^ (64 * k)).sum := by
  induction n with
  | zero => rfl
  | succ n ih =>
    have hlen : ((List.range n).flatMap fun k => le 8 (g k).toNat).length = 8 * n := by simp [le_length, Nat.mul_comm]
    have hword : (g n).toNat % 256 ^ 8 = (g n).toNat := Nat.mod_eq_of_lt (g n).isLt
    have hbase : (256 : Nat) ^ (8 * n) = 2 ^ (64 * n) := by
      rw [show (256 : Nat) = 2 ^ 8 from rfl, ← pow_mul, ← Nat.mul_assoc]
    rw [List.range_succ, List.flatMap_append, List.flatMap_singleton, unle_append, ih, unle_le, hlen, hword, hbase,
      List.map_append, List.sum_append, List.map_singleton, List.sum_singleton, Nat.mul_comm]

/-- The bits of a field that was put, and the bits beside it. -/
theorem getLsbD_putField (v : BitVec 512) {off n val i : Nat} (hi : i < 512) :
    (putField v off n val).getLsbD i = if off ≤ i ∧ i < off + n then val.testBit (i - off) else v.getLsbD i := by
  simp only [putField, BitVec.getLsbD_or, BitVec.getLsbD_and, BitVec.getLsbD_not, BitVec.getLsbD_ofNat, hi, decide_true,
    Bool.true_and, Nat.testBit_shiftLeft, Nat.testBit_mod_two_pow, Nat.testBit_two_pow_sub_one]
  by_cases hlo : off ≤ i
  · by_cases hhi : i < off + n
    · simp [hlo, hhi, show i - off < n by omega]
    · simp [hlo, hhi, show ¬ i - off < n by omega]
  · simp [hlo]

/-- A field put at the bottom, and what stands above it. -/
theorem toNat_putField_zero (v : BitVec 512) {n val : Nat} (hn : n ≤ 512) :
    (putField v 0 n val).toNat % 2 ^ n = val % 2 ^ n ∧ (putField v 0 n val).toNat / 2 ^ n = v.toNat / 2 ^ n := by
  have hbit (i : Nat) : (putField v 0 n val).toNat.testBit i
      = if i < n then val.testBit i else v.toNat.testBit i := by
    by_cases hi : i < 512
    · have h := getLsbD_putField v (off := 0) (n := n) (val := val) hi
      simpa [BitVec.getLsbD] using h
    · have hout (u : BitVec 512) : u.toNat.testBit i = false := BitVec.getLsbD_of_ge u i (Nat.not_lt.mp hi)
      rw [hout, hout, if_neg (by omega)]
  refine ⟨Nat.eq_of_testBit_eq fun i => ?_, Nat.eq_of_testBit_eq fun i => ?_⟩
  · by_cases hi : i < n <;> simp [Nat.testBit_mod_two_pow, hbit, hi]
  · simp [Nat.testBit_div_two_pow, hbit]

/-- A bit of a byte of a descriptor. -/
theorem bit_descField_byte (v : BitVec 512) (off i : Nat) (hi : i < 8) :
    bit (descField v off 1) i = v.getLsbD (8 * off + i) := by
  have hwidth : 8 * (off + 1) - 1 + 1 - 8 * off = 8 := by omega
  rw [bit, descField, bits, hwidth, Nat.testBit_mod_two_pow, Nat.testBit_shiftRight, decide_eq_true hi, Bool.true_and,
    BitVec.getLsbD]

/-- The base field of a descriptor is its low bits. -/
theorem descField_base_mod (v : BitVec 512) {w : Nat} (hw : w ≤ 64) : descField v 0 8 % 2 ^ w = v.toNat % 2 ^ w :=
  Nat.mod_mod_of_dvd _ (Nat.pow_dvd_pow 2 hw)

/-- A sum in the low bits, where the second summand may be negative. -/
theorem add_imm_mod (a : Nat) (m : BitVec 32) (w : Nat) (hw : w = 52 ∨ w = 23) :
    (a % 2 ^ w + (m.signExtend 64).toNat) % 2 ^ w
      = (a % 2 ^ w + m.toInt.toNat + (2 ^ w - (-m.toInt).toNat % 2 ^ w)) % 2 ^ w := by
  have himm : ((m.signExtend 64).toNat : Int) = m.toInt % 2 ^ 64 := by
    rw [BitVec.signExtend, BitVec.toNat_ofInt]
    exact Int.toNat_of_nonneg (Int.emod_nonneg _ (by decide))
  have hlo := m.le_toInt
  have hhi := m.toInt_lt
  obtain rfl | rfl := hw <;> omega

namespace Claim

theorem descriptorRegisters : DescriptorRegisters := by
  intro s f x hc hb r eight putT old
  refine ⟨fun hdst ha hmod h => ?_, fun ha hdst hmod hvalid h => ?_, fun hdst ha hvalid h => ?_,
    fun hdst hmod hval hvalid h => ?_⟩
  · have hlegal : twrBody.legal x = true := by simp [twrBody, fieldsOk, hdst, hb, hc, ha, hmod]
    have hact : twrBody.act s.toDev f x 0 = s.toDev.withRegs f fun r => r.setT x.dst {
        desc := BitVec.ofNat 512 (unle ((eightS x.a).flatMap fun i => le 8 (r.getS i).toNat)), valid := true } := rfl
    refine (Ready.issue_regs (op := .twr) h rfl hlegal hact).trans (next_regs_congr ?_)
    rw [eightS, List.flatMap_map, unle_words fun k => r.getS (x.a + BitVec.ofNat 6 k)]
    rfl
  · have hlegal : trdBody.legal x = true := by simp [trdBody, fieldsOk, hdst, hb, hc, ha, hmod]
    have hact : trdBody.act s.toDev f x 0 = s.toDev.withRegs f fun r' => (List.range 8).foldl (fun r' k =>
        r'.setS (x.dst + BitVec.ofNat 6 k) ((r.getT x.a).desc.extractLsb' (64 * k) 64)) r' :=
      if_neg (by simpa using hvalid)
    exact Ready.issue_regs (op := .trd) h rfl hlegal hact
  · have hlegal : taddbBody.legal x = true := by simp [taddbBody, fieldsOk, hdst, hb, hc, ha]
    let w := if bit (descField old.desc 0x31 1) 3 then 52 else 23
    let b := (descField old.desc 0 8 % 2 ^ w + (imm64 x).toNat) % 2 ^ w
    have hact : taddbBody.act s.toDev f x 0
        = s.toDev.withRegs f fun r => r.setT x.dst { old with desc := putField old.desc 0 w b } :=
      if_neg (by simpa using hvalid)
    refine ⟨_, Ready.issue_regs (op := .taddb) h rfl hlegal hact, ?_⟩
    have hw : w = 52 ∨ w = 23 := by simp only [w]; split <;> simp
    obtain ⟨hmod, hdiv⟩ := toNat_putField_zero old.desc (n := w) (val := b) (by omega)
    have hsum : b % 2 ^ w = (old.desc.toNat % 2 ^ w + x.mod.toInt.toNat + (2 ^ w - (-x.mod.toInt).toNat % 2 ^ w)) % 2 ^
      w := by
      simp only [b]
      rw [descField_base_mod _ (by omega), Nat.mod_mod]
      exact add_imm_mod _ _ _ hw
    rw [← bit_descField_byte old.desc 0x31 3 (by decide)]
    exact ⟨hmod.trans hsum, hdiv⟩
  · have hlegal : textBody.legal x = true := by simp [textBody, fieldsOk, hdst, hb, hc, hmod]
    have hact : textBody.act s.toDev f x 0 = s.toDev.withRegs f fun r' => r'.setT x.dst {
        old with desc := putField old.desc (64 + 32 * x.mod.toNat) 32 (r.getS x.a).toNat } :=
      (if_neg (Nat.not_le.mpr hval)).trans (if_neg (by simpa using hvalid))
    refine ⟨_, Ready.issue_regs (op := .text) h rfl hlegal hact, fun i hi => ?_⟩
    rw [getLsbD_putField _ hi, show 64 + 32 * x.mod.toNat + 32 = 96 + 32 * x.mod.toNat by omega]
    rfl

theorem invalidDescriptorRegister : InvalidDescriptorRegister := by
  intro s f x hc hb r eight bad
  refine ⟨fun ha hdst hmod hvalid h => ?_, fun hdst ha hvalid h => ?_, fun hdst hmod hval hvalid h => ?_⟩
  · have hlegal : trdBody.legal x = true := by simp [trdBody, fieldsOk, hdst, hb, hc, ha, hmod]
    have hact : trdBody.act s.toDev f x 0 = .fault 0x03 0 none := if_pos (by simpa using hvalid)
    exact Ready.issue_fault (op := .trd) h hlegal hact
  · have hlegal : taddbBody.legal x = true := by simp [taddbBody, fieldsOk, hdst, hb, hc, ha]
    have hact : taddbBody.act s.toDev f x 0 = .fault 0x03 0 none := if_pos (by simpa using hvalid)
    exact Ready.issue_fault (op := .taddb) h hlegal hact
  · have hlegal : textBody.legal x = true := by simp [textBody, fieldsOk, hdst, hb, hc, hmod]
    have hact : textBody.act s.toDev f x 0 = .fault 0x03 0 none :=
      (if_neg (Nat.not_le.mpr hval)).trans (if_pos (by simpa using hvalid))
    exact Ready.issue_fault (op := .text) h hlegal hact

end Claim
end Sys2Proof.Machine

/-- Settles O30: what each instruction does to its registers, and the fault of an invalid one. -/
theorem descriptorInstructions : Obligations.DescriptorInstructions :=
  ⟨Claim.descriptorRegisters, Claim.invalidDescriptorRegister⟩

end

/-! ### Tally instructions (R105, R183, R184) -/

section
open Sys2Proof Sys2Proof.Machine Sys2Proof.Machine.Claim

namespace Sys2Proof.Machine

/-- A frame whose tally instruction joined the queue. -/
def Frame.pushTally (fr : Frame) (j : TyJob) : Frame :=
  { fr with tyQ := fr.tyQ ++ [{ stamp := fr.stamp, job := j }], stamp := fr.stamp + 1 }

/-- A frame with another value of a tally channel. -/
def Frame.withChan (fr : Frame) (ch : Fin 64) (c : Chan) : Frame := { fr with chans := fr.chans.set ch.val c }

theorem tyIssue_of_room {d : Dev} {f : FrameId} (j : TyJob) (h : (d.frame f).tyQ.length < 16) :
    tyIssue d f j = .next (d.updFrame f fun fr => fr.pushTally j) := if_neg (Nat.not_le.mpr h)

/-- A tally unit whose first instruction waits starts nothing. -/
theorem Dev.pumpTally_of_blocked {d : Dev} {f : FrameId} (n : Nat) {e : TyEnt} {es : List TyEnt}
    (hq : (d.frame f).tyQ = e :: es) (hwait : (d.frame f).tyBlocked e = true) : d.pumpTally f n = d := by
  cases n with
  | zero => rfl
  | succ n => simp [Dev.pumpTally, hq, hwait]

/-- A tally unit with one instruction, which need not wait, executes it. -/
theorem Dev.pumpTally_of_single {d : Dev} {f : FrameId} (n : Nat) {e : TyEnt} {g : Frame → Frame}
    (hq : (d.frame f).tyQ = [e]) (hgo : (d.frame f).tyBlocked e = false)
    (hrun : (d.setFrame f { d.frame f with tyQ := [] }).runTally f e.job
      = (d.setFrame f { d.frame f with tyQ := [] }).updFrame f g)
    (hg : (g { d.frame f with tyQ := [] }).tyQ = []) :
    d.pumpTally f (n + 1) = d.setFrame f (g { d.frame f with tyQ := [] }) := by
  have hempty : ((d.setFrame f (g { d.frame f with tyQ := [] })).frame f).tyQ = [] := by simpa using hg
  simp only [Dev.pumpTally, hq, hgo, hrun, Dev.updFrame, Dev.frame_setFrame, Dev.setFrame_setFrame]
  exact Dev.pumpTally_of_tyQ_nil n hempty

namespace Claim

/-- A tally instruction that issues into an empty tally unit and need not wait is executed at once. -/
theorem Ready.exec_tally {s : State} {f : FrameId} {body : Body} {x : Insn} {op : Op} {j : TyJob} {g : Frame → Frame}
    (h : Ready s f (body.uses x)) (hword : Op.twoWord op = false) (hlegal : body.legal x = true)
    (hact : body.act s.toDev f x 0 = .next (s.toDev.updFrame f fun fr => fr.pushTally j)) (hq : (s.frame f).tyQ = [])
    (hgo : ∀ fr, fr = ((s.frame f).pushTally j).advance ((s.frame f).pc + 8) →
      fr.tyBlocked { stamp := (s.frame f).stamp, job := j } = false)
    (hrun : ∀ fr, fr.chans = (s.frame f).chans →
      (s.toDev.setFrame f fr).runTally f j = (s.toDev.setFrame f fr).updFrame f g)
    (hg : ∀ fr, (g fr).tyQ = fr.tyQ) :
    s.stepDev ((s.toDev.issue f op x 0 body).pumpTally f 16) = .next (withDev s (s.toDev.setFrame f
      (g { s.frame f with
        pc := (s.frame f).pc + 8, held := none, stepWait := (s.frame f).step, stamp := (s.frame f).stamp + 1 }))) := by
  have hissue : s.toDev.issue f op x 0 body
      = s.toDev.setFrame f (((s.frame f).pushTally j).advance ((s.frame f).pc + 8)) := by
    rw [h.issue_next op hlegal hact, Dev.updFrame_updFrame, hword]
    rfl
  have hone : ((s.frame f).pushTally j).tyQ = [{ stamp := (s.frame f).stamp, job := j }] := by
    simp [Frame.pushTally, hq]
  rw [hissue, Dev.pumpTally_of_single (e := { stamp := (s.frame f).stamp, job := j }) (g := g) 15]
  · have hback : ({ ((s.frame f).pushTally j).advance ((s.frame f).pc + 8) with tyQ := [] } : Frame) = { s.frame f with
        pc := (s.frame f).pc + 8, held := none, stepWait := (s.frame f).step, stamp := (s.frame f).stamp + 1 } := by
      simp only [Frame.pushTally, Frame.advance, hq]
    simp only [Dev.frame_setFrame, Dev.setFrame_setFrame, hback]
    rfl
  · simpa [Frame.advance] using hone
  · exact hgo _ (by simp)
  · simp only [Dev.frame_setFrame, Dev.setFrame_setFrame]
    exact hrun _ rfl
  · exact (hg _).trans rfl

/-- No move that began before feeds a channel when each of its moves has counted or landed every line. -/
theorem chanFed_of_fed {fr : Frame} {ch : Fin 64} {before : Nat}
    (h : ∀ m ∈ fr.moves, m.tch = some ch → m.stamp < before → m.acked = true ∨ m.front = m.lines) :
    fr.chanFed ch before = false := by
  simp only [Frame.chanFed, List.any_eq_false]
  intro m hm hfeeds
  simp only [Bool.and_eq_true, beq_iff_eq, Bool.not_eq_true', bne_iff_ne, decide_eq_true_eq] at hfeeds
  obtain ⟨⟨⟨hch, hack⟩, hfront⟩, hstamp⟩ := hfeeds
  obtain hdone | hdone := h m hm hch hstamp
  · exact absurd hdone (by simp [hack])
  · exact hfront hdone

theorem le_mod (n v : Nat) : le n (v % 256 ^ n) = le n v := by
  induction n generalizing v with
  | zero => rfl
  | succ n ih =>
    have hlow : BitVec.ofNat 8 (v % 256 ^ (n + 1)) = BitVec.ofNat 8 v :=
      BitVec.eq_of_toNat_eq (by simp [pow_succ])
    rw [le, le, hlow, pow_succ', Nat.mod_mul_right_div_self, ih]

/-- What TYINIT makes of its channel, as R183 gives it. -/
theorem initChan_eq (crc32 : Bool) (seed : List Byte) :
    ({ crc32 := crc32, v := if crc32 then 0xFFFFFFFF else BitVec.allOnes 64 } : Chan).feed seed
      = if crc32 = false then { crc32 := false, v := crc64Run (BitVec.allOnes 64) seed }
        else { crc32 := true, v := (crc32Run (BitVec.allOnes 32) seed).setWidth 64 } := by
  cases crc32 <;> rfl

/-- What R183 folds first, from the four registers it names. -/
theorem seedPrefix_eq (r : Regs) (i : BitVec 6) :
    seedPrefix ((r.getS i).toNat % 65536) ((r.getS (nextS i 1)).toNat % 65536) ((r.getS (nextS i 3)).toNat % 32768)
        (r.getS (nextS i 2))
      = le 2 (r.getS (i + BitVec.ofNat 6 0)).toNat ++ le 2 (r.getS (i + BitVec.ofNat 6 1)).toNat
        ++ le 2 ((r.getS (i + BitVec.ofNat 6 3)).toNat % 2 ^ 15) ++ [0, 0]
        ++ le 8 (r.getS (i + BitVec.ofNat 6 2)).toNat := by
  rw [seedPrefix, show (65536 : Nat) = 256 ^ 2 from rfl, le_mod, le_mod, show (32768 : Nat) = 2 ^ 15 from rfl,
    Nat.mod_mod,
    show i + BitVec.ofNat 6 0 = i from BitVec.add_zero i]
  rfl

theorem bit_six {v : Nat} (h : v < 128) : bit v 6 = decide (64 ≤ v) := by
  simp only [bit, Nat.testBit, Nat.shiftRight_eq_div_pow, Nat.one_and_eq_mod_two]
  by_cases hv : 64 ≤ v
  · rw [show v / 2 ^ 6 = 1 by omega, decide_eq_true hv]
    rfl
  · rw [show v / 2 ^ 6 = 0 by omega, decide_eq_false hv]
    rfl

theorem tallyChannels : TallyChannels := by
  intro s f x hb hc
  dsimp only
  intro hq hfed
  have hidle : (s.frame f).chanFed (tyCh x) (s.frame f).stamp = false :=
    chanFed_of_fed fun m hm hch _ => hfed m hm hch
  have hfree : ¬ (s.frame f).chanBusy (tyCh x) = true := by simp [Frame.chanBusy, hq, hidle]
  have hroom : (s.frame f).tyQ.length < 16 := by simp [hq]
  have hzero : x.a + 0#6 = x.a := BitVec.add_zero _
  refine ⟨fun hdst ha hmod h => ?_, fun ha hmod hpsn h => ?_, fun hdst hmod h => ?_⟩
  · have hlegal : tyinitBody.legal x = true := by simp [tyinitBody, fieldsOk, hdst, hb, hc, ha, hmod]
    have hact : tyinitBody.act s.toDev f x 0 = _ := (if_neg hfree).trans (tyIssue_of_room _ hroom)
    refine (Ready.exec_tally (op := .tyinit) (g := fun fr => fr.withChan (tyCh x) (Chan.feed {
        crc32 := bit x.mod.toNat 6, v := if bit x.mod.toNat 6 then 0xFFFFFFFF else BitVec.allOnes 64 } _)) h rfl hlegal
          hact hq (fun _ _ => rfl) (fun _ _ => rfl) fun _ => rfl).trans ?_
    have hkind : (bit x.mod.toNat 6 = false) ↔ x.mod.toNat < 64 := by simp [bit_six hmod]
    rw [initChan_eq, seedPrefix_eq, if_congr hkind rfl rfl]
    rfl
  · have hlegal : tyrdBody.legal x = true := by simp [tyrdBody, fieldsOk, ha, hb, hc, hmod]
    have hact : tyrdBody.act s.toDev f x 0 = _ := (if_neg hfree).trans (tyIssue_of_room _ hroom)
    refine (Ready.exec_tally (op := .tyrd) (g := fun fr => { fr with
        regs := fr.regs.setS x.dst ((s.frame f).chans[x.mod.toNat % 64]).v }) h rfl hlegal hact hq
      (fun _ _ => rfl) (fun fr hch => ?_) fun _ => rfl).trans rfl
    have hchan : ((s.toDev.setFrame f fr).frame f).chans[(tyCh x).val] = (s.frame f).chans[x.mod.toNat % 64] := by
      simp only [Dev.frame_setFrame, hch]
      rfl
    simp only [Dev.runTally, hchan, hpsn]
    rfl
  · have hlegal : tywrBody.legal x = true := by simp [tywrBody, fieldsOk, hdst, hb, hc, hmod]
    have hchan : (s.frame f).chans[(tyCh x).val] = (s.frame f).chans[x.mod.toNat % 64] := rfl
    rw [hzero]
    refine ⟨fun hsmall => ?_, fun hcrc hbig => ?_⟩
    · have hfit : ¬ ((s.frame f).chans[(tyCh x).val].crc32 && decide (2 ^ 32 ≤ ((s.frame f).regs.getS x.a).toNat)) =
      true := by
        rw [hchan]
        obtain h | h := hsmall
        · simp [h]
        · rw [decide_eq_false (Nat.not_le.mpr h), Bool.and_false]
          exact Bool.false_ne_true
      have hact : tywrBody.act s.toDev f x 0 = _ := ((if_neg hfree).trans (if_neg hfit)).trans (tyIssue_of_room _ hroom)
      refine (Ready.exec_tally (op := .tywr) (g := fun fr => fr.withChan (tyCh x) {
          crc32 := ((s.frame f).chans[x.mod.toNat % 64]).crc32, v := (s.frame f).regs.getS x.a }) h rfl hlegal hact hq
        (fun _ _ => rfl) (fun fr hch => ?_) fun _ => rfl).trans rfl
      simp only [Dev.runTally, Dev.setChan, Dev.frame_setFrame, hch]
      rfl
    · have hact : tywrBody.act s.toDev f x 0 = .fault 0x01 5 none :=
        (if_neg hfree).trans (if_pos (by rw [hchan, hcrc, decide_eq_true hbig]; rfl))
      have hstop := Ready.issue_fault (op := .tywr) h hlegal hact
      refine (congrArg s.stepDev (Dev.pumpTally_of_tyQ_nil 16 ?_)).trans hstop
      rw [show s.toDev.issue f .tywr x 0 tywrBody = _ from congrArg State.toDev (Host.Outcome.next.inj hstop)]
      simpa [stopped, withDev, Dev.updFrame, Frame.keepMma] using hq

/-- A channel that an earlier move still feeds. -/
theorem chanFed_of_not_fed {fr : Frame} {ch : Fin 64} {before : Nat}
    (h : ¬ ∀ m ∈ fr.moves, m.tch = some ch → m.stamp < before → m.acked = true ∨ m.front = m.lines) :
    fr.chanFed ch before = true := by
  simp only [not_forall, not_or] at h
  obtain ⟨m, hm, hch, hstamp, hack, hfront⟩ := h
  exact List.any_eq_true.mpr ⟨m, hm, by simp [hch, hack, hfront, hstamp]⟩

/-- A tensor within the local store. -/
theorem checkLs_singleton {t : Tensor} {write : Bool} (hspace : t.space = false) (hlo : 0 ≤ t.lo)
    (hhi : t.hi ≤ 0x800000) : checkLs [t.span write] = .ok := by
  simp [checkLs, lsRange, Tensor.span, hspace, Int.not_lt.mpr hlo, Int.not_lt.mpr hhi]

/-- A TYDATA waits while its channel is fed. -/
theorem tyBlocked_data {fr : Frame} {e : TyEnt} {ch : Fin 64} {t : Tensor} (hjob : e.job = .data ch t) :
    fr.tyBlocked e = fr.chanFed ch e.stamp := by
  simp [Frame.tyBlocked, hjob]

/-- Whether an instruction waits is a matter of the frame's moves. -/
theorem tyBlocked_of_moves {fr fr' : Frame} {e : TyEnt} (h : fr'.moves = fr.moves) :
    fr'.tyBlocked e = fr.tyBlocked e := by
  simp only [Frame.tyBlocked, Frame.chanFed, h]

/-- The addresses of a tensor's bytes in the local store, in walk order. -/
def tallyAddrs (f : FrameId) (t : Tensor) : List Nat :=
  (List.range t.rows).flatMap fun k => (List.range t.rowBytes).map fun o => lsAddr f (t.rowAddr k + o)

theorem runTally_data (d : Dev) (f : FrameId) (fr : Frame) (ch : Fin 64) (t : Tensor) :
    (d.setFrame f fr).runTally f (.data ch t) = (d.setFrame f fr).updFrame f fun fr =>
      fr.feedCh (some ch) ((tallyAddrs f t).map d.mem.byte) ((tallyAddrs f t).any d.mem.poisonedAt) := rfl

theorem tallyData : TallyData := by
  intro s f x hdst hb hc ha hmod
  dsimp only
  intro hready hok hspace hknown hscaled hlo hhi hfree
  have hlegal : tydataBody.legal x = true := by simp [tydataBody, fieldsOk, hdst, hb, hc, ha, hmod]
  have hact : tydataBody.act s.toDev f x 0 = tyIssue s.toDev f (.data (tyCh x) ((s.frame f).regs.getT x.a).shape) := by
    have hneed : (!((s.frame f).regs.getT x.a).shape.scaled || ((s.frame f).regs.getT x.a).shape.fmt.scalable) =
      true := by
      cases hs : ((s.frame f).regs.getT x.a).shape.scaled
      · rfl
      · exact hscaled hs
    simp only [tydataBody, hok, hspace, hknown, hneed, need, Check.then_, Bool.not_false, Bool.and_self, if_true,
      checkLs_singleton hspace hlo hhi, hfree, Bool.false_eq_true, if_false]
  refine ⟨fun hq hfed => ?_, fun hroom hwaits => ?_, fun hfull hwaits => ?_⟩
  · have hact' := hact.trans (tyIssue_of_room _ (by simp [hq]))
    refine (Ready.exec_tally (op := .tydata) hready rfl hlegal hact' hq (fun fr hfr => ?_)
      (fun fr _ => runTally_data s.toDev f fr _ _) fun _ => rfl).trans rfl
    rw [tyBlocked_data rfl, hfr]
    exact chanFed_of_fed hfed
  · have hissue := hready.issue_next .tydata hlegal (hact.trans (tyIssue_of_room _ hroom))
    have hblocked : ∃ e es, ((s.frame f).pushTally (.data (tyCh x) ((s.frame f).regs.getT x.a).shape)).tyQ = e :: es
        ∧ (s.frame f).tyBlocked e = true := by
      obtain ⟨hq, hnot⟩ | ⟨e, es, c', t', hq, hjob, hnot⟩ := hwaits
      · exact ⟨{ stamp := (s.frame f).stamp, job := .data (tyCh x) ((s.frame f).regs.getT x.a).shape }, [],
          congrArg (· ++ _) hq, (tyBlocked_data rfl).trans (chanFed_of_not_fed hnot)⟩
      · exact ⟨e, es ++ _, congrArg (· ++ _) hq, (tyBlocked_data hjob).trans (chanFed_of_not_fed hnot)⟩
    obtain ⟨e, es, hq, hwait⟩ := hblocked
    refine (congrArg s.stepDev (Dev.pumpTally_of_blocked 16 (e := e) (es := es) ?_ ?_)).trans
      (congrArg s.stepDev (hissue.trans (Dev.updFrame_updFrame _ _ _ _)))
    · rw [hissue]; simpa [Dev.updFrame, Frame.advance] using hq
    · rw [hissue, tyBlocked_of_moves (fr := s.frame f) (by simp [Dev.updFrame, Frame.advance, Frame.pushTally])]
      exact hwait
  · obtain ⟨hq, -⟩ | ⟨e, es, c', t', hq, hjob, hnot⟩ := hwaits
    · simp [hq] at hfull
    · have hissue := hready.issue_hold (op := .tydata) hlegal (hact.trans (if_pos hfull))
      refine (congrArg s.stepDev (Dev.pumpTally_of_blocked 16 (e := e) (es := es) ?_ ?_)).trans
        (congrArg s.stepDev hissue)
      · rw [hissue]; simpa [Dev.updFrame] using hq
      · rw [hissue, tyBlocked_of_moves (fr := s.frame f) (by simp [Dev.updFrame]), tyBlocked_data hjob]
        exact chanFed_of_not_fed hnot

end Claim
end Sys2Proof.Machine

/-- Settles O29: an instruction that need not wait is executed at once (`Ready.exec_tally`), and the front of the queue
holds
what comes after it (`Dev.pumpTally_of_blocked`). -/
theorem tallyInstructions : Obligations.TallyInstructions := ⟨Claim.tallyChannels, Claim.tallyData⟩

end

/-! ### The end of sequencer loads and stores (R135, R150, R180, R205) -/

section
open Sys2Proof Sys2Proof.Machine Sys2Proof.Machine.Claim

namespace Sys2Proof.Machine

/-- A frame that neither dies nor is asked to stop goes on as it is. -/
theorem Dev.settle_of_calm {d : Dev} {f : FrameId} (hkill : (d.frame f).killing = false)
    (hpre : (d.frame f).preempt = false) : d.settle f = d := by
  simp [Dev.settle, hkill, hpre]

/-- A load whose lines show no error keeps what it read. -/
theorem Dev.loadErrors_of_clean {d : Dev} {l : Load} {errs : LineErrs}
    (h : ∀ pa : Nat, l.pa = some pa → ∀ e ∈ errs, e.1 ∉ linesOf pa l.data.length) : d.loadErrors l errs = (d, l) := by
  unfold Dev.loadErrors
  split
  · rfl
  · next pa hpa =>
    have hclean : (errs.any fun e => (linesOf pa l.data.length).contains e.1) = false := by
      simpa using fun a b hab => h pa hpa (a, b) hab
    simp only [hclean, Bool.false_eq_true, if_false]

namespace Claim

theorem loadsAndStoresEnd : LoadsAndStoresEnd := by
  intro s f i hkill hpre
  have hcalm (g : Frame → Frame) (hk : (g (s.frame f)).killing = (s.frame f).killing)
      (hp : (g (s.frame f)).preempt = (s.frame f).preempt) : (s.toDev.updFrame f g).settle f = s.toDev.updFrame f g :=
    Dev.settle_of_calm (by simpa [Dev.updFrame, hk] using hkill) (by simpa [Dev.updFrame, hp] using hpre)
  refine ⟨fun l k errs hl hready herr hpsn hclean => ⟨fun hdst => ?_, fun hdst => ?_⟩, fun t ht htag herr => ?_⟩
  · have hland : s.toDev.landLoad f i errs = s.toDev.updFrame f fun fr => { fr with
        loads := fr.loads.eraseIdx i
        regs := { fr.regs with s := fr.regs.s.set k.toNat (BitVec.ofNat 64 (unle l.data)) } } := by
      simp only [Dev.landLoad, hl, hready, herr, Dev.loadErrors_of_clean hclean, hdst, hpsn]
      rfl
    exact congrArg s.stepDev (by simp only [hland]; exact hcalm _ rfl rfl)
  · have hland : s.toDev.landLoad f i errs = s.toDev.updFrame f fun fr => { fr with
        loads := fr.loads.eraseIdx i
        regs := fr.regs.setT k { desc := BitVec.ofNat 512 (unle l.data), valid := true } } := by
      simp only [Dev.landLoad, hl, hready, herr, Dev.loadErrors_of_clean hclean, hdst, hpsn]
      rfl
    exact congrArg s.stepDev (by simp only [hland]; exact hcalm _ rfl rfl)
  · have hretire : s.toDev.retireStore f i = s.toDev.updFrame f fun fr => { fr with stores := fr.stores.eraseIdx i
    } := by
      simp [Dev.retireStore, ht, htag, herr]
    exact congrArg s.stepDev (by simp only [hretire]; exact hcalm _ rfl rfl)

theorem accessErrors : AccessErrors := by
  intro s f i e hbell
  dsimp only
  have hfault (x : Frame) (hctx : x.ctx = (s.frame f).ctx) (a : Acc6) (word : Word) :
      s.stepDev ((s.toDev.setFrame f x).accessFault f e a 0 word)
        = .next (stopped (withDev s ((s.toDev.setFrame f x).memFault (s.frame f).ctx e a 0 f.val)) f {
            code := 0x06, unit := 0, precise := false, addrV := true, addr := BitVec.ofNat 52 e.va, space := true
            insn := word }) := by
    simp only [Dev.accessFault, Dev.frame_setFrame, hctx, hbell]
    rfl
  refine ⟨fun l hl herr hdst => ?_, fun t ht herr => ?_⟩
  · refine (congrArg s.stepDev ?_).trans (hfault { s.frame f with loads := (s.frame f).loads.eraseIdx i } rfl .read
    l.word)
    have hne : (l.dst == Dest.eff) = false := by simpa using hdst
    simp only [Dev.errorAccess, hl, Option.bind_some, herr, Dev.failLoad, hne]
    rfl
  · refine (congrArg s.stepDev ?_).trans (hfault { s.frame f with stores := (s.frame f).stores.eraseIdx i } rfl .write
    t.word)
    simp only [Dev.errorAccess, ht, herr]

end Claim
end Sys2Proof.Machine

/-- Settles O33: what landing a load, retiring a store and answering with an error leave of the frame. -/
theorem accessesEnd : Obligations.AccessesEnd := ⟨Claim.loadsAndStoresEnd, Claim.accessErrors⟩

end

/-! ### Commands of management (R450–R454) -/

section
open Sys2Proof Sys2Proof.Machine Sys2Proof.Machine.Claim

namespace Sys2Proof.Machine

theorem Firmware.isOld_of_newer {x : Firmware} {seq : Word} (h : ∀ n : Word, x.lastSeq = some n → n.toNat < seq.toNat) :
    x.isOld seq = false := by
  unfold Firmware.isOld
  split
  · next n hlast => exact decide_eq_false (Nat.not_lt.mpr (h n hlast).le)
  · rfl

/-- No sequence number is newer than itself. -/
theorem Firmware.lastSeq_ne_of_newer {x : Firmware} {seq : Word} (h : ∀ n : Word, x.lastSeq = some n → n.toNat <
    seq.toNat) :
    x.lastSeq ≠ some seq :=
  fun hlast => Nat.lt_irrefl _ (h _ hlast)

/-- The four outcomes of an authentic command: old, repeated, or accepted. -/
theorem Dev.command_authentic {d : Dev} {au : Auth} {i : ApiaryCmd} (hrun : d.fwRuns = true)
    (hauth : d.authentic au i = true) :
    d.command au i = if d.sec.lastSeq = some au.seq then d.sayAgain
      else if d.sec.isOld au.seq then d.dropCmd else d.accept au.seq i (d.sec.took au.seq) := by
  simp only [Dev.command, hrun, hauth, Bool.not_true, Bool.false_eq_true, if_false, beq_iff_eq]

namespace Claim

/-- An accepted command is executed, and what it did is answered. -/
theorem exec_accepted {s : State} {au : Auth} {i : ApiaryCmd} (h : Accept s au i) :
    s.stepDev (s.toDev.command au i)
      = answered s au ((taken s au).runCmd i).1 ((taken s au).runCmd i).2.1 ((taken s au).runCmd i).2.2 := by
  obtain ⟨hrun, hauth, hnewer, hsched, hwait⟩ := h
  have hgo : s.toDev.command au i = (taken s au).runAndAnswer au.seq i := by
    refine (Dev.command_authentic hrun hauth).trans ((if_neg (Firmware.lastSeq_ne_of_newer hnewer)).trans ?_)
    rw [Firmware.isOld_of_newer hnewer]
    simp only [Bool.false_eq_true, if_false, Dev.accept, hsched, hwait, List.isEmpty_nil, Bool.and_self, if_true]
    rfl
  have hlast : ((taken s au).sec.lastSeq == some au.seq) = true := beq_self_eq_true (some au.seq)
  rw [hgo, Dev.runAndAnswer, if_pos hlast]
  rfl

/-- A command that ran without a refusal. -/
theorem exec_ran {s : State} {au : Auth} {i : ApiaryCmd} {d : Dev} (h : Accept s au i) (hrun : (taken s au).runCmd i =
    d.ran) :
    s.stepDev (s.toDev.command au i) = answered s au d := by
  rw [exec_accepted h, hrun]
  rfl

end Claim
end Sys2Proof.Machine

/-- Settles O14: POWER_CFG takes its limits within the ranges (`Dev.runPower`) and draws the reason of its refusal
outside. -/
theorem throttleLimits : Obligations.ThrottleLimits := by
  refine ⟨rfl, fun s au w c h => ⟨fun hw hw' hc hc' => ?_, fun hout => ?_⟩⟩
  · exact exec_ran h (if_neg (by omega))
  · have hbad : (taken s au).runCmd (.powerCfg w c) = (taken s au).badBody := if_pos hout
    refine (exec_accepted h).trans ?_
    rw [hbad]
    rfl

end

/-! ### Management of ports, plan, frames and power (R22, R25, R368–R379, R454) -/

section
open Sys2Proof Sys2Proof.Machine Sys2Proof.Machine.Claim

namespace Sys2Proof.Machine

/-- Two devices with the same maps of service, and whose frames have the same state and service record. -/
structure Dev.SameService (d e : Dev) : Prop where
  insvc : e.insvc = d.insvc
  frame : ∀ q : FrameId, (e.frame q).svc = (d.frame q).svc ∧ (e.frame q).state = (d.frame q).state

theorem Dev.SameService.refl (d : Dev) : d.SameService d := ⟨rfl, fun _ => ⟨rfl, rfl⟩⟩

theorem Dev.SameService.trans {a b c : Dev} (h : a.SameService b) (k : b.SameService c) : a.SameService c :=
  ⟨k.insvc.trans h.insvc, fun q => ⟨(k.frame q).1.trans (h.frame q).1, (k.frame q).2.trans (h.frame q).2⟩⟩

/-- A device with the same frames and maps. -/
theorem Dev.SameService.of_eq {d e : Dev} (hfr : e.fr = d.fr) (hin : e.insvc = d.insvc) : d.SameService e :=
  ⟨hin, fun q => by simp [Dev.frame, hfr]⟩

theorem Dev.SameService.updFrame {d : Dev} {f : FrameId} {g : Frame → Frame} (hsvc : (g (d.frame f)).svc =
    (d.frame f).svc)
    (hst : (g (d.frame f)).state = (d.frame f).state) : d.SameService (d.updFrame f g) := by
  refine ⟨rfl, fun q => ?_⟩
  by_cases hq : q = f
  · subst hq
    simp [hsvc, hst]
  · rw [Dev.frame_updFrame_ne d f q g (Ne.symm hq)]
    exact ⟨rfl, rfl⟩

theorem Dev.SameService.foldl {β : Type} {g : Dev → β → Dev} (hg : ∀ d b, Dev.SameService d (g d b)) (l : List β)
    (d : Dev) :
    d.SameService (l.foldl g d) := by
  induction l generalizing d with
  | nil => exact .refl d
  | cons b l ih => exact (hg d b).trans (ih _)

theorem Dev.msix_same (d : Dev) (v : Nat) : d.SameService (d.msix v) := by
  unfold Dev.msix
  split
  · exact ⟨rfl, fun _ => ⟨rfl, rfl⟩⟩
  · exact ⟨rfl, fun _ => ⟨rfl, rfl⟩⟩

theorem Dev.irq_same (d : Dev) (b : Nat) : d.SameService (d.irq b) :=
  let x : Dev := { d with hif := { d.hif with irqCause := d.hif.irqCause ||| (1#4 <<< b) } }
  have h : d.SameService x := ⟨rfl, fun _ => ⟨rfl, rfl⟩⟩
  h.trans (x.msix_same 0)

theorem Dev.ledger_same (d : Dev) (cls code : Nat) (x : LedF) : d.SameService (d.ledger cls code x) := by
  simp only [Dev.ledger]
  split
  · exact .refl d
  · split
    · exact ⟨rfl, fun _ => ⟨rfl, rfl⟩⟩
    · refine Dev.SameService.trans ?_ (Dev.irq_same _ 2)
      exact .of_eq (by rw [Dev.write]) (by rw [Dev.write])

theorem Dev.unverified_same (d : Dev) (t : GTile) : d.SameService (d.unverified t) := by
  unfold Dev.unverified Dev.guardRecord
  refine Dev.SameService.trans (Dev.SameService.trans ?_ (Dev.ledger_same _ _ _ _)) ⟨rfl, fun _ => ⟨rfl, rfl⟩⟩
  exact ⟨rfl, fun _ => ⟨rfl, rfl⟩⟩

/-- Guard work put on a frame's list. -/
theorem Dev.queueWork_same (d : Dev) (id : Nat) (u : GTile → GTile) (g : FrameId) :
    d.SameService ((d.updTile id u).updFrame g fun fr => { fr with guardWork := fr.guardWork ++ [id] }) :=
  have h : d.SameService (d.updTile id u) := ⟨rfl, fun _ => ⟨rfl, rfl⟩⟩
  h.trans (.updFrame rfl rfl)

theorem Dev.assignGuard_same (d : Dev) (id : Nat) : d.SameService (d.assignGuard id) := by
  unfold Dev.assignGuard
  split
  · exact .refl d
  · split
    · exact ⟨rfl, fun _ => ⟨rfl, rfl⟩⟩
    · split
      · exact d.unverified_same _
      · exact d.queueWork_same _ _ _

theorem Dev.assignReferee_same (d : Dev) (id : Nat) : d.SameService (d.assignReferee id) := by
  unfold Dev.assignReferee
  split
  · exact .refl d
  · split
    · exact ⟨rfl, fun _ => ⟨rfl, rfl⟩⟩
    · split
      · exact d.unverified_same _
      · exact d.queueWork_same _ _ _

/-- Moving guard work to other frames changes no frame's service. -/
theorem Dev.moveGuardWork_same (d : Dev) (f : FrameId) : d.SameService (d.moveGuardWork f) := by
  unfold Dev.moveGuardWork
  refine Dev.SameService.trans (.updFrame rfl rfl) (Dev.SameService.foldl (fun e id => ?_) _ _)
  split
  · exact .refl e
  · split
    · exact e.assignGuard_same id
    · exact e.assignReferee_same id

/-- One frame leaves service: its own record says so, the generation moves once, and no other frame's service changes.
-/
theorem Dev.leaveService_one (d : Dev) (f : FrameId) (cause : Nat) :
    let g := d.leaveService [(f, cause)]
    (g.frame f).state = .outOfService ∧ (g.frame f).svc = { (d.frame f).svc with
        insvc := false, cause := BitVec.ofNat 4 cause, atGen := d.insvc.gen + 1 }
      ∧ g.insvc.gen = d.insvc.gen + 1
      ∧ ∀ q : FrameId, q ≠ f → (g.frame q).svc = (d.frame q).svc ∧ (g.frame q).state = (d.frame q).state := by
  intro g
  let e : Dev := ({ d with insvc := { d.insvc with gen := d.insvc.gen + 1 } } : Dev).updFrame f fun fr => { fr with
      state := .outOfService, stallV := false, wantTake := false
      geom := { fr.geom with rows := 0, colgrp := 0, byp := 0, spares := 0, fillAdj := 0 }
      svc := { fr.svc with insvc := false, cause := BitVec.ofNat 4 cause, atGen := d.insvc.gen + 1 } }
  obtain ⟨hin, hfr⟩ : e.SameService g := (e.moveGuardWork_same f).trans (Dev.ledger_same _ _ _ _)
  have hown : e.frame f = _ := Dev.frame_updFrame _ f _
  refine ⟨(hfr f).2.trans (by rw [hown]), (hfr f).1.trans (by rw [hown]; rfl), (congrArg InSvc.gen hin).trans rfl,
    fun q hq => ?_⟩
  have hother : e.frame q = d.frame q := Dev.frame_updFrame_ne _ f q _ (Ne.symm hq)
  rw [(hfr q).1, (hfr q).2, hother]
  exact ⟨rfl, rfl⟩

/-- Management's marks on frames, before any of them leaves service. -/
def Dev.markExcluded (d : Dev) (fs : List FrameId) : Dev :=
  fs.foldl (fun d f => d.updFrame f fun fr => { fr with svc := { fr.svc with excluded := true } }) d

/-- A mark changes nothing of a frame but the mark. -/
theorem Dev.frame_markExcluded (d : Dev) (fs : List FrameId) (q : FrameId) :
    ∃ b : Bool, (d.markExcluded fs).frame q = { d.frame q with svc := { (d.frame q).svc with excluded := b } } := by
  induction fs generalizing d with
  | nil => exact ⟨(d.frame q).svc.excluded, rfl⟩
  | cons f fs ih =>
    obtain ⟨b, hb⟩ := ih (d.updFrame f fun fr => { fr with svc := { fr.svc with excluded := true } })
    refine ⟨b, hb.trans ?_⟩
    by_cases hq : q = f
    · subst hq
      rw [Dev.frame_updFrame]
    · rw [Dev.frame_updFrame_ne _ f q _ (Ne.symm hq)]

/-- Nothing of the device but its frames is marked. -/
theorem Dev.markExcluded_rest (d : Dev) (fs : List FrameId) :
    (d.markExcluded fs).up = d.up ∧ (d.markExcluded fs).insvc = d.insvc := by
  induction fs generalizing d with
  | nil => exact ⟨rfl, rfl⟩
  | cons f fs ih => exact ih (d.updFrame f fun fr => { fr with svc := { fr.svc with excluded := true } })

/-- The frames that FRAME_EXCLUDE takes out of service at once. -/
def Dev.leavesNow (d : Dev) (f : FrameId) : Bool :=
  (d.frame f).svc.insvc && !(d.frame f).stallV && (d.frame f).free

theorem Dev.leavesNow_markExcluded (d : Dev) (fs : List FrameId) (f : FrameId) :
    (d.markExcluded fs).leavesNow f = d.leavesNow f := by
  obtain ⟨b, hb⟩ := d.frame_markExcluded fs f
  unfold Dev.leavesNow
  rw [hb]
  rfl

theorem Dev.runExclude_eq (d : Dev) (mask : BitVec 384) :
    let fs := allFrames.filter fun f => mask.getLsbD f.val
    let e := d.markExcluded fs
    d.runExclude mask = (if d.up then e.leaveService ((fs.filter d.leavesNow).map fun f =>
      (f, if (d.frame f).svc.flagged then 2 else 4)) else e).ran := by
  intro fs e
  have hup : e.up = d.up := (d.markExcluded_rest fs).1
  have hnow : fs.filter e.leavesNow = fs.filter d.leavesNow :=
    List.filter_congr fun f _ => d.leavesNow_markExcluded fs f
  have hflag (f : FrameId) : (e.frame f).svc.flagged = (d.frame f).svc.flagged := by
    obtain ⟨b, hb⟩ := d.frame_markExcluded fs f
    rw [hb]
  have hrun : d.runExclude mask = if e.up then (e.leaveService ((fs.filter e.leavesNow).map fun f =>
      (f, if (e.frame f).svc.flagged then 2 else 4))).ran else e.ran := rfl
  rw [hrun, hup, hnow]
  simp only [hflag]
  split <;> rfl

/-! What each command runs when nothing refuses it. -/

theorem Dev.runLeave_ok {d : Dev} {p : Port} (hst : (d.port p).state = .quarantined) (hmay : d.mayTrain p = true) :
    d.runLeave p = (d.startDetect p).ran :=
  if_pos (by simp [hst, hmay])

theorem Dev.runQuarantine_active {d : Dev} {p : Port} (hst : (d.port p).state = .active) :
    d.runQuarantine p = (((d.sendControl p [6, 4]).quarantine p 4).fillPlaces.ledger 0x06 0x06
      { ledPort p (d.port p).peerId with sub := 4 }).ran := by
  simp only [Dev.runQuarantine, hst, beq_self_eq_true, if_true]

theorem Dev.runQuarantine_other {d : Dev} {p : Port} (hst : (d.port p).state ≠ .active) :
    d.runQuarantine p = ((d.quarantine p 4).fillPlaces.ledger 0x06 0x06
      { ledPort p (d.port p).peerId with sub := 4 }).ran := by
  simp only [Dev.runQuarantine, beq_eq_false_iff_ne.mpr hst, Bool.false_eq_true, if_false]

theorem Dev.runRetrain_active {d : Dev} {p : Port} (hst : (d.port p).state = .active) :
    d.runRetrain p = ((d.sendControl p [5, 3]).retrainPort p 3).fillPlaces.ran :=
  if_pos (by simp [hst])

theorem Dev.runRetrain_other {d : Dev} {p : Port} (hst : (d.port p).state ≠ .active)
    (hq : (d.port p).state ≠ .quarantined) (hn : (d.port p).state ≠ .notReady) (hmay : d.mayTrain p = true) :
    d.runRetrain p = (d.startDetect p).fillPlaces.ran :=
  (if_neg (by simp [hst])).trans (if_neg (by simp [hq, hn, hmay]))

/-- A repair list that knows its places, while no context is in use. -/
theorem Dev.runRepairs_ok {d : Dev} {more : Bool} {es : List RepairEntry} (hfree : ∀ c ∈ d.mkt.ctxs, c.2.state = .free)
    (hknown : es.all d.mem.knows = true) :
    d.runRepairs more es = if more then
        ({ d with sec := { d.sec with repairFrags := d.sec.repairFrags ++ es } } : Dev).ran
      else (({ d with sec := { d.sec with repairFrags := [], repairDone := true } } : Dev).applyRepairs
        (d.sec.bist ++ (d.sec.repairFrags ++ es))).readyIfDone.ran := by
  have hany : (d.mkt.ctxs.any fun c => c.2.state != .free) = false := by
    simpa using fun a b hab => hfree (a, b) hab
  simp only [Dev.runRepairs, hany, hknown, Bool.false_eq_true, if_false, Bool.not_true]

/-- A wiring plan for this device's own place: no record, and the ports, the routes and the Waggle tree follow it. -/
theorem Dev.runPlan_own {d : Dev} {dev : BitVec 16} {gen : BitVec 32} {es : List PlanEntry} (hlen : es.length = 32)
    (hbit : dev.getLsbD 15 = false) (hboard : dev.toNat / 8 % 8 = d.dbg.board.toNat)
    (hslot : dev.toNat % 8 = d.dbg.slot.toNat) :
    d.runPlan dev gen es = Dev.ran
      (let e := ({ d with
          lnk := { d.lnk with devId := dev.setWidth 15, devV := true, plan := some es, planGen := gen }
          wag := { d.wag with slot := dev.setWidth 6 } } : Dev)
       let e : Dev := { e with lnk := { e.lnk with rtr := e.lnk.rtr.putD 0 (dev.toNat / 64) 0 } }
       let e := (List.finRange 32).foldl (fun d p => (d.recheckPort p).stopTraining p) e
       let e := e.setRtb (dev.toNat % 64) 0
       (if e.wag.rootNamed then e.reform else e.setRoot (lowestId e.lnk.devId es) false).fillPlaces) := by
  have hok : (dev.toNat / 8 % 8 == d.dbg.board.toNat && dev.toNat % 8 == d.dbg.slot.toNat) = true := by
    simp [hboard, hslot]
  refine (if_neg (not_or.mpr ⟨not_not.mpr hlen, Bool.eq_false_iff.mp hbit⟩)).trans ?_
  simp only [hok, if_true]

namespace Claim

theorem frameExcluded {s : State} {au : Auth} {mask : BitVec 384} (h : Accept s au (.frameExclude mask)) :
    let d := taken s au
    let fs := allFrames.filter fun f => mask.getLsbD f.val
    let e := d.markExcluded fs
    let now := fs.filter d.leavesNow
    (s.up = false ∨ now = [] → exec (.frameExclude au mask) s = answered s au e)
      ∧ (s.up = true → ∀ f : FrameId, now = [f] → ∃ g : Dev, exec (.frameExclude au mask) s = answered s au g
        ∧ (g.frame f).state = .outOfService ∧ (g.frame f).svc.insvc = false
        ∧ (g.frame f).svc.cause = (if (s.frame f).svc.flagged = true then 2 else 4)
        ∧ (g.frame f).svc.atGen = s.insvc.gen + 1 ∧ g.insvc.gen = s.insvc.gen + 1
        ∧ ∀ q : FrameId, q ≠ f → (g.frame q).svc = (e.frame q).svc ∧ (g.frame q).state = (s.frame q).state) := by
  intro d fs e now
  have hrun := d.runExclude_eq mask
  refine ⟨fun hnone => exec_ran h (hrun.trans ?_), fun hup f hf => ?_⟩
  · rcases hnone with hdown | hempty
    · exact congrArg Dev.ran (if_neg (by rw [show d.up = false from hdown]; decide))
    · refine congrArg Dev.ran ?_
      rw [show fs.filter d.leavesNow = [] from hempty]
      exact ite_self _
  · let g := e.leaveService [(f, if (d.frame f).svc.flagged then 2 else 4)]
    have hgo : d.runExclude mask = g.ran := by
      refine hrun.trans (congrArg Dev.ran ((if_pos hup).trans ?_))
      rw [show fs.filter d.leavesNow = [f] from hf]
      rfl
    obtain ⟨hst, hsvc, hgen, hother⟩ := e.leaveService_one f (if (d.frame f).svc.flagged then 2 else 4)
    have hold : e.insvc = s.insvc := (d.markExcluded_rest fs).2
    rw [hold] at hsvc hgen
    refine ⟨g, exec_ran h hgo, hst, ?_, ?_, ?_, hgen, fun q hq => ?_⟩
    · rw [hsvc]
    · rw [hsvc]
      by_cases hflag : (s.frame f).svc.flagged = true
      · rw [if_pos hflag, if_pos (show (d.frame f).svc.flagged = true from hflag)]
        rfl
      · rw [if_neg hflag, if_neg (show ¬ (d.frame f).svc.flagged = true from hflag)]
        rfl
    · rw [hsvc]
    · obtain ⟨b, hb⟩ := d.frame_markExcluded fs q
      exact ⟨(hother q hq).1, (hother q hq).2.trans (by rw [hb]; rfl)⟩

end Claim
end Sys2Proof.Machine

/-- Settles O11: each accepted command runs as its lemma above says; for FRAME_EXCLUDE see `Claim.frameExcluded`. -/
theorem managesDevice : Obligations.ManagesDevice := by
  intro s au d out
  refine ⟨fun p hst hmay h => exec_ran h (Dev.runLeave_ok hst hmay), fun p hst h => exec_ran h (Dev.runQuarantine_other
    hst),
    fun p hst h => exec_ran h (Dev.runQuarantine_active hst),
    fun p hst hq hn hmay h => exec_ran h (Dev.runRetrain_other hst hq hn hmay),
    fun p hst h => exec_ran h (Dev.runRetrain_active hst),
    fun dev gen es hlen hbit hboard hslot h => ?_,
    fun mask hs hle hlen h => exec_ran h (if_neg (not_or.mpr ⟨not_lt.mpr hle, not_not.mpr hlen⟩)), fun es hfree hknown
      => ⟨fun h => ?_, fun h => ?_⟩,
    fun ls hlen h => exec_ran h (if_neg (not_not.mpr hlen)), fun root h => exec_ran h rfl, fun mask h => frameExcluded
      h,
    fun w c hw hw' hc hc' h => exec_ran h (if_neg (by omega))⟩
  · have hrun : d.runCmd (.wiringPlan dev gen es) = _ := Dev.runPlan_own (d := d) hlen hbit hboard hslot
    exact exec_ran h hrun
  · exact exec_ran h (Dev.runRepairs_ok (more := true) hfree hknown)
  · exact exec_ran h (Dev.runRepairs_ok (more := false) hfree hknown)

end

/-! ### Which commands are executed, and what jobs and barrier groups are told (R450–R453, R398) -/

section
open Sys2Proof Sys2Proof.Machine Sys2Proof.Machine.Claim

namespace Sys2Proof.Machine

/-- A key that is signed by itself. -/
theorem Dev.offerKey_signed {d : Dev} {au : Auth} {key : List Byte} (hrun : d.fwRuns = true)
    (hsig : Auth.signedBy au 0x11 false key = true) :
    d.offerKey au key = if d.sec.lastSeq = some au.seq ∧ d.sec.key = some key then d.sayAgain
      else if d.mayOwn key then
        d.accept au.seq (.mgmtKey key) (if d.sec.isOld au.seq then d.sec else d.sec.took au.seq)
      else d.dropCmd := by
  simp only [Dev.offerKey, hrun, hsig, Bool.not_true, Bool.false_eq_true, if_false, Bool.and_eq_true, beq_iff_eq,
    Bool.not_eq_true', ← Bool.not_eq_true, ite_not]

theorem Dev.mayOwn_iff (d : Dev) (key : List Byte) : d.mayOwn key = true ↔
    (∃ dg, d.sec.fuses.owner = some dg ∧ shake256 key 32 = dg) ∨ (d.sec.fuses.owner = none ∧ d.sec.key = none) := by
  unfold Dev.mayOwn
  split
  · next dg h => simp [h, eq_comm]
  · next h => simp [h]

theorem Dev.sayAgain_of_ne {d : Dev} (h : d.sec.lastResult ≠ []) : d.sayAgain = d.apiaryTx 0x12 d.sec.lastResult :=
  if_neg (by simpa using h)

theorem Dev.sayAgain_of_nil {d : Dev} (h : d.sec.lastResult = []) : d.sayAgain = d :=
  if_pos (by simp [h])

/-- While the scheduler core restarts, up to 8 commands wait. -/
theorem Dev.accept_waits {d : Dev} {seq : Word} {i : ApiaryCmd} {x : Firmware} (hsched : d.schedUp = false)
    (hroom : d.sec.cmdWait.length < 8) :
    d.accept seq i x = { d with sec := { x with cmdWait := d.sec.cmdWait ++ [(seq, i)] } } :=
  (if_neg (by simp [hsched])).trans (if_neg (by omega))

theorem Dev.accept_busy {d : Dev} {seq : Word} {i : ApiaryCmd} {x : Firmware} (hsched : d.schedUp = false)
    (hfull : 8 ≤ d.sec.cmdWait.length) : d.accept seq i x = d.apiaryTx 0x12 (resultBody seq 3 0) :=
  (if_neg (by simp [hsched])).trans (if_pos hfull)

/-- A group whose episode is in progress takes no setup. -/
theorem Dev.runBarrier_arrived {d : Dev} {r : BarReq} (hsized : BarReq.wellSized r = true)
    (harr : (d.group r.group.val).state = .arrived) : d.runBarrier r = d.refused := by
  simp only [Dev.runBarrier, hsized, harr, Bool.not_true, Bool.false_eq_true, if_false, beq_self_eq_true, if_true]

namespace Claim

/-- A message without earlier fragments is signed when SIGNED stands alone and its signature covers header and body. -/
theorem signedBy_single {au : Auth} {type : Nat} {key : List Byte} (h : au.before = []) :
    Auth.signedBy au type false key = true ↔ au.flags.getLsbD 0 = true ∧ au.flags.getLsbD 1 = false
      ∧ au.body.length ≤ 1280
      ∧ ed448Verify key (apiaryHeader type au.body.length au.flags.toNat au.session au.seq ++ au.body) au.sig =
        true := by
  simp [Auth.signedBy, Auth.parts, h, and_assoc]

end Claim
end Sys2Proof.Machine

/-- Settles O13: the outcomes of `Dev.command` and `Dev.offerKey`, by who signed and how SEQ compares with the last. -/
theorem acceptsCommands : Obligations.AcceptsCommands := by
  intro s au root hrun drop newer signed ok again
  refine ⟨fun k hkey hone => ?_, fun hkey => ?_, fun hbad => congrArg s.stepDev ?_, fun hsig => ?_,
    fun key => ?_⟩
  · have hauth : signed = (au.session == s.sec.session && Auth.signedBy au 0x24 false k) := by
      simp only [signed, Dev.authentic, hkey]
      rfl
    rw [hauth, Bool.and_eq_true, beq_iff_eq, signedBy_single hone]
  · simp only [signed, Dev.authentic, hkey]
  · exact (if_neg (by simp [hrun])).trans (if_pos (by simpa using hbad))
  · have hgo := Dev.command_authentic hrun hsig
    have hsay (h : s.sec.lastSeq = some au.seq) : s.toDev.command au (.waggleRoot root) = s.toDev.sayAgain :=
      hgo.trans (if_pos h)
    have hnew (h : newer) : s.toDev.command au (.waggleRoot root)
        = s.toDev.accept au.seq (.waggleRoot root) (s.sec.took au.seq) := by
      refine hgo.trans ((if_neg (Firmware.lastSeq_ne_of_newer h)).trans (if_neg ?_))
      rw [Firmware.isOld_of_newer h]
      decide
    refine ⟨fun n hlast hlt => congrArg s.stepDev ?_, fun hlast hres => congrArg s.stepDev ?_,
      fun hlast hres => congrArg s.stepDev ?_, fun hsched h => ⟨fun hroom => congrArg s.stepDev ?_,
        fun hfull => congrArg s.stepDev ?_⟩⟩
    · refine hgo.trans ((if_neg fun heq => ?_).trans (if_pos ?_))
      · obtain rfl : n = au.seq := Option.some.inj (hlast.symm.trans heq)
        exact Nat.lt_irrefl _ hlt
      · simp only [Firmware.isOld, hlast, hlt, decide_true]
    · exact (hsay hlast).trans (Dev.sayAgain_of_ne hres)
    · exact (hsay hlast).trans (Dev.sayAgain_of_nil hres)
    · exact (hnew h).trans (Dev.accept_waits hsched hroom)
    · exact (hnew h).trans (Dev.accept_busy hsched hfull)
  · intro own
    refine ⟨fun hbad => congrArg s.stepDev ((if_neg (by simp [hrun])).trans (if_pos (by simp [hbad]))), fun hsig => ?_⟩
    have hgo := Dev.offerKey_signed hrun hsig
    have hown : s.toDev.mayOwn key = true ↔ own := Dev.mayOwn_iff _ key
    have hnew (ho : own) (h : newer) : s.toDev.offerKey au key
        = s.toDev.accept au.seq (.mgmtKey key) (s.sec.took au.seq) := by
      refine hgo.trans ((if_neg fun hboth => Firmware.lastSeq_ne_of_newer h hboth.1).trans ((if_pos (hown.mpr ho)).trans
        ?_))
      rw [Firmware.isOld_of_newer h]
      rfl
    refine ⟨fun hlast hkey hres => congrArg s.stepDev ?_, fun hother hno => congrArg s.stepDev ?_,
      fun ho h hsched hwait => congrArg s.stepDev ?_, fun ho h hsched hroom => congrArg s.stepDev ?_⟩
    · exact (hgo.trans (if_pos ⟨hlast, hkey⟩)).trans (Dev.sayAgain_of_ne hres)
    · refine hgo.trans ((if_neg ?_).trans (if_neg fun hmay => hno (hown.mp hmay)))
      rintro ⟨hlast, hkey⟩
      exact hother.elim (· hlast) (· hkey)
    · let x : Dev := { s.toDev with sec := s.sec.took au.seq }
      have hkey : x.runKey key = ({ x with sec := { x.sec with key := some key } } : Dev).ran := if_pos (hown.mpr ho)
      have hacc : s.toDev.accept au.seq (.mgmtKey key) (s.sec.took au.seq) = x.runAndAnswer au.seq (.mgmtKey key) :=
        if_pos (by simp [hsched, hwait])
      rw [hnew ho h, hacc, Dev.runAndAnswer, show x.runCmd (.mgmtKey key) = _ from hkey]
      exact congrArg (fun d : Dev => d.apiaryTx 0x12 ok) (if_pos (beq_self_eq_true (some au.seq)))
    · exact (hnew ho h).trans (Dev.accept_waits hsched hroom)

namespace Sys2Proof.Machine.Claim

/-- A signature that checks under the neutral point as a key: that point and the scalar zero. -/
def neutralSig : List Byte := le 57 1 ++ zeros 57

/-- A command that it signs. -/
def firstCommand : Auth := { flags := 1, session := 0, seq := 1, body := [], sig := neutralSig }

/-- A device whose key is that point, and whose barrier group 2 has arrived. -/
def busyGroup : State :=
  { State.reset with
    sec := { phase := .ready, key := some (le 57 1) }
    wag := { State.reset.wag with groups := [(2, { state := .arrived })] } }

/-- Its setup. -/
def busySetup : BarReq :=
  { group := 2, mode := 0, nIn := 2, nOut := 1, member := 0, key := 7, ctx := 1, job := 5, membersA := 0x2000
    relSem := 0xFFFFFFFF, members := [0, 1] }

/-- What a command that is refused with a free reason draws stays drawn. -/
theorem fresh_of_refused {s : State} {au : Auth} {i : ApiaryCmd} (h : Accept s au i)
    (hrun : (taken s au).runCmd i = (taken s au).refused) {status reason : Nat}
    (heq : s.stepDev (s.toDev.command au i) = answered s au (taken s au) status reason) : False := by
  rw [exec_accepted h, hrun] at heq
  have hfresh : s.fresh + 1 = s.fresh := congrArg (fun x : State => x.fresh) (Host.Outcome.next.inj heq)
  omega

end Sys2Proof.Machine.Claim

/-- Refutes O12: BARRIER_SETUP of a group that has ARRIVED is refused with a free reason, which is drawn from the
device's
free values; the statement has the reason 0 and nothing drawn. -/
theorem not_managesJobs : ¬ Obligations.ManagesJobs := by
  intro h
  obtain ⟨-, hbar, -⟩ := h busyGroup firstCommand
  have hacc : Accept busyGroup firstCommand (.barrierSetup busySetup) :=
    ⟨by decide +kernel, by decide +kernel, by simp [busyGroup], by decide +kernel, rfl⟩
  have hsized : BarReq.wellSized busySetup = true := by decide +kernel
  have harr : ((taken busyGroup firstCommand).group busySetup.group.val).state = .arrived := by decide +kernel
  refine fresh_of_refused hacc ?_ ((hbar busySetup hsized hacc).1 harr)
  exact Dev.runBarrier_arrived hsized harr

end

/-! ### Level 5 resets and what the ROM does after them (R444, R470–R473, R483, R494–R497) -/

section
open Sys2Proof Sys2Proof.Machine Sys2Proof.Machine.Claim

namespace Sys2Proof.Machine

theorem Dev.coldNow_of_runs {d : Dev} (h : d.sec.phase ≠ .off ∧ d.sec.phase ≠ .reset) (cause : Nat) (rail tj : Nat) :
    d.coldNow cause rail tj = cleared d cause rail tj :=
  if_neg (by simp [h])

/-- Steps that change no pin change none together. -/
theorem foldl_dbg {β : Type} {g : Dev → β → Dev} (hg : ∀ d b, (g d b).dbg = d.dbg) (l : List β) (d : Dev) :
    (l.foldl g d).dbg = d.dbg := by
  induction l generalizing d with
  | nil => rfl
  | cons b l ih => exact (ih _).trans (hg d b)

/-- Sending the rails to CODE 28 changes no pin. -/
theorem Dev.homeRails_dbg (d : Dev) : d.homeRails.dbg = d.dbg := by
  unfold Dev.homeRails
  refine foldl_dbg (fun e i => ?_) (List.range 16) d
  dsimp only
  exact foldl_dbg (fun x k => by rfl) _ e

/-- After a thermal trip the ROM holds. -/
theorem Dev.romStart_of_hot {d : Dev} (h : d.dbg.thermN = true) :
    d.romStart = { d.homeRails with sec := { d.homeRails.sec with phase := .thermalHold } } := by
  simp only [Dev.romStart, Dev.homeRails_dbg, h, if_true]

/-- A ROM that is not held goes on to the end of its self-check. -/
theorem Dev.romStart_of_cool {d : Dev} (h : d.dbg.thermN = false) : d.romStart = d.homeRails.selfChecked := by
  simp only [Dev.romStart, Dev.homeRails_dbg, h, Bool.false_eq_true, if_false]

/-- In production test the ROM holds at that end. -/
theorem Dev.selfChecked_of_test {d : Dev} (h : d.dbg.test = true) :
    d.selfChecked = { d with sec := { d.sec with phase := .testHold } } :=
  if_pos h

theorem Dev.trainHost_rest (d : Dev) :
    d.trainHost.mem = d.mem ∧ d.trainHost.sec = d.sec ∧ d.trainHost.lnk = d.lnk
      ∧ d.trainHost.hif.agreed = d.hif.agreed := by
  unfold Dev.trainHost
  split <;> exact ⟨rfl, rfl, rfl, rfl⟩

/-- A repair changes memory's tables, and what it makes of them follows from memory alone. -/
theorem Dev.applyRepair_rest (d : Dev) (e : RepairEntry) : (d.applyRepair e).sec = d.sec
    ∧ (d.applyRepair e).lnk = d.lnk ∧ (d.applyRepair e).hif = d.hif := by
  unfold Dev.applyRepair
  dsimp only
  split <;> split <;> exact ⟨rfl, rfl, rfl⟩

theorem Dev.applyRepair_mem {d e : Dev} (h : d.mem = e.mem) (r : RepairEntry) :
    (d.applyRepair r).mem = (e.applyRepair r).mem := by
  simp only [Dev.applyRepair, h]
  split <;> split <;> simp only [h]

theorem Dev.applyRepairs_rest (d : Dev) (es : List RepairEntry) : (d.applyRepairs es).sec = d.sec
    ∧ (d.applyRepairs es).lnk = d.lnk ∧ (d.applyRepairs es).hif = d.hif :=
  List.foldlRecOn (motive := fun e : Dev => e.sec = d.sec ∧ e.lnk = d.lnk ∧ e.hif = d.hif) _ _ ⟨rfl, rfl, rfl⟩
    fun e ⟨hs, hl, hh⟩ r _ =>
      have ⟨ks, kl, kh⟩ := e.applyRepair_rest r
      ⟨ks.trans hs, kl.trans hl, kh.trans hh⟩

theorem Dev.applyRepairs_mem {d e : Dev} (h : d.mem = e.mem) (es : List RepairEntry) :
    (d.applyRepairs es).mem = (e.applyRepairs es).mem := by
  induction es generalizing d e with
  | nil => exact h
  | cons r es ih => exact ih (Dev.applyRepair_mem h r)

/-- With no driver's trace agreed, no point is traced. -/
theorem Dev.trace_of_agreed_zero {d : Dev} (h : d.hif.agreed = 0) (point index ctx a0 a1 : Nat) :
    d.trace point index ctx a0 a1 = d := by
  simp [Dev.trace, h]

/-- A port that is not ACTIVE changes its state alone, where nothing is traced. -/
theorem Dev.movePort_quiet {d : Dev} (h : d.hif.agreed = 0) {p : Port} (hp : (d.port p).state ≠ .active) (st : PState) :
    let e := d.movePort p st
    e.mem = d.mem ∧ e.sec = d.sec ∧ e.hif = d.hif ∧ (e.port p).state = st ∧ ∀ q, q ≠ p → e.port q = d.port q := by
  intro e
  have hno : ((d.port p).state == .active) = false := by simpa using hp
  by_cases hst : (d.port p).state = st
  · have he : e = d := if_pos (by simpa using hst)
    rw [he]
    exact ⟨rfl, rfl, rfl, hst, fun _ _ => rfl⟩
  · let x := (d.setPort p { d.port p with state := st }).emit (if st == .notReady then .notReady p else .train p st)
    have he : e = x := by
      simp only [e, Dev.movePort, beq_eq_false_iff_ne.mpr hst, hno, Bool.false_eq_true, if_false]
      exact Dev.trace_of_agreed_zero (d := x) h ..
    rw [he]
    exact ⟨rfl, rfl, rfl, congrArg LPort.state (Dev.port_setPort d p _),
      fun q hq => Dev.port_setPort_ne d p q _ (Ne.symm hq)⟩

/-- So do all the ports of a list. -/
theorem Dev.movePorts_quiet (st : PState) (hst : st ≠ .active) (ps : List Port) {d : Dev} (h : d.hif.agreed = 0)
    (hp : ∀ p : Port, (d.port p).state ≠ .active) :
    let e := ps.foldl (fun d p => d.movePort p st) d
    e.mem = d.mem ∧ e.sec = d.sec ∧ ∀ p : Port, p ∈ ps ∨ (d.port p).state = st → (e.port p).state = st := by
  induction ps generalizing d with
  | nil => exact ⟨rfl, rfl, fun p hp => hp.resolve_left (by simp)⟩
  | cons q ps ih =>
    obtain ⟨hmem, hsec, hhif, hq, hother⟩ := Dev.movePort_quiet h (hp q) st
    have hact : ∀ p : Port, ((d.movePort q st).port p).state ≠ .active := fun p => by
      by_cases heq : p = q
      · rw [heq, hq]
        exact hst
      · rw [hother p heq]
        exact hp p
    obtain ⟨kmem, ksec, kst⟩ := ih (hhif ▸ h) hact
    refine ⟨kmem.trans hmem, ksec.trans hsec, fun p hin => kst p ?_⟩
    by_cases heq : p = q
    · exact .inr (heq ▸ hq)
    · rw [hother p heq]
      exact hin.imp_left fun hc => (List.mem_cons.mp hc).resolve_left heq

/-- What the end of the ROM's self-check makes of memory, the boot and the ports, while nothing runs on the links. -/
theorem Dev.romDone_quiet {d : Dev} (h : d.hif.agreed = 0) (hp : ∀ p : Port, (d.port p).state ≠ .active) :
    d.romDone.mem = (d.applyRepairs d.sec.bist).mem ∧ d.romDone.sec = { d.sec with
        phase := .apiaryUp, serial := d.sec.fuses.serial, engineKey := some d.sec.fuses.identitySeed, fusesBlocked :=
          true }
      ∧ ∀ p : Port, (d.romDone.port p).state = .notReady := by
  obtain ⟨tmem, tsec, tlnk, tagr⟩ := d.trainHost_rest
  let e := d.trainHost.applyRepairs d.sec.bist
  obtain ⟨rsec, rlnk, rhif⟩ : e.sec = d.trainHost.sec ∧ e.lnk = d.trainHost.lnk ∧ e.hif = d.trainHost.hif :=
    Dev.applyRepairs_rest ..
  let x : Dev := { e with sec := { e.sec with
    phase := .apiaryUp, serial := e.sec.fuses.serial, engineKey := some e.sec.fuses.identitySeed, fusesBlocked :=
      true } }
  have hx : d.romDone = (List.finRange 32).foldl (fun d p => d.movePort p .notReady) x := by
    rw [Dev.romDone]
  have hagr : x.hif.agreed = 0 := (congrArg Hif.agreed rhif).trans (tagr.trans h)
  have hport (p : Port) : x.port p = d.port p :=
    congrArg (fun l : Links => l.ports[p.val]) (rlnk.trans tlnk)
  obtain ⟨kmem, ksec, kst⟩ := Dev.movePorts_quiet .notReady (by decide) (List.finRange 32) hagr
    fun p => (hport p).symm ▸ hp p
  rw [hx]
  refine ⟨kmem.trans (Dev.applyRepairs_mem tmem _), ksec.trans ?_, fun p => kst p (.inl (List.mem_finRange p))⟩
  simp only [x, rsec.trans tsec]

end Sys2Proof.Machine

/-- Settles O9: each reset is `Dev.levelFive` with its cause, each end of a hold `Dev.resume`; for the end of the ROM's
self-check see `Dev.romDone_quiet`. -/
theorem coldResets : Obligations.ColdResets := by
  intro s runs
  have hoff (h : s.sec.phase ≠ .off) : (s.sec.phase == .off) = false := by simpa using h
  refine ⟨fun hruns hpin => congrArg s.stepDev ?_, fun hon hpin board slot boot => congrArg s.stepDev ?_,
    fun hruns r => congrArg s.stepDev ?_, fun hrail => congrArg s.stepDev (if_pos hrail),
    fun hruns i => congrArg s.stepDev ?_, fun hphase i => congrArg s.stepDev ?_,
    fun hjtag => congrArg s.stepDev (if_pos hjtag), fun hjtag hon => congrArg s.stepDev ?_,
    fun hruns hhold c hc => congrArg s.stepDev ?_, fun hhold c hc => congrArg s.stepDev ?_, rfl,
    fun hdown => congrArg s.stepDev (if_neg (by simp [hdown])), fun hhot => ?_, fun hcool htest => ?_,
    fun hagr hports => ?_⟩
  · refine (if_neg (by simp [hruns.1, hpin])).trans ?_
    rw [Dev.coldNow_of_runs hruns]
  · exact if_neg (by simp [hon, hpin])
  · exact if_neg (by simp [hruns.1, hruns.2])
  · refine (if_neg (by simp [hruns.1])).trans ?_
    rw [Dev.coldNow_of_runs hruns]
  · refine (if_neg (by simp [hphase])).trans ?_
    rw [show s.toDev.coldNow 7 = s.toDev from if_pos (by simp [hphase])]
  · exact (if_neg (by simp [hjtag])).trans (if_neg (by simp [hon]))
  · exact if_neg (by simp [hruns.1, hruns.2, hhold]; omega)
  · exact if_pos (by simp [hhold, hc])
  · rw [Dev.romStart_of_hot hhot]
  · rw [Dev.romStart_of_cool hcool, Dev.selfChecked_of_test (by rw [Dev.homeRails_dbg, htest])]
  · obtain ⟨hmem, hsec, hst⟩ := Dev.romDone_quiet hagr hports
    rw [hsec]
    exact ⟨hmem, rfl, rfl, rfl, hst⟩

end

/-! ### The driver's mailbox, its heartbeat and orphans (R299–R301) -/

section
open Sys2Proof Sys2Proof.Machine Sys2Proof.Machine.Claim

namespace Sys2Proof.Machine

/-- A free mailbox takes a request, and firmware that is ready serves it. -/
theorem Dev.mailbox_of_free {d : Dev} {op : Byte} {seq : BitVec 16} (hrun : d.fwRuns = true) (hbusy : d.hif.mbxBusy =
    false)
    (hheld : d.hif.mbxHeld = none) :
    d.mailbox op seq = ({ d with hif := { d.hif with mbxBusy := true, mbxHeld := some (op, seq) } } :
      Dev).serveMailbox := by
  simp only [Dev.mailbox, Dev.holdMailbox, hrun, hbusy, hheld, Bool.not_true, Bool.false_eq_true, if_false,
    reduceCtorEq,
    beq_iff_eq]

theorem Dev.serveMailbox_attach {d : Dev} {seq : BitVec 16} (hheld : d.hif.mbxHeld = some (1, seq))
    (hready : d.hif.fwReady = true) (hsched : d.schedUp = true) (hok : d.hif.refusal d.hif.request = none) :
    d.serveMailbox = (d.attachDriver d.hif.request).answerMailbox seq 0 0 0 := by
  simp only [Dev.serveMailbox, hheld, hready, hsched, hok, Bool.and_self, Bool.not_true, Bool.false_eq_true, if_false,
    beq_self_eq_true, if_true]

theorem Dev.serveMailbox_detach {d : Dev} {seq : BitVec 16} (hheld : d.hif.mbxHeld = some (2, seq))
    (hready : d.hif.fwReady = true) (hsched : d.schedUp = true) (hfree : ∀ c ∈ d.mkt.ctxs, c.2.state = .free) :
    d.serveMailbox = ({ d with hif := { d.hif with attached := false } } : Dev).answerMailbox seq 0 0 0 := by
  have hnone : (d.mkt.ctxs.any fun c => c.2.state != .free) = false := by
    simpa using fun a b hab => hfree (a, b) hab
  simp only [Dev.serveMailbox, hheld, hready, hsched, hnone, Bool.and_self, Bool.not_true, Bool.false_eq_true, if_false]
  rfl

theorem Dev.sampleHeartbeat_of_attached {d : Dev} (hrun : d.fwRuns = true) (hatt : d.hif.attached = true)
    (hsched : d.schedUp = true) :
    d.sampleHeartbeat = if d.hif.beat then { d with hif := { d.hif with beat := false, misses := 0 } }
      else if 2 ≤ d.hif.misses then d.driverLost
      else { d with hif := { d.hif with misses := d.hif.misses + 1 } } :=
  if_neg (by simp [hrun, hatt, hsched])

end Sys2Proof.Machine

/-- Settles O8: the mailbox serves what it took at once, and a sample of the heartbeat has three outcomes. -/
theorem driverAttaches : Obligations.DriverAttaches := by
  intro s hrun
  refine ⟨fun seq hbusy hheld hready hsched => ⟨fun hok => ?_, fun hfree => ?_⟩, fun v => congrArg s.stepDev
    (if_pos hrun),
    fun hatt hsched => ?_, fun c horph hlim => congrArg s.stepDev (if_pos ?_)⟩
  · exact congrArg s.stepDev ((Dev.mailbox_of_free hrun hbusy hheld).trans
      (Dev.serveMailbox_attach rfl hready hsched hok))
  · exact congrArg s.stepDev ((Dev.mailbox_of_free hrun hbusy hheld).trans
      (Dev.serveMailbox_detach rfl hready hsched hfree))
  · have hgo := Dev.sampleHeartbeat_of_attached hrun hatt hsched
    refine ⟨fun hbeat => congrArg s.stepDev (hgo.trans (if_pos hbeat)), fun hbeat hlt => congrArg s.stepDev ?_,
      fun hbeat hle => congrArg s.stepDev ?_⟩
    · exact hgo.trans ((if_neg (by simp [hbeat])).trans (if_neg (by omega)))
    · exact hgo.trans ((if_neg (by simp [hbeat])).trans (if_pos hle))
  · rw [hrun, horph, bne_iff_ne.mpr hlim]
    rfl

end

/-! ### The power-management core and the forced throttle (R97, R463, R483, R493, R494) -/

section
open Sys2Proof Sys2Proof.Machine Sys2Proof.Machine.Claim

namespace Sys2Proof.Machine

/-! What a change of caps leaves alone. -/

/-- A trace record touches memory and the firmware's counts of records. -/
theorem Dev.trace_shape (d : Dev) (point index ctx a0 a1 : Nat) :
    ∃ m x, d.trace point index ctx a0 a1 = { d with mem := m, sec := x } := by
  unfold Dev.trace
  dsimp only
  generalize (if d.sec.traceSec = d.ns / 1000000000 then d.sec.traceCnt else 0) = cnt
  split
  · exact ⟨d.mem, d.sec, rfl⟩
  · split
    · exact ⟨d.mem, _, rfl⟩
    · split
      · exact ⟨_, _, rfl⟩
      · exact ⟨d.mem, _, rfl⟩

/-- Caps decide what the frames take; beside that only trace records are written. -/
theorem Dev.withCaps_shape (d : Dev) (g : Power → Power) :
    ∃ m x, d.withCaps g = { ({ d with pwr := g d.pwr } : Dev).applyCaps with mem := m, sec := x } := by
  unfold Dev.withCaps
  dsimp only
  generalize ({ d with pwr := g d.pwr } : Dev).applyCaps = e
  refine List.foldlRecOn (motive := fun y : Dev => ∃ m x, y = { e with mem := m, sec := x }) _ _ ⟨e.mem, e.sec, rfl⟩ ?_
  rintro _ ⟨m, x, rfl⟩ i -
  split
  · exact ⟨m, x, rfl⟩
  · obtain ⟨m', x', h⟩ := Dev.trace_shape { e with mem := m, sec := x } 640 0xFFFF 0xFFFF i (e.capOf i)
    exact ⟨m', x', h⟩

/-- Every frame's cap is its die's. -/
theorem Dev.applyCaps_cap (d : Dev) (f : FrameId) : (d.applyCaps.frame f).ramp.cap = d.capOf (dieOf f) := by
  simp [Dev.applyCaps, Dev.frame, dieOf]

/-! One die's cap. -/

/-- Two states of the power core that differ in caps, and in whether they are below the highest, alone. -/
structure Power.CapsOnly (p q : Power) : Prop where
  rest : q = { p with dies := q.dies, capped := q.capped }
  tj : ∀ i : Fin 16, (q.dies[i]).tj = (p.dies[i]).tj

theorem Power.CapsOnly.refl (p : Power) : p.CapsOnly p := ⟨rfl, fun _ => rfl⟩

theorem Power.CapsOnly.trans {p q r : Power} (h : p.CapsOnly q) (k : q.CapsOnly r) : p.CapsOnly r := by
  refine ⟨?_, fun i => (k.tj i).trans (h.tj i)⟩
  rw [k.rest, h.rest]

theorem Power.lower_same (p : Power) (i : Fin 16) (n : Nat) (b : Bool) :
    ((p.lower i.val n b).dies[i]).cap = max 1 ((p.dies[i]).cap - n) := by
  simp [Power.lower]

theorem Power.lower_ne (p : Power) {i j : Fin 16} (h : j ≠ i) (n : Nat) (b : Bool) :
    (p.lower i.val n b).dies[j] = p.dies[j] := by
  have hv : i.val ≠ j.val := fun he => h (Fin.ext he.symm)
  simp [Power.lower, hv]

theorem Power.lower_only (p : Power) (i : Fin 16) (n : Nat) (b : Bool) : p.CapsOnly (p.lower i.val n b) := by
  refine ⟨rfl, fun j => ?_⟩
  by_cases h : j = i
  · subst h
    simp [Power.lower]
  · rw [p.lower_ne h]

theorem Power.raise_same (p : Power) (i : Fin 16) :
    ((p.raise i.val).dies[i]).cap = min 8 ((p.dies[i]).cap + 1) := by
  simp [Power.raise]

theorem Power.raise_ne (p : Power) {i j : Fin 16} (h : j ≠ i) : (p.raise i.val).dies[j] = p.dies[j] := by
  have hv : i.val ≠ j.val := fun he => h (Fin.ext he.symm)
  simp [Power.raise, hv]

theorem Power.raise_only (p : Power) (i : Fin 16) : p.CapsOnly (p.raise i.val) := by
  refine ⟨rfl, fun j => ?_⟩
  by_cases h : j = i
  · subst h
    simp [Power.raise]
  · rw [p.raise_ne h]

/-! The dies with their numbers, and the one that a relation prefers. -/

theorem Power.indexed_eq (p : Power) : p.indexed = (List.finRange 16).map fun i => (i.val, p.dies[i]) := by
  refine List.ext_getElem (by simp [Power.indexed]) fun n h _ => ?_
  simp [Power.indexed]

theorem Power.mem_indexed (p : Power) (x : Nat × Die) : x ∈ p.indexed ↔ ∃ i : Fin 16, x = (i.val, p.dies[i]) := by
  simp [Power.indexed_eq, eq_comm]

theorem Power.indexed_sorted (p : Power) : p.indexed.Pairwise fun a b => a.1 < b.1 := by
  rw [Power.indexed_eq, List.pairwise_map]
  exact List.pairwise_lt_finRange 16

/-- The entry that beats all before it and is beaten by none behind it is picked. -/
theorem pickDie_append {better : Die → Die → Bool} {as bs : List (Nat × Die)} {x : Nat × Die}
    (hbefore : ∀ a ∈ as, better x.2 a.2 = true) (hafter : ∀ b ∈ bs, better b.2 x.2 = false) :
    pickDie better (as ++ x :: bs) = some x.1 := by
  let g := fun b y : Nat × Die => if better y.2 b.2 then y else b
  have hstay : bs.foldl g x = x :=
    List.foldlRecOn (motive := fun y => y = x) _ _ rfl fun y hy b hb => by
      subst hy
      exact if_neg (by simp [hafter b hb])
  cases as with
  | nil => exact congrArg (fun y : Nat × Die => some y.1) hstay
  | cons a as =>
    have hmem : as.foldl g a ∈ a :: as :=
      List.foldlRecOn (motive := fun y => y ∈ a :: as) _ _ (List.mem_cons_self ..) fun y hy b hb => by
        simp only [g]
        split
        · exact List.mem_cons_of_mem a hb
        · exact hy
    have htake : g (as.foldl g a) x = x := if_pos (hbefore _ hmem)
    refine congrArg (fun y : Nat × Die => some y.1) (?_ : (as ++ x :: bs).foldl g a = x)
    rw [List.foldl_append, List.foldl_cons, htake, hstay]

/-- In a list in the order of the numbers. -/
theorem pickDie_sorted {better : Die → Die → Bool} {l : List (Nat × Die)} (hl : l.Pairwise fun a b => a.1 < b.1)
    {x : Nat × Die} (hx : x ∈ l) (hbefore : ∀ a ∈ l, a.1 < x.1 → better x.2 a.2 = true)
    (hafter : ∀ b ∈ l, x.1 < b.1 → better b.2 x.2 = false) : pickDie better l = some x.1 := by
  obtain ⟨as, bs, rfl⟩ := List.mem_iff_append.mp hx
  obtain ⟨-, hxb, hax⟩ := List.pairwise_append.mp hl
  exact pickDie_append (fun a ha => hbefore a (by simp [ha]) (hax a ha x (List.mem_cons_self ..)))
    fun b hb => hafter b (by simp [hb]) ((List.pairwise_cons.mp hxb).1 b hb)

/-- Whatever is picked is a die. -/
theorem pickDie_mem {better : Die → Die → Bool} {l : List (Nat × Die)} {i : Nat} (h : pickDie better l = some i) :
    ∃ x ∈ l, x.1 = i := by
  cases l with
  | nil => simp [pickDie] at h
  | cons a as =>
    refine ⟨_, ?_, Option.some.inj h⟩
    exact List.foldlRecOn (motive := fun y => y ∈ a :: as) _ _ (List.mem_cons_self ..) fun y hy b hb => by
      split
      · exact List.mem_cons_of_mem a hb
      · exact hy

/-! The policy of one interval (R463). -/

/-- The dies at the throttle temperature lose one level each. -/
def Power.cooled (p : Power) : Power :=
  (p.indexed.filter fun x => decide (p.tThrottle.toNat ≤ x.2.tj.toNat)).foldl (fun q x => q.lower x.1 1 false) p

theorem Power.lowerAll_only (is : List (Fin 16)) (p : Power) :
    p.CapsOnly (is.foldl (fun q i => q.lower i.val 1 false) p) :=
  List.foldlRecOn (motive := fun q => p.CapsOnly q) _ _ (.refl p) fun q hq i _ => hq.trans (q.lower_only i 1 false)

theorem Power.lowerAll_cap {is : List (Fin 16)} (hnd : is.Nodup) (p : Power) (j : Fin 16) :
    (((is.foldl (fun q i => q.lower i.val 1 false) p)).dies[j]).cap
      = if j ∈ is then max 1 ((p.dies[j]).cap - 1) else (p.dies[j]).cap := by
  induction is generalizing p with
  | nil => rfl
  | cons i is ih =>
    obtain ⟨hni, hnd⟩ := List.nodup_cons.mp hnd
    rw [List.foldl_cons, ih hnd]
    by_cases h : j = i
    · subst h
      simp only [hni, List.mem_cons, true_or, if_true, if_false, p.lower_same]
    · simp only [List.mem_cons, h, false_or, p.lower_ne h]

/-- The hot dies. -/
def Power.hot (p : Power) : List (Fin 16) :=
  (List.finRange 16).filter fun i => decide (p.tThrottle.toNat ≤ (p.dies[i]).tj.toNat)

theorem Power.cooled_eq (p : Power) : p.cooled = p.hot.foldl (fun q i => q.lower i.val 1 false) p := by
  rw [Power.cooled, Power.indexed_eq, List.filter_map, List.foldl_map]
  rfl

theorem Power.cooled_only (p : Power) : p.CapsOnly p.cooled := p.cooled_eq ▸ Power.lowerAll_only p.hot p

theorem Power.cooled_cap (p : Power) (j : Fin 16) :
    (p.cooled.dies[j]).cap
      = if p.tThrottle.toNat ≤ (p.dies[j]).tj.toNat then max 1 ((p.dies[j]).cap - 1) else (p.dies[j]).cap := by
  rw [Power.cooled_eq, Power.lowerAll_cap (is := p.hot) ((List.nodup_finRange 16).filter _)]
  simp [Power.hot]

theorem Power.cooled_of_cool {p : Power} (h : ∀ i : Fin 16, (p.dies[i]).tj.toNat < p.tThrottle.toNat) :
    p.cooled = p := by
  have hnone : p.hot = [] := List.filter_eq_nil_iff.mpr fun i _ => by
    simpa using h i
  rw [Power.cooled_eq, hnone]
  rfl

/-- The candidates for a raise: the dies 5 °C below the throttle temperature. -/
def Power.mayRise (p : Power) : List (Nat × Die) :=
  p.indexed.filter fun x => decide (x.2.tj.toNat < p.tThrottle.toNat - 5)

theorem Power.interval_eq (p : Power) (watts : Nat) (low : Bool) : p.interval watts low =
    if p.watts.toNat < watts then
      match pickDie (fun a b => decide (b.cap < a.cap)) p.cooled.indexed with
      | some i => p.cooled.lower i 1 true
      | none => p.cooled
    else if low then
      match pickDie (fun a b => decide (a.cap < b.cap)) p.cooled.mayRise with
      | some i => p.cooled.raise i
      | none => p.cooled
    else p.cooled := rfl

/-- Whatever the policy does, it changes caps alone. -/
theorem Power.interval_only (p : Power) (watts : Nat) (low : Bool) : p.CapsOnly (p.interval watts low) := by
  rw [Power.interval_eq]
  split
  · split
    · next i hi =>
      obtain ⟨x, hx, rfl⟩ := pickDie_mem hi
      obtain ⟨j, rfl⟩ := (Power.mem_indexed _ x).mp hx
      exact p.cooled_only.trans (Power.lower_only _ j 1 true)
    · exact p.cooled_only
  · split
    · split
      · next i hi =>
        obtain ⟨x, hx, rfl⟩ := pickDie_mem hi
        obtain ⟨j, rfl⟩ := (Power.mem_indexed _ x).mp (List.mem_of_mem_filter hx)
        exact p.cooled_only.trans (Power.raise_only _ j)
      · exact p.cooled_only
    · exact p.cooled_only

/-- Within the cap, and not long enough below it, only heat counts. -/
theorem Power.interval_steady {p : Power} {watts : Nat} (h : watts ≤ p.watts.toNat) :
    p.interval watts false = p.cooled := by
  rw [Power.interval_eq, if_neg (by omega)]
  rfl

/-- Over the cap the first die of the highest level is lowered. -/
theorem Power.interval_over {p : Power} {watts : Nat} (low : Bool) (h : p.watts.toNat < watts)
    (hcool : ∀ i : Fin 16, (p.dies[i]).tj.toNat < p.tThrottle.toNat) {i : Fin 16}
    (hi : ∀ j : Fin 16, (p.dies[j]).cap ≤ (p.dies[i]).cap ∧ (j < i → (p.dies[j]).cap < (p.dies[i]).cap)) :
    p.interval watts low = p.lower i.val 1 true := by
  have hpick : pickDie (fun a b => decide (b.cap < a.cap)) p.indexed = some i.val := by
    refine pickDie_sorted p.indexed_sorted ((p.mem_indexed _).mpr ⟨i, rfl⟩) (fun a ha hlt => ?_) fun b hb _ => ?_
    · obtain ⟨j, rfl⟩ := (p.mem_indexed a).mp ha
      exact decide_eq_true ((hi j).2 hlt)
    · obtain ⟨j, rfl⟩ := (p.mem_indexed b).mp hb
      exact decide_eq_false (Nat.not_lt.mpr (hi j).1)
  rw [Power.interval_eq, if_pos h, Power.cooled_of_cool hcool, hpick]

/-- Below it for long enough, the first cool die of the lowest level is raised. -/
theorem Power.interval_under {p : Power} {watts : Nat} (h : watts ≤ p.watts.toNat)
    (hcool : ∀ i : Fin 16, (p.dies[i]).tj.toNat < p.tThrottle.toNat) {i : Fin 16}
    (hin : (p.dies[i]).tj.toNat < p.tThrottle.toNat - 5)
    (hi : ∀ j : Fin 16, (p.dies[j]).tj.toNat < p.tThrottle.toNat - 5 →
      (p.dies[i]).cap ≤ (p.dies[j]).cap ∧ (j < i → (p.dies[i]).cap < (p.dies[j]).cap)) :
    p.interval watts true = p.raise i.val := by
  have hpick : pickDie (fun a b => decide (a.cap < b.cap)) p.mayRise = some i.val := by
    refine pickDie_sorted (p.indexed_sorted.filter _) (List.mem_filter.mpr ⟨(p.mem_indexed _).mpr ⟨i, rfl⟩, ?_⟩)
      (fun a ha hlt => ?_) fun b hb _ => ?_
    · exact decide_eq_true hin
    · obtain ⟨hmem, htj⟩ := List.mem_filter.mp ha
      obtain ⟨j, rfl⟩ := (p.mem_indexed a).mp hmem
      exact decide_eq_true ((hi j (of_decide_eq_true htj)).2 hlt)
    · obtain ⟨hmem, htj⟩ := List.mem_filter.mp hb
      obtain ⟨j, rfl⟩ := (p.mem_indexed b).mp hmem
      exact decide_eq_false (Nat.not_lt.mpr (hi j (of_decide_eq_true htj)).1)
  rw [Power.interval_eq, if_neg (by omega), if_pos rfl, Power.cooled_of_cool hcool, hpick]

/-- What the sensors of one interval, and the limits that management set before it, make of the power core's state. -/
def Power.sensed (p0 : Power) (watts : Nat) (temps : List Nat) : Power :=
  let p := p0.applyCfg
  let ms := (p.means ++ [watts]).drop ((p.means.length + 1) - 100)
  let dies := Vector.ofFn fun (i : Fin 16) => { p.dies[i] with tj := BitVec.ofNat 8 (min 255 ((temps[i.val]?).getD 0)) }
  { p with
    low := if decide (100 * watts < 95 * p.watts.toNat) then p.low + 1 else 0, means := ms
    pkgW := BitVec.ofNat 12 (min 4095 (ms.sum / ms.length)), tjMax := BitVec.ofNat 8 (min 255 (temps.foldl max 0))
    dies := dies, thermal := dies.toList.any fun x => decide (p.tThrottle.toNat ≤ x.tj.toNat) }

theorem Power.applyCfg_eq (p : Power) : p.applyCfg = { p with
    watts := (p.next.map (·.1)).getD p.watts, tThrottle := (p.next.map (·.2)).getD p.tThrottle, next := none } := by
  obtain ⟨w, t, a, b, c, e, f, g, h, i, j, next⟩ := p
  cases next <;> rfl

theorem Power.sensed_limits (p : Power) (watts : Nat) (temps : List Nat) :
    (p.sensed watts temps).watts = (p.next.map (·.1)).getD p.watts
      ∧ (p.sensed watts temps).tThrottle = (p.next.map (·.2)).getD p.tThrottle
      ∧ (p.sensed watts temps).next = none
      ∧ (p.sensed watts temps).low
        = if 100 * watts < 95 * ((p.next.map (·.1)).getD p.watts).toNat then p.low + 1 else 0 := by
  simp [Power.sensed, Power.applyCfg_eq]

theorem Power.sensed_dies (p : Power) (watts : Nat) (temps : List Nat) (i : Fin 16) :
    ((p.sensed watts temps).dies[i]).tj = BitVec.ofNat 8 (min 255 ((temps[i.val]?).getD 0))
      ∧ ((p.sensed watts temps).dies[i]).cap = (p.dies[i]).cap := by
  simp [Power.sensed, Power.applyCfg_eq]

/-- A die's sensor reaches a limit of one byte when the temperature does. -/
theorem Power.sensed_tj (p : Power) (watts : Nat) (temps : List Nat) (i : Fin 16) :
    ((p.sensed watts temps).dies[i]).tj.toNat = min 255 ((temps[i.val]?).getD 0) := by
  rw [(p.sensed_dies watts temps i).1, BitVec.toNat_ofNat, Nat.mod_eq_of_lt (by omega)]

/-- The policy on what the sensors show. -/
def Power.controlled (p : Power) (watts : Nat) (temps : List Nat) : Power :=
  ((p.sensed watts temps).interval watts (decide (10 ≤ (p.sensed watts temps).low))).markCapped

theorem Dev.controlInterval_eq {d : Dev} (hrun : d.fwRuns = true) (hup : d.sec.restarting = []) (watts : Nat)
    (temps : List Nat) : d.controlInterval watts temps
      = ({ d with pwr := d.pwr.sensed watts temps } : Dev).withCaps fun p =>
        (p.interval watts (decide (10 ≤ (d.pwr.sensed watts temps).low))).markCapped :=
  if_neg (by simp [hrun, hup])

theorem Power.controlled_only (p : Power) (watts : Nat) (temps : List Nat) :
    (p.sensed watts temps).CapsOnly (p.controlled watts temps) :=
  ((p.sensed watts temps).interval_only watts _).trans ⟨rfl, fun _ => rfl⟩

namespace Claim

/-- The limits and sensors after an interval, with what the interval leaves of the rest of the device. -/
theorem intervalEnds {s : State} (hrun : s.toDev.fwRuns = true) (hup : s.sec.restarting = []) (watts : Nat)
    (temps : List Nat) : ∃ d : Dev, exec (.powerControlInterval watts temps) s = .next (withDev s d)
      ∧ d.pwr = s.pwr.controlled watts temps ∧ (∀ f : FrameId, (d.frame f).ramp.cap = d.capOf (dieOf f))
      ∧ d.mkt = s.mkt ∧ d.lnk = s.lnk ∧ d.xch = s.xch ∧ d.wag = s.wag := by
  have hgo := Dev.controlInterval_eq hrun hup watts temps
  obtain ⟨m, x, hshape⟩ := Dev.withCaps_shape { s.toDev with pwr := s.pwr.sensed watts temps } fun p =>
    (p.interval watts (decide (10 ≤ (s.pwr.sensed watts temps).low))).markCapped
  refine ⟨_, congrArg s.stepDev (hgo.trans hshape), rfl, fun f => ?_, rfl, rfl, rfl, rfl⟩
  exact Dev.applyCaps_cap _ f

/-- Which caps an interval leaves. -/
theorem intervalCaps (p : Power) (watts : Nat) (temps : List Nat) :
    let cap := (p.next.map (·.1)).getD p.watts
    let hot := ((p.next.map (·.2)).getD p.tThrottle).toNat
    let temp := fun i : Fin 16 => (temps[i.val]?).getD 0
    let was := fun i : Fin 16 => (p.dies[i]).cap
    let q := p.controlled watts temps
    (watts ≤ cap.toNat → (95 * cap.toNat ≤ 100 * watts ∨ p.low < 9) →
        ∀ i : Fin 16, (q.dies[i]).cap = if hot ≤ temp i then max 1 (was i - 1) else was i)
      ∧ ((∀ i, temp i < hot) →
        (∀ i : Fin 16, cap.toNat < watts → (∀ j : Fin 16, was j ≤ was i ∧ (j < i → was j < was i)) →
          (q.dies[i]).cap = max 1 (was i - 1) ∧ ∀ j : Fin 16, j ≠ i → (q.dies[j]).cap = was j)
        ∧ (∀ i : Fin 16, 100 * watts < 95 * cap.toNat → 9 ≤ p.low → temp i < hot - 5 →
          (∀ j : Fin 16, temp j < hot - 5 → was i ≤ was j ∧ (j < i → was i < was j)) →
          (q.dies[i]).cap = min 8 (was i + 1) ∧ ∀ j : Fin 16, j ≠ i → (q.dies[j]).cap = was j)) := by
  intro cap hot temp was q
  obtain ⟨hwatts, hthr, -, hlow⟩ : (p.sensed watts temps).watts = cap ∧ (p.sensed watts temps).tThrottle = _ ∧ _
      ∧ (p.sensed watts temps).low = if 100 * watts < 95 * cap.toNat then p.low + 1 else 0 :=
    p.sensed_limits watts temps
  have htj (i : Fin 16) : ((p.sensed watts temps).dies[i]).tj.toNat = min 255 (temp i) := p.sensed_tj watts temps i
  have hcap (i : Fin 16) : ((p.sensed watts temps).dies[i]).cap = was i := (p.sensed_dies watts temps i).2
  have hq : q.dies = ((p.sensed watts temps).interval watts (decide (10 ≤ (p.sensed watts temps).low))).dies := rfl
  generalize p.sensed watts temps = e at hwatts hthr hlow htj hcap hq
  have hhot : e.tThrottle.toNat = hot := congrArg BitVec.toNat hthr
  have hbyte : hot < 256 := hhot ▸ e.tThrottle.isLt
  refine ⟨fun hle hsteady i => ?_, fun hcool => ⟨fun i hover hi => ?_, fun i hunder hlong hin hi => ?_⟩⟩
  · have hnot : decide (10 ≤ e.low) = false := decide_eq_false (by rw [hlow]; split <;> omega)
    rw [hq, hnot, Power.interval_steady (by rw [hwatts]; exact hle), Power.cooled_cap, hcap, htj, hhot]
    exact if_congr (by omega) rfl rfl
  · have hres : e.interval watts (decide (10 ≤ e.low)) = e.lower i.val 1 true :=
      Power.interval_over _ (by rw [hwatts]; exact hover)
        (fun j => by have := hcool j; rw [htj, hhot]; omega) fun j => by rw [hcap, hcap]; exact hi j
    rw [hq, hres]
    exact ⟨by rw [Power.lower_same, hcap], fun j hj => by rw [Power.lower_ne _ hj, hcap]⟩
  · have hyes : decide (10 ≤ e.low) = true := decide_eq_true (by rw [hlow, if_pos hunder]; omega)
    have hres : e.interval watts (decide (10 ≤ e.low)) = e.raise i.val := by
      rw [hyes]
      refine Power.interval_under (by rw [hwatts]; omega) (fun j => by have := hcool j; rw [htj, hhot]; omega)
        (by rw [htj, hhot]; omega) fun j hj => ?_
      rw [htj, hhot] at hj
      rw [hcap, hcap]
      exact hi j (by omega)
    rw [hq, hres]
    exact ⟨by rw [Power.raise_same, hcap], fun j hj => by rw [Power.raise_ne _ hj, hcap]⟩

end Claim
end Sys2Proof.Machine

/-- Settles O18: an interval's policy by `Claim.intervalCaps`, the frames' caps by `Dev.applyCaps_cap`, and the rest as
the
power core's functions say. -/
theorem powerManaged : Obligations.PowerManaged := by
  intro s
  refine ⟨fun hrun hup => ⟨fun watts temps => ?_, fun watts h => ?_, fun watts h => ?_, fun i => ?_, ?_⟩,
    fun p i => ⟨p.lower_same i 2 true, fun j hj => p.lower_ne hj 2 true⟩,
    fun hon => ⟨fun c hc => ⟨congrArg s.stepDev (if_pos (by simp [hon, hc])), fun f => ?_⟩,
      fun c hc => congrArg s.stepDev (if_pos (by simp [hon, hc]))⟩⟩
  · intro cap hot temp was
    obtain ⟨d, hexec, hpwr, hcaps, hmkt, hlnk, hxch, hwag⟩ := intervalEnds hrun hup watts temps
    obtain ⟨hrest, htj⟩ := s.pwr.controlled_only watts temps
    obtain ⟨hwatts, hthr, hnext, hlow⟩ := s.pwr.sensed_limits watts temps
    refine ⟨d, hexec, ?_, ?_, ?_, ?_, fun i => ?_, hcaps, hmkt, hlnk, hxch, hwag, ?_⟩
    · rw [hpwr, hrest, hwatts]
    · rw [hpwr, hrest, hthr]
    · rw [hpwr, hrest, hnext]
    · rw [hpwr, hrest, hlow]
    · rw [hpwr, htj, (s.pwr.sensed_dies watts temps i).1]
    · rw [hpwr]
      exact intervalCaps s.pwr watts temps
  · exact congrArg s.stepDev ((if_neg (by simp [hrun, hup])).trans (if_pos h))
  · exact congrArg s.stepDev ((if_neg (by simp [hrun, hup])).trans (if_neg (by omega)))
  · intro x
    refine ⟨fun h => ?_, fun h => ?_, fun h => ?_, fun h => ?_⟩
    · exact congrArg s.stepDev (if_neg (by simpa [hrun, hup] using h))
    · exact congrArg s.stepDev (if_pos (by simpa [hrun, hup] using h))
    · exact congrArg s.stepDev (if_neg (by simpa [hrun, hup] using Nat.ne_of_gt h))
    · exact congrArg s.stepDev (if_pos (by simpa [hrun, hup] using h))
  · exact congrArg s.stepDev (if_neg (by simp [hrun, hup]))
  · obtain ⟨m, x, hshape⟩ := s.toDev.withCaps_shape fun p => { p with forced := true }
    rw [hshape]
    exact Dev.applyCaps_cap { s.toDev with pwr := { s.pwr with forced := true } } f

end

/-! ### The activity ramp and FRM_CTRL (R94, R95, R101, R145) -/

section
open Sys2Proof Sys2Proof.Machine Sys2Proof.Machine.Claim

namespace Sys2Proof.Machine

/-- The cycles that the limit held are counted; nothing else changes. -/
theorem Ramp.limited_eq (r : Ramp) (demand held : Nat) : r.limited demand held = { r with
    rampHold := if 2048 * r.level < demand then r.rampHold + BitVec.ofNat 16 (min held 6) else r.rampHold } := by
  unfold Ramp.limited
  split <;> rfl

theorem Ramp.rise_eq (r : Ramp) (demand : Nat) : r.rise demand = { r with
    level := if 0 < r.level ∧ 2048 * (r.level - 1) < demand then min (r.level + 1) r.cap else r.level } := by
  unfold Ramp.rise
  rcases Nat.eq_zero_or_pos r.level with h | h
  · rw [if_pos h, if_neg (by omega)]
  · rw [if_neg (by omega)]
    by_cases hd : 2048 * (r.level - 1) < demand
    · rw [if_pos hd, if_pos ⟨h, hd⟩]
    · rw [if_neg hd, if_neg fun hc => hd hc.2]

theorem Ramp.fall_eq (r : Ramp) (demand : Nat) : r.fall demand = { r with
    level := if (r.level = 1 ∧ demand = 0) ∨ (2 ≤ r.level ∧ demand ≤ 2048 * (r.level - 2)) then r.level - 1
      else r.level } := by
  unfold Ramp.fall
  obtain h | h | h : r.level = 0 ∨ r.level = 1 ∨ 2 ≤ r.level := by omega
  · rw [if_pos h, if_neg (by omega)]
  · rw [if_neg (by omega), if_pos h]
    by_cases hd : demand = 0
    · rw [if_pos (by simpa using hd), if_pos (by omega)]
    · rw [if_neg (by simpa using hd), if_neg (by omega)]
  · rw [if_neg (by omega), if_neg (by omega : ¬ r.level = 1)]
    by_cases hd : demand ≤ 2048 * (r.level - 2)
    · rw [if_pos (decide_eq_true hd), if_pos (by omega)]
    · rw [if_neg (by simpa using hd), if_neg (by omega)]

/-- What one interval makes of a frame's ramp, once a start has been tried. -/
def Frame.rampUp (demand held : Nat) (fr : Frame) : Frame :=
  if fr.ramp.startHold then fr else { fr with ramp := (fr.ramp.limited demand held).rise demand }

theorem Frame.rampUp_of_held {fr : Frame} (h : fr.ramp.startHold = true) (demand held : Nat) :
    fr.rampUp demand held = fr := if_pos h

theorem Frame.rampUp_of_free {fr : Frame} (h : fr.ramp.startHold = false) (demand held : Nat) :
    fr.rampUp demand held = { fr with ramp := { fr.ramp with
      rampHold := if 2048 * fr.ramp.level < demand then fr.ramp.rampHold + BitVec.ofNat 16 (min held 6)
        else fr.ramp.rampHold
      level := if 0 < fr.ramp.level ∧ 2048 * (fr.ramp.level - 1) < demand then min (fr.ramp.level + 1) fr.ramp.cap
        else fr.ramp.level } } := by
  rw [Frame.rampUp, h, Ramp.rise_eq, Ramp.limited_eq]
  rfl

/-- No start is tried for an array that runs, is held, has no demand or nothing that streams. -/
theorem Dev.rampRise_of_no_start {d : Dev} {f : FrameId} {demand held : Nat}
    (h : ¬ ((d.frame f).ramp.level = 0 ∧ 0 < demand ∧ (d.frame f).ramp.startHold = false
      ∧ (d.frame f).mmaQ.any (·.streaming) = true)) :
    d.rampRise f demand held = d.updFrame f (Frame.rampUp demand held) :=
  congrArg (fun e : Dev => e.updFrame f (Frame.rampUp demand held)) (if_neg h)

theorem Dev.rampRise_of_start {d : Dev} {f : FrameId} {demand held : Nat} (hlev : (d.frame f).ramp.level = 0)
    (hdem : 0 < demand) (hfree : (d.frame f).ramp.startHold = false)
    (hstr : (d.frame f).mmaQ.any (·.streaming) = true) :
    d.rampRise f demand held = (d.startArray f).1.updFrame f (Frame.rampUp demand held) :=
  congrArg (fun e : Dev => e.updFrame f (Frame.rampUp demand held)) (if_pos ⟨hlev, hdem, hfree, hstr⟩)

/-- While fewer than 96 arrays started in the last 1,024 ns, one more starts. -/
theorem Dev.startArray_of_few {d : Dev} {f : FrameId}
    (h : (d.wag.starts.filter fun t => decide (d.waggle < t + 1024)).length < 96) :
    (d.startArray f).1 = ({ d with wag := { d.wag with
      starts := (d.wag.starts.filter fun t => decide (d.waggle < t + 1024)) ++ [d.waggle] } } : Dev).setFrame f
        { d.frame f with ramp := { (d.frame f).ramp with level := min 1 (d.frame f).ramp.cap } } :=
  congrArg Prod.fst (if_neg (by omega))

/-- Beyond that a start is held. -/
theorem Dev.startArray_of_many {d : Dev} {f : FrameId}
    (h : 96 ≤ (d.wag.starts.filter fun t => decide (d.waggle < t + 1024)).length) :
    (d.startArray f).1 = ({ d with wag := { d.wag with
      starts := d.wag.starts.filter fun t => decide (d.waggle < t + 1024), heldCnt := satAdd d.wag.heldCnt } } :
        Dev).updFrame f
        fun fr => { fr with ramp := { fr.ramp with startHold := true } } :=
  congrArg Prod.fst (if_pos (by omega))

/-- Work on a frame that no one kills or stops at its boundary, or that does not run, goes on. -/
theorem Dev.settle_of_busy {d : Dev} {f : FrameId} (hq : (d.frame f).quiet = false)
    (hstop : (d.ctx (d.frame f).ctx).orphanStop = false) : d.settle f = d :=
  if_pos (by simp [hq, hstop])

theorem Dev.settle_of_not_running {d : Dev} {f : FrameId} (hkill : (d.frame f).killing = false)
    (hst : (d.frame f).state ≠ .running) : d.settle f = d := by
  have hno : ((d.frame f).state == .running) = false := by simpa using hst
  simp only [Dev.settle, hkill, hno, Bool.and_false, Bool.false_eq_true, if_false]
  split <;> rfl

/-- A running frame at rest goes into a save when it is asked to stop. -/
theorem Dev.settle_of_asked {d : Dev} {f : FrameId} (hkill : (d.frame f).killing = false)
    (hq : (d.frame f).quiet = true) (hpre : (d.frame f).preempt = true) (hst : (d.frame f).state = .running) :
    d.settle f = d.setFrame f { d.frame f with state := .saving, preempt := false, held := none } := by
  simp only [Dev.settle, hkill, hq, hpre, hst, Bool.not_true, Bool.false_and, Bool.false_eq_true, if_false,
    beq_self_eq_true, Bool.and_self, if_true]

namespace Claim

theorem rampRises : RampRises := by
  intro s f demand held
  dsimp only
  have hrise {d : Dev} (hh : (d.frame f).ramp.startHold = false) : d.updFrame f (Frame.rampUp demand held) = _ :=
    congrArg (d.setFrame f) (Frame.rampUp_of_free hh demand held)
  refine ⟨fun hh => congrArg s.stepDev ?_, fun hh hlev => congrArg s.stepDev ?_,
    fun hh hlev hdem => congrArg s.stepDev ?_, fun hh hlev hdem hstr hcap hfew => congrArg s.stepDev ?_,
    fun hh hlev hdem hstr hmany => congrArg s.stepDev ?_⟩
  · refine (Dev.rampRise_of_no_start (by simp [hh])).trans (Dev.updFrame_of_eq ?_)
    exact Frame.rampUp_of_held hh demand held
  · refine (Dev.rampRise_of_no_start (by omega)).trans ?_
    exact hrise hh
  · refine (Dev.rampRise_of_no_start fun hc => Nat.ne_of_gt hc.2.1 hdem).trans (Dev.updFrame_of_eq ?_)
    refine (Frame.rampUp_of_free hh demand held).trans ?_
    rw [if_neg (show ¬ 2048 * _ < demand by omega), if_neg (by omega)]
  · refine (Dev.rampRise_of_start hlev hdem hh (List.any_eq_true.mpr hstr)).trans ?_
    rw [Dev.startArray_of_few hfew]
    refine (hrise (by rw [Dev.frame_setFrame]; exact hh)).trans ?_
    rw [Dev.frame_setFrame, Dev.setFrame_setFrame, show min 1 (s.toDev.frame f).ramp.cap = 1 from Nat.min_eq_left hcap]
    rfl
  · refine (Dev.rampRise_of_start hlev hdem hh (List.any_eq_true.mpr hstr)).trans ?_
    rw [Dev.startArray_of_many hmany]
    refine Dev.updFrame_of_eq (Frame.rampUp_of_held ?_ demand held)
    rw [Dev.frame_updFrame]

theorem rampFalls : RampFalls := fun s f demand =>
  congrArg (fun r : Ramp => s.stepDev (s.toDev.updFrame f fun fr => { fr with ramp := r })) (Ramp.fall_eq _ demand)

theorem frameControl : FrameControl := by
  intro s f hkill
  dsimp only
  refine ⟨fun hq hstop => congrArg s.stepDev (Dev.settle_of_busy ?_ ?_),
    fun hst => congrArg s.stepDev (Dev.settle_of_not_running ?_ ?_), fun hq hst => congrArg s.stepDev ?_, fun on => rfl⟩
  · rw [Dev.frame_updFrame]
    exact hq
  · rw [Dev.frame_updFrame]
    exact hstop
  · rw [Dev.frame_updFrame]
    exact hkill
  · rw [Dev.frame_updFrame]
    exact hst
  · have hgo := Dev.settle_of_asked (d := s.toDev.updFrame f fun fr => { fr with preempt := true }) (f := f)
      (by rw [Dev.frame_updFrame]; exact hkill) (by rw [Dev.frame_updFrame]; exact hq)
      (by rw [Dev.frame_updFrame]) (by rw [Dev.frame_updFrame]; exact hst)
    rw [Dev.frame_updFrame] at hgo
    refine hgo.trans ?_
    rw [Dev.updFrame, Dev.setFrame_setFrame]
    rfl

end Claim
end Sys2Proof.Machine

/-- Settles O37: what an interval makes of the ramp by `Frame.rampUp_of_free` and `Ramp.fall_eq`, PREEMPT by the lemmas
about
`Dev.settle`. -/
theorem rampAndControl : Obligations.RampAndControl := ⟨Claim.rampRises, Claim.rampFalls, Claim.frameControl⟩

end

/-! ### What the firmware sends by itself, and the wall clock (R435, R451–R456) -/

section
open Sys2Proof Sys2Proof.Machine Sys2Proof.Machine.Claim

namespace Sys2Proof.Machine

/-- The oldest records not yet exported, up to nine, go out when none is on its way. -/
theorem Dev.ledgerExport_few {d : Dev} {n : Nat} (hrun : d.fwRuns = true)
    (hn : d.grd.written.toNat = d.grd.exported.toNat + n) (hpos : 0 < n) (hfew : n ≤ 9)
    (hopen : ∀ r ∈ d.sec.reports, r.type ≠ 0x30) :
    d.ledgerExport = d.report 0x30 ((List.range n).flatMap fun i =>
      d.read (d.grd.ledgerBase.toNat + 128 * ((d.grd.exported.toNat + i) % 4096)) 128) := by
  have hlo : max d.grd.exported.toNat (d.grd.written.toNat - 4096) = d.grd.exported.toNat := by omega
  have hnone : (d.sec.reports.any fun r => r.type == 0x30) = false := by simpa using hopen
  have hlt : ¬ d.grd.written.toNat ≤ d.grd.exported.toNat := by omega
  simp only [Dev.ledgerExport, hlo, hrun, hnone, hlt, decide_false, Bool.not_true, Bool.or_self, Bool.false_eq_true,
    if_false]
  rw [show min 9 (d.grd.written.toNat - d.grd.exported.toNat) = n by omega]

/-- The leap second that the flags announce, where none is known yet. -/
theorem Dev.announcedLeap_first {d : Dev} {off : Int} {u : UtcFlags} (h : d.sec.leap = none) :
    d.announcedLeap off u =
      let day := (d.ptpSecond - off) / 86400
      if u.leap61 = true ∧ u.leap59 = false then some ((day + 1) * 86400 + off, off + 1)
      else if u.leap61 = false ∧ u.leap59 = true then some ((day + 1) * 86400 + off - 1, off - 1) else none := by
  obtain ⟨valid, leap61, leap59⟩ := u
  unfold Dev.announcedLeap
  rw [h]
  cases leap61 <;> cases leap59 <;> rfl

namespace Claim

theorem reports : Reports := by
  intro s hrun
  refine ⟨fun hkey => ?_, fun n hn hpos hfew hopen => ?_, ?_, ?_, fun seq => rfl⟩
  · refine congrArg s.stepDev ((if_pos (by simp [hrun, hkey])).trans ?_)
    cases s.lnk.plan <;> rfl
  · exact congrArg s.stepDev (Dev.ledgerExport_few hrun hn hpos hfew hopen)
  · exact congrArg s.stepDev (if_pos hrun)
  · exact congrArg s.stepDev (if_pos hrun)

theorem wallClock : WallClock := by
  intro s hrun
  have hgo : ¬ (!s.toDev.fwRuns) = true := by simp [hrun]
  refine ⟨fun off t => congrArg s.stepDev (if_neg hgo), fun off u hleap => ?_, rfl, fun pfx =>
    ⟨fun hnew => congrArg s.stepDev (if_pos ?_), fun hold => congrArg s.stepDev (if_neg ?_)⟩⟩
  · refine congrArg s.stepDev ((if_neg hgo).trans ?_)
    rw [Dev.announcedLeap_first hleap]
  · have hout : s.toDev.slaac pfx ∉ s.sec.addrs := hnew
    simpa [hrun] using hout
  · have hin : s.toDev.slaac pfx ∈ s.sec.addrs := hold
    simpa [hrun] using hin

end Claim
end Sys2Proof.Machine

/-- Settles O50: each report's body, and the wall clock with the leap second of `Dev.announcedLeap_first`. -/
theorem firmwareReports : Obligations.FirmwareReports := ⟨Claim.reports, Claim.wallClock⟩

end

/-! ### Waggle exchanges, timed events and barrier messages (R386–R405) -/

section
open Sys2Proof Sys2Proof.Machine Sys2Proof.Machine.Claim

namespace Sys2Proof.Machine

/-! Exchanges and the servo. -/

/-- A flit that is sent goes into a port: Waggle's own state stays. -/
theorem Dev.sendFlit_wag (d : Dev) (fl : Flit) : (d.sendFlit fl).1.wag = d.wag := by
  unfold Dev.sendFlit
  split
  · rfl
  · split <;> rfl

theorem Dev.waggleRequest_wag (d : Dev) (p : BitVec 15) (n : BitVec 32) : (d.waggleRequest p n).wag = d.wag :=
  d.sendFlit_wag _

/-- A device with a parent asks it, with the next number. -/
theorem Dev.exchangeTimer_of_parent {d : Dev} {p : BitVec 15} (hup : d.up = true) (hroot : d.wag.state ≠ .root)
    (hp : d.wag.parent = some p) :
    let e := ({ d with wag := { d.wag with reqSeq := d.wag.reqSeq + 1 } } : Dev).waggleRequest p (d.wag.reqSeq + 1)
    (d.wag.fallback = false → d.exchangeTimer = e)
      ∧ ∀ q, d.wag.fallback = true → d.wag.primary = some q → d.exchangeTimer
        = ({ e with wag := { e.wag with
          primGood := if e.wag.primAns then e.wag.primGood else 0, primAns := false, primSeq := e.wag.primSeq + 1 } } :
            Dev).waggleRequest q (e.wag.primSeq + 1) := by
  have hno : (!d.up || d.wag.state == .root) = false := by simp [hup, hroot]
  refine ⟨fun hfb => ?_, fun q hfb hq => ?_⟩
  · simp only [Dev.exchangeTimer, hno, Bool.false_eq_true, if_false, hp, Dev.waggleRequest_wag, hfb]
  · simp only [Dev.exchangeTimer, hno, Bool.false_eq_true, if_false, hp, Dev.waggleRequest_wag, hfb, hq]

/-- Where the servo goes changes no rate. -/
theorem Dev.setServo_shape (d : Dev) (st : WState) : ∃ m x g b, d.setServo st = { d with
    mem := m, sec := x, wag := { d.wag with state := st, good := g, badRun := b } } := by
  unfold Dev.setServo
  by_cases h : d.wag.state = st
  · rw [if_pos (by simpa using h)]
    exact ⟨d.mem, d.sec, d.wag.good, d.wag.badRun, by rw [← h]⟩
  · rw [if_neg (by simpa using h)]
    obtain ⟨m, x, hm⟩ := Dev.trace_shape { d with wag := { d.wag with state := st, good := 0, badRun := 0 } } 513 0xFFFF
      0xFFFF 0 0
    exact ⟨m, x, 0, 0, hm⟩

theorem Waggle.judge_rate (w : Waggle) (t : Int) : (w.judge t).1.rate = w.rate := by
  unfold Waggle.judge
  dsimp only
  split <;> rfl

theorem clampRate_le (x : Int) : (clampRate x).natAbs ≤ 1073741 := by
  unfold clampRate rateLimit
  omega

/-- The rate that a valid counter's servo leaves is within 250 ppm. -/
theorem Dev.servo_rate {d : Dev} (h : d.wag.valid = true) (t1 t2 t3 t4 : Nat) :
    (d.servo t1 t2 t3 t4).wag.rate.natAbs ≤ 1073741 := by
  have hrate (e : Dev) (st : WState) : (e.setServo st).wag.rate = e.wag.rate := by
    obtain ⟨m, x, g, b, hs⟩ := e.setServo_shape st
    rw [hs]
  simp only [Dev.servo, h, Bool.not_true, Bool.false_eq_true, if_false]
  rw [hrate]
  simp only [Waggle.judge_rate]
  exact clampRate_le _

/-- The first device of R387's order that is reached, with another parent lost. -/
def Dev.nextParent (d : Dev) : Option (Option (BitVec 15)) :=
  ([d.rackLeader (d.lnk.devId.toNat / 64), d.upperLeader, some d.wag.root]).find? fun o =>
    o.isSome && o != some d.lnk.devId && o != d.wag.parent && (o.bind fun i => d.portTo i).isSome

/-- The first reachable device becomes the parent. -/
def Dev.adopt (d : Dev) : Dev :=
  match d.nextParent with
  | some o => d.setParent o
  | none => d

theorem Dev.adopt_shape (d : Dev) : ∃ w : Waggle, d.adopt = { d with wag := w } ∧ w.state = d.wag.state
    ∧ w.rate = d.wag.rate ∧ w.ctr = d.wag.ctr ∧ (d.nextParent = none → w.parent = d.wag.parent)
    ∧ ∀ o, d.nextParent = some o → w.parent = o := by
  unfold Dev.adopt
  split
  · next o ho =>
    refine ⟨_, rfl, rfl, rfl, rfl, fun hn => ?_, fun o' ho' => ?_⟩
    · rw [ho] at hn
      cases hn
    · exact Option.some.inj (ho.symm.trans ho')
  · next hn =>
    refine ⟨_, rfl, rfl, rfl, rfl, fun _ => rfl, fun o ho => ?_⟩
    rw [hn] at ho
    cases ho

/-- HOLDOVER, with the rate frozen. -/
def Dev.holdOver (d : Dev) : Dev := ({ d with wag := { d.wag with rate := d.wag.fi } } : Dev).setServo .holdover

theorem Dev.holdOver_shape (d : Dev) : ∃ m x g b, d.holdOver = { d with
    mem := m, sec := x, wag := { d.wag with rate := d.wag.fi, state := .holdover, good := g, badRun := b } } :=
  Dev.setServo_shape _ .holdover

/-- The order is that of the device whose parent was lost. -/
theorem Dev.adopt_eq {d e : Dev} (hp : e.wag.parent = d.wag.parent) (hr : e.wag.root = d.wag.root) :
    (match ([e.rackLeader (e.lnk.devId.toNat / 64), e.upperLeader, some d.wag.root]).find? fun o =>
        o.isSome && o != some e.lnk.devId && o != d.wag.parent && (o.bind fun i => e.portTo i).isSome with
      | some o => e.setParent o
      | none => e) = e.adopt := by
  rw [← hp, ← hr]
  rfl

/-- The parent's silence leads to HOLDOVER from two states; then another parent is looked for. -/
theorem Dev.loseParent_eq {d : Dev} (hup : d.up = true) (hroot : d.wag.state ≠ .root) (hp : d.wag.parent ≠ none)
    (hlost : d.wag.heard + 1000000 ≤ d.ns ∨ d.wag.portLost = true) :
    d.loseParent = (if d.wag.heard + 1000000 ≤ d.ns ∧ (d.wag.state = .acquiring ∨ d.wag.state = .locked)
      then d.holdOver else d).adopt := by
  have hgo : (!d.up || d.wag.state == .root || d.wag.parent.isNone || (!d.parentSilent && !d.wag.portLost)) =
    false := by
    simp only [hup, Dev.parentSilent, Bool.not_true, Bool.or_eq_false_iff, beq_eq_false_iff_ne, Bool.false_or]
    refine ⟨⟨hroot, by simpa using Option.ne_none_iff_isSome.mp hp⟩, ?_⟩
    rcases hlost with h | h <;> simp [h]
  obtain ⟨m, x, g, b, hs⟩ := d.holdOver_shape
  unfold Dev.loseParent
  dsimp only
  rw [hgo, if_neg Bool.false_ne_true]
  by_cases hsil : d.wag.heard + 1000000 ≤ d.ns
  · have hyes : d.parentSilent = true := decide_eq_true hsil
    by_cases hst : d.wag.state = .acquiring ∨ d.wag.state = .locked
    · rw [if_neg (by simp [hyes]), if_pos (by simpa using hst), if_pos ⟨hsil, hst⟩]
      exact Dev.adopt_eq (e := d.holdOver) (by rw [hs]) (by rw [hs])
    · rw [if_neg (by simp [hyes]), if_neg (by simpa using hst), if_neg fun hc => hst hc.2]
      rfl
  · have hno : d.parentSilent = false := decide_eq_false hsil
    rw [if_pos hno, if_neg fun hc => hsil hc.1]
    rfl

/-! Barrier groups. -/

/-- A group that is not the free one reads back as it was set. -/
theorem Dev.group_setGroup (d : Dev) (g : Nat) {x : Group} (h : x ≠ {}) : (d.setGroup g x).group g = x := by
  simp only [Dev.group, Dev.setGroup, SMap.putD, if_neg h, SMap.get?_put]
  rfl

/-- With no one waiting, no arrival follows. -/
theorem Dev.nextArrival_of_nil {d : Dev} {g : Nat} (h : (d.group g).waiters = []) : d.nextArrival g = (d, false) := by
  simp only [Dev.nextArrival, h]

/-- A BROKEN group's only failed message is delivered, and no arrival is in progress or waits. -/
theorem Dev.resendBarrier_idle {d e : Dev} {gi : Nat} {x : Word × Nat × Nat} (hst : (d.group gi).state = .broken)
    (hx : (d.group gi).failed = [x])
    (hsend : (d.setGroup gi { d.group gi with failed := [] }).sendBar gi x.1 x.2.1 x.2.2 = (e, true))
    (hnil : (e.group gi).failed = []) (hopen : (e.group gi).open_ = false) (hwait : (e.group gi).waiters = []) :
    d.resendBarrier gi = e.setGroup gi { e.group gi with state := .idle } := by
  have hgo : ((d.group gi).state != .broken) = false := by simp [hst]
  have hset : (e.setGroup gi { e.group gi with state := .idle }).group gi = { e.group gi with state := .idle } :=
    e.group_setGroup gi fun h => GState.noConfusion (congrArg Group.state h)
  have hnext := Dev.nextArrival_of_nil (d := e.setGroup gi { e.group gi with state := .idle }) (g := gi)
    (by rw [hset]; exact hwait)
  simp only [hnil] at hnext
  simp only [Dev.resendBarrier, hgo, Bool.false_eq_true, if_false, hx, List.foldl_cons, List.foldl_nil, hsend, hnil,
    List.isEmpty_nil, Bool.not_true, hopen, hnext]

/-- It is delivered, and the arrival in progress goes on. -/
theorem Dev.resendBarrier_open {d e : Dev} {gi : Nat} {x : Word × Nat × Nat} (hst : (d.group gi).state = .broken)
    (hx : (d.group gi).failed = [x])
    (hsend : (d.setGroup gi { d.group gi with failed := [] }).sendBar gi x.1 x.2.1 x.2.2 = (e, true))
    (hnil : (e.group gi).failed = []) (hopen : (e.group gi).open_ = true) :
    d.resendBarrier gi = (e.setGroup gi { e.group gi with state := .arrived }).stirGroup gi := by
  have hgo : ((d.group gi).state != .broken) = false := by simp [hst]
  simp only [Dev.resendBarrier, hgo, Bool.false_eq_true, if_false, hx, List.foldl_cons, List.foldl_nil, hsend, hnil,
    List.isEmpty_nil, Bool.not_true, hopen, if_true]

/-- It fails again, and is kept. -/
theorem Dev.resendBarrier_fails {d e : Dev} {gi : Nat} {x : Word × Nat × Nat} (hst : (d.group gi).state = .broken)
    (hx : (d.group gi).failed = [x])
    (hsend : (d.setGroup gi { d.group gi with failed := [] }).sendBar gi x.1 x.2.1 x.2.2 = (e, false))
    (hnil : (e.group gi).failed = []) :
    d.resendBarrier gi = e.setGroup gi { e.group gi with failed := [x] } := by
  have hgo : ((d.group gi).state != .broken) = false := by simp [hst]
  have hset : (e.setGroup gi { e.group gi with failed := [x] }).group gi = { e.group gi with failed := [x] } :=
    e.group_setGroup gi fun h => List.cons_ne_nil x [] (congrArg Group.failed h)
  simp only [Dev.resendBarrier, hgo, Bool.false_eq_true, if_false, hx, List.foldl_cons, List.foldl_nil, hsend, hnil,
    List.nil_append, hset, List.isEmpty_cons, Bool.not_false, if_true]

namespace Claim

theorem waggleExchanges : WaggleExchanges := by
  intro s hup w
  refine ⟨fun p hroot hp hfb => ?_, fun p q hroot hp hfb hq => ?_, fun p src m => congrArg s.stepDev (if_pos hup),
    fun p src m => ?_, fun t1 t2 t3 t4 hv => Dev.servo_rate hv t1 t2 t3 t4, ?_⟩
  · exact congrArg s.stepDev ((Dev.exchangeTimer_of_parent hup hroot hp).1 hfb)
  · exact congrArg s.stepDev ((Dev.exchangeTimer_of_parent hup hroot hp).2 q hfb hq)
  · intro d heard mine hroot
    have hgo : exec (.waggleRsp p src m) s = s.stepDev (d.waggleResponse src m (s.toDev.wagStamp p src)) :=
      congrArg s.stepDev (if_pos hup)
    have hno : (d.wag.state == .root) = false := by simpa using hroot
    have hmine : (d.wag.parent == some src && m.seq == d.wag.reqSeq) = true ↔ mine := by simp [mine]
    refine ⟨fun hm hr => hgo.trans (congrArg s.stepDev ?_), fun hm hr => hgo.trans (congrArg s.stepDev ?_),
      fun hm hfb hprim hseq hans => ?_⟩
    · simp only [Dev.waggleResponse, hno, Bool.false_eq_true, if_false, hmine.mpr hm, if_true, hr, bne_self_eq_false]
      rfl
    · simp only [Dev.waggleResponse, hno, Bool.false_eq_true, if_false, hmine.mpr hm, if_true, bne_iff_ne.mpr hr]
      rfl
    · intro n e
      refine hgo.trans (congrArg s.stepDev ?_)
      exact (if_neg (Bool.eq_false_iff.mp hno)).trans ((if_neg fun h => hm (hmine.mp h)).trans
        (if_pos (by simp [hfb, hprim, hseq, hans])))
  · intro silent hroot hp hlost holds next
    have hgo : exec .parentLost s = s.stepDev _ := congrArg s.stepDev (Dev.loseParent_eq hup hroot hp hlost)
    by_cases hold : holds
    · obtain ⟨m, x, g, b, hs⟩ := s.toDev.holdOver_shape
      obtain ⟨v, hv, hst, hrate, hctr, hnone, hsome⟩ := s.toDev.holdOver.adopt_shape
      have hnext : s.toDev.holdOver.nextParent = next := by
        rw [hs]
        rfl
      rw [if_pos hold] at hgo
      refine ⟨_, hgo, fun _ => ?_, fun hc => absurd hold hc, fun hn => ?_, fun o ho => ?_, ?_, ?_, ?_, ?_⟩
      · exact ⟨by rw [hv, hst, hs], by rw [hv, hrate, hs]⟩
      · rw [hv, hnone (hnext.trans hn), hs]
      · rw [hv, hsome o (hnext.trans ho)]
      · rw [hv, hctr, hs]
      · rw [hv, hs]
      · rw [hv, hs]
      · rw [hv, hs]
    · obtain ⟨v, hv, hst, hrate, hctr, hnone, hsome⟩ := s.toDev.adopt_shape
      rw [if_neg hold] at hgo
      refine ⟨_, hgo, fun hc => absurd hc hold, fun _ => ?_, fun hn => ?_, fun o ho => ?_, ?_, ?_, ?_, ?_⟩
      · exact ⟨by rw [hv, hst], by rw [hv, hrate]⟩
      · rw [hv, hnone hn]
      · rw [hv, hsome o ho]
      · rw [hv, hctr]
      · rw [hv]
      · rw [hv]
      · rw [hv]

theorem timedEvents : TimedEvents := by
  intro s
  refine ⟨fun i b hb => ?_, fun hup hslot => congrArg s.stepDev ((if_pos hup).trans ?_),
    fun hslot => congrArg s.stepDev ?_⟩
  · intro gone
    have hgo : s.toDev.releaseBell i = if s.wag.valid && decide (s.toDev.waggle < b.time.toNat) then s.toDev
        else gone (if s.wag.valid then s.wag.earlyRel else satAdd s.wag.earlyRel) := by
      simp only [Dev.releaseBell, hb, gone]
    refine ⟨fun hv hle => congrArg s.stepDev (hgo.trans ?_), fun hv hlt => congrArg s.stepDev (hgo.trans ?_),
      fun hv => congrArg s.stepDev (hgo.trans ?_)⟩
    · rw [if_neg (by simp [hle]), if_pos hv]
    · rw [if_pos (by simp [hv, hlt])]
    · rw [if_neg (by simp [hv]), if_neg (by simp [hv])]
  · exact if_neg (by simp [slotAt, Dev.ownPowerSlot, hslot])
  · have hno : s.toDev.slotStart = s.toDev := if_pos (by simpa [slotAt, Dev.ownPowerSlot] using hslot)
    rw [hno, ite_self]

theorem barrierMessages : BarrierMessages := by
  intro s hup
  refine ⟨fun m => ?_, fun g ep r m => ?_⟩
  · intro d hit
    refine ⟨fun gi g h => congrArg s.stepDev ((if_pos hup).trans ?_),
      fun h => congrArg s.stepDev ((if_pos hup).trans ?_)⟩
    · unfold Dev.barrierMsg
      dsimp only
      rw [show d.wag.groups.find? _ = _ from h]
    · unfold Dev.barrierMsg
      dsimp only
      rw [show d.wag.groups.find? _ = _ from h]
  · intro gr x d hst hfailed hnil
    refine ⟨fun hok => ⟨fun hopen => ?_, fun hopen hwait => ?_⟩, fun hok => ?_⟩
    · exact congrArg s.stepDev ((if_pos hup).trans
        (Dev.resendBarrier_open hst hfailed (Prod.ext rfl hok) hnil hopen))
    · exact congrArg s.stepDev ((if_pos hup).trans
        (Dev.resendBarrier_idle hst hfailed (Prod.ext rfl hok) hnil hopen hwait))
    · exact congrArg s.stepDev ((if_pos hup).trans (Dev.resendBarrier_fails hst hfailed (Prod.ext rfl hok) hnil))

end Claim
end Sys2Proof.Machine

/-- Settles O53: the timer, the servo's limits, the loss of a parent by `Dev.loseParent_eq`, and the three ways a BROKEN
group's message can end. -/
theorem timeAndBarriers : Obligations.TimeAndBarriers :=
  ⟨Claim.waggleExchanges, Claim.timedEvents, Claim.barrierMessages⟩

end

/-! ### Boot: the self-test's records raise an interrupt (R27, R444)

O10 says of a self-test after which the boot still waits for its repair list that it leaves the host interface
as it was. A frame that fails the test gets a record in the ledger (`Dev.recordService`), and every record raises cause
2. -/

section
open Sys2Proof Sys2Proof.Machine

namespace Sys2Proof.Machine

/-- An interrupt raises its own cause and clears none. -/
theorem Dev.irq_cause (d : Dev) (b i : Nat) :
    (d.irq b).hif.irqCause.getLsbD i = (d.hif.irqCause.getLsbD i || (1#4 <<< b).getLsbD i) := by
  unfold Dev.irq Dev.msix
  split <;> exact BitVec.getLsbD_or

theorem Dev.irq_sec (d : Dev) (b : Nat) : (d.irq b).sec = d.sec := by
  unfold Dev.irq Dev.msix
  split <;> rfl

/-- A record leaves the firmware's own state alone, and clears no cause. -/
theorem Dev.ledger_keeps (d : Dev) (cls code : Nat) (x : LedF) : (d.ledger cls code x).sec = d.sec
    ∧ (d.hif.irqCause.getLsbD 2 = true → (d.ledger cls code x).hif.irqCause.getLsbD 2 = true) := by
  unfold Dev.ledger
  split
  · exact ⟨rfl, id⟩
  · dsimp only
    split
    · exact ⟨rfl, id⟩
    · refine ⟨by simp only [Dev.irq_sec, Dev.write], fun h => ?_⟩
      rw [Dev.irq_cause, Bool.or_eq_true]
      exact .inr rfl

/-- A record of firmware that runs, in a class with no records this second, raises cause 2. -/
theorem Dev.ledger_raises {d : Dev} (hrun : d.fwRuns = true) (hwin : d.grd.window = []) (cls code : Nat) (x : LedF) :
    (d.ledger cls code x).hif.irqCause.getLsbD 2 = true := by
  have hcount : (d.windowCounts.get? (256 * (d.waggle / 1000000000) + cls)).getD 0 = 0 := by
    simp [Dev.windowCounts, hwin, SMap.get?]
  simp only [Dev.ledger, hrun, Bool.not_true, Bool.false_eq_true, if_false, hcount,
    (by decide : ¬ 256 ≤ 0), Dev.irq_cause]
  exact Bool.or_true _

/-- Where frame 0's service is not what it was, the records of the self-test raise cause 2. -/
theorem Dev.recordService_raises {d : Dev} (hrun : d.fwRuns = true) (hwin : d.grd.window = [])
    (hchange : (d.frame 0).svc.insvc ≠ (d.frame 0).svc.before.getD ((d.frame 0).svc.cause != 1)) :
    d.recordService.sec = d.sec ∧ d.recordService.hif.irqCause.getLsbD 2 = true := by
  have hsplit : allFrames = 0 :: (List.finRange 383).map Fin.succ := List.finRange_succ
  unfold Dev.recordService
  rw [hsplit, List.foldl_cons]
  refine List.foldlRecOn (motive := fun e : Dev => e.sec = d.sec ∧ e.hif.irqCause.getLsbD 2 = true) _ _ ?_ ?_
  · rw [if_neg (by simpa using hchange)]
    exact ⟨(d.ledger_keeps ..).1, d.ledger_raises hrun hwin ..⟩
  · rintro e ⟨hsec, hbit⟩ f -
    dsimp only
    split
    · exact ⟨hsec, hbit⟩
    · exact ⟨(e.ledger_keeps ..).1.trans hsec, (e.ledger_keeps ..).2 hbit⟩

/-- The frames after their self-test, before its records. -/
def Dev.withResults (d : Dev) (rs : List (FrameId × SelfTest)) : Dev :=
  { d with
    fr := d.fr.mapFinIdx fun i fr h => fr.afterTest (d.sec.fuses.badFrames.getLsbD i)
      (SelfTest.join (testOf d.sec.fuses.repairs ⟨i, h⟩) (testOf rs ⟨i, h⟩))
    sec := { d.sec with tested := true } }

theorem Dev.frame_withResults (d : Dev) (rs : List (FrameId × SelfTest)) (f : FrameId) :
    (d.withResults rs).frame f = (d.frame f).afterTest (d.sec.fuses.badFrames.getLsbD f.val)
      (SelfTest.join (testOf d.sec.fuses.repairs f) (testOf rs f)) :=
  Vector.getElem_mapFinIdx ..

/-- What the self-test marks once its records are written. -/
def Dev.markTested (d : Dev) : Dev :=
  { d with fr := d.fr.map fun fr => { fr with svc := { fr.svc with before := none, tested := true } } }

theorem Dev.markTested_hif (d : Dev) : d.markTested.hif = d.hif := rfl

theorem Dev.markTested_sec (d : Dev) : d.markTested.sec = d.sec := rfl

theorem Dev.selfTested_eq (d : Dev) (rs : List (FrameId × SelfTest)) :
    d.selfTested rs = (d.withResults rs).recordService.markTested := rfl

/-- A boot that waits for its repair list raises what the records of the self-test raised. -/
theorem Dev.bootDone_hif {d : Dev} {rs : List (FrameId × SelfTest)} (hphase : d.sec.phase = .started)
    (htest : d.sec.tested = false) (hlist : d.sec.repairDone = false) (hlate : d.sec.listLate = false)
    (hsec : (d.withResults rs).recordService.sec = (d.withResults rs).sec) :
    (d.bootDone rs).hif = (d.withResults rs).recordService.hif := by
  have hgo : d.bootDone rs = (d.selfTested rs).readyIfDone := if_pos (by simp [hphase, htest])
  have hwait : (d.selfTested rs).readyIfDone = d.selfTested rs := by
    refine if_neg ?_
    rw [d.selfTested_eq, Dev.markTested_sec, hsec]
    simp [Dev.withResults, hlist, hlate]
  rw [hgo, hwait, d.selfTested_eq, Dev.markTested_hif]

namespace Claim

/-- A command leaves one device. -/
theorem stepDev_inj {s : State} {d e : Dev} (h : s.stepDev d = .next (withDev s e)) : d = e :=
  congrArg State.toDev (Host.Outcome.next.inj h)

/-- Firmware that has started and knows neither repair list nor self-test. -/
def untested : State := { State.reset with sec := { State.reset.sec with phase := .started } }

/-- Frame 0 fails its self-test. -/
def oneFails : List (FrameId × SelfTest) := [(0, { fail := true })]

/-- Its service is not what it was. -/
theorem untested_changes : ((untested.withResults oneFails).frame 0).svc.insvc
    ≠ ((untested.withResults oneFails).frame 0).svc.before.getD
      (((untested.withResults oneFails).frame 0).svc.cause != 1) := by
  rw [Dev.frame_withResults]
  decide +kernel

/-- Its record has raised the interrupt of the ledger. -/
theorem untested_irq : (untested.bootDone oneFails).hif.irqCause.getLsbD 2 = true := by
  obtain ⟨hsec, hbit⟩ := Dev.recordService_raises (d := untested.withResults oneFails) rfl rfl untested_changes
  rw [Dev.bootDone_hif rfl rfl rfl rfl hsec]
  exact hbit

end Claim
end Sys2Proof.Machine

open Sys2Proof.Machine.Claim

/-- Refutes O10: a frame that fails its self-test gets a ledger record, which raises an interrupt cause; the clause on a
self-test that ends before the repair list is there has the host interface unchanged. -/
theorem not_boots : ¬ Obligations.Boots := by
  intro h
  obtain ⟨-, -, -, -, -, -, -, -, -, -, htest⟩ := h untested
  obtain ⟨d, hexec, -, -, hwaits, -⟩ := htest rfl rfl rfl oneFails
  obtain ⟨-, hhif⟩ := hwaits rfl rfl
  have hstep : untested.stepDev (untested.bootDone oneFails) = .next (withDev untested d) := hexec
  have hd : untested.bootDone oneFails = d := stepDev_inj hstep
  have hraised := untested_irq
  rw [hd, hhif] at hraised
  cases hraised

end

/-! ### Data flits that arrive (R356–R360, R382) -/

section
open Sys2Proof Sys2Proof.Machine Sys2Proof.Machine.Claim

namespace Sys2Proof.Machine

@[simp] theorem Dev.port_updPort (d : Dev) (p : Port) (g : LPort → LPort) : (d.updPort p g).port p = g (d.port p) :=
  d.port_setPort p _

/-- An update of a port that has just been set. -/
@[simp] theorem Dev.updPort_setPort (d : Dev) (p : Port) (x : LPort) (g : LPort → LPort) :
    (d.setPort p x).updPort p g = d.setPort p (g x) := by
  rw [Dev.updPort, Dev.port_setPort, Dev.setPort_setPort]

/-- What the receiver makes of a flit whose count and CRC are right. -/
def Dev.receiveGood (d : Dev) (p : Port) (x : LPort) (bs : List Byte) : Dev :=
  let fl := Flit.ofBytes bs
  let e := d.setPort p { x with rxSeq := x.rxSeq + 1, nak := false }
  if !knownProto fl.proto then (e.updPort p (·.freeOne fl.cls)).unknownMessage p bs
  else if x.share fl.cls ≤ x.heldOf fl.cls then
    (e.updPort p fun x => { (x.say ([3] ++ le 1 fl.cls.toNat ++ le 2 1)) with creditOvr := satAdd x.creditOvr
      }).violation p
  else e.acceptFlit p fl

/-- A flit on an ACTIVE port, by its CRC and form. -/
theorem Dev.receiveFlit_active {d : Dev} {p : Port} {x : LPort} {bs : List Byte} (hx : d.port p = x)
    (hst : x.state = .active) (hlen : bs.length = 256) (hcls : field bs 0 2 ≠ 3) :
    d.receiveFlit p bs = if field bs 252 4 ≠ flitCrc x.rxSeq (bs.take 252) then
        d.setPort p { x with crcErr := satAdd x.crcErr, nak := true }
      else if malformedFlit x.rxSeq bs then
        (d.setPort p { x with malformed := satAdd x.malformed, nak := true }).violation p
      else d.receiveGood p x bs := by
  have hgo : (x.state != .active || bs.length != 256) = false := by simp [hst, hlen]
  have hdata : (field bs 0 2 == 3) = false := by simpa using hcls
  simp only [Dev.receiveFlit, hx, hgo, hdata, Bool.false_eq_true, if_false, bne_iff_ne]
  rfl

theorem knownProto_iff (b : Byte) : knownProto b = true ↔ 1 ≤ b.toNat ∧ b.toNat ≤ 9 := by
  simp [knownProto]

end Sys2Proof.Machine

/-- Settles O15: the cases of `Dev.receiveFlit_active` and of `Dev.receiveGood`. -/
theorem flitsArrive : Obligations.FlitsArrive := by
  intro s p bs fec x fl next good hst hlen hcls
  let d := s.toDev.setPort p x
  have hdec : (s.toDev.port p).state.decodes = true := by
    rw [show (s.toDev.port p).state = .active from hst]
    rfl
  have hfec : s.toDev.fecErrors p fec = d := if_pos hdec
  have hset (y : LPort) : d.setPort p y = s.toDev.setPort p y := s.toDev.setPort_setPort p x y
  have hgo {e : Dev} (h : d.receiveFlit p bs = e) : next e := by
    refine congrArg s.stepDev ?_
    rw [hfec, h]
  have hcase := Dev.receiveFlit_active (s.toDev.port_setPort p x) hst hlen hcls
  refine ⟨fun hbad => ?_, fun hcrc => ⟨fun hmal => ?_, fun hmal hproto => ?_, fun hmal hlo hhi => ?_⟩⟩
  · exact hgo (hcase.trans ((if_pos hbad).trans (hset _)))
  · refine hgo (hcase.trans ((if_neg (not_not.mpr hcrc)).trans ((if_pos hmal).trans ?_)))
    rw [hset]
  · refine hgo (hcase.trans ((if_neg (not_not.mpr hcrc)).trans ((if_neg (by simp [hmal])).trans ?_)))
    have hunknown : ¬ knownProto fl.proto = true := by
      rw [knownProto_iff]
      omega
    refine (if_pos (by simpa using hunknown)).trans ?_
    rw [hset, Dev.updPort_setPort]
  · have hrest : d.receiveFlit p bs = d.receiveGood p x bs :=
      hcase.trans ((if_neg (not_not.mpr hcrc)).trans (if_neg (by simp [hmal])))
    have hknown : ¬ (!knownProto fl.proto) = true := by
      rw [(knownProto_iff fl.proto).mpr ⟨hlo, hhi⟩]
      decide
    refine ⟨fun hfull => hgo (hrest.trans ((if_neg hknown).trans ((if_pos hfull).trans ?_))), fun hroom => ?_⟩
    · rw [hset, Dev.updPort_setPort]
    · have hacc : d.receiveFlit p bs = (s.toDev.setPort p good).acceptFlit p fl := by
        refine hrest.trans ((if_neg hknown).trans ((if_neg (Nat.not_le.mpr hroom)).trans ?_))
        rw [hset]
      refine ⟨fun hown => hgo (hacc.trans ((if_pos (beq_iff_eq.mpr hown)).trans ?_)),
        fun hother => hgo (hacc.trans ((if_neg fun h => hother (beq_iff_eq.mp h)).trans ?_))⟩
      · rw [Dev.updPort_setPort]
        by_cases hw : fl.proto = 3
        · rw [if_pos hw, if_pos (beq_iff_eq.mpr hw)]
          rfl
        · rw [if_neg hw, if_neg fun h => hw (beq_iff_eq.mp h)]
      · rw [Dev.updPort_setPort]

end

/-! ### Training of ports (R371, R481) -/

section
open Sys2Proof Sys2Proof.Machine Sys2Proof.Machine.Claim

namespace Sys2Proof.Machine

/-- The state that completes is the one the port is in once the partner's shares are known. -/
theorem Dev.trainDone_eq {d : Dev} {p : Port} {o : TrainObs} {x : LPort} (hx : (d.port p).setShares o.shares = x) :
    let e := d.setPort p x
    (x.state = .detect → x.parked = false →
      d.trainDone p o = if o.notReady then e.setPort p { x with parked := true } else e.enterEq p)
    ∧ (x.state = .eq → d.trainDone p o = (e.setPort p { x with
        hintUsed := x.fromHint, obs := { x.obs with txTaps := o.txTaps, rxTaps := o.rxTaps } }).movePort p .laneMap)
    ∧ (x.state = .laneMap → d.trainDone p o =
        let n := laneCount (goodLanes o.laneMask)
        let e := e.setPort p { x with laneMask := o.laneMask, lanes := n }
        if n = 0 then e.portDown p .failed else e.movePort p .fecLock)
    ∧ (x.state = .fecLock → d.trainDone p o = (e.movePort p .hello).sendHello p) := by
  intro e
  have hset : d.updPort p (·.setShares o.shares) = e := by rw [Dev.updPort, hx]
  have hport : e.port p = x := d.port_setPort p x
  refine ⟨fun hst hpark => ?_, fun hst => ?_, fun hst => ?_, fun hst => ?_⟩
  · simp only [Dev.trainDone, hset, hport, hst, hpark, Bool.false_eq_true, if_false]
  · simp only [Dev.trainDone, hset, hport, hst]
  · simp only [Dev.trainDone, hset, hport, hst]
  · simp only [Dev.trainDone, hset, hport, hst]

/-- A state that takes too long. -/
theorem Dev.trainTimeout_eq {d : Dev} {p : Port} {x : LPort} (hx : d.port p = x) :
    (x.state = .detect → x.parked = false → d.trainTimeout p = d.portDown p .offline)
      ∧ (x.state = .eq → x.fromHint = true → d.trainTimeout p = d.setPort p { x with fromHint := false })
      ∧ ((x.state = .eq ∧ x.fromHint = false ∨ x.state = .laneMap ∨ x.state = .fecLock
          ∨ x.state = .hello ∧ d.lnk.plan ≠ none) → d.trainTimeout p = d.portDown p .failed) := by
  refine ⟨fun hst hpark => ?_, fun hst hhint => ?_, ?_⟩
  · simp only [Dev.trainTimeout, hx, hst, hpark, Bool.false_eq_true, if_false]
  · simp only [Dev.trainTimeout, hx, hst, hhint, if_true]
  · rintro (⟨hst, hhint⟩ | hst | hst | ⟨hst, hplan⟩)
    · simp only [Dev.trainTimeout, hx, hst, hhint, Bool.false_eq_true, if_false]
    · simp only [Dev.trainTimeout, hx, hst]
    · simp only [Dev.trainTimeout, hx, hst]
    · simp only [Dev.trainTimeout, hx, hst, Option.isSome_iff_ne_none.mpr hplan, if_true]

/-- The waves of training come in their order. -/
theorem Dev.startWave_next {d : Dev} {w : Fin 4} (hup : d.up = true) (hplan : d.lnk.plan ≠ none)
    (hnext : w = 0 ∧ d.lnk.wave = none ∨ ∃ v : Fin 4, d.lnk.wave = some v ∧ w.val = v.val + 1) :
    d.startWave w = (List.finRange 32).foldl (fun d p =>
      if d.inWave p w && ((d.port p).state == .notReady || (d.port p).state == .offline) then
        if d.mayTrain p then d.startDetect p else d.movePort p .offline
      else d) { d with lnk := { d.lnk with wave := some w } } := by
  unfold Dev.startWave
  dsimp only
  refine if_neg ?_
  rw [hup, Option.isSome_iff_ne_none.mpr hplan]
  rcases hnext with ⟨rfl, hw⟩ | ⟨v, hw, hv⟩
  · simp [hw]
  · simp [hw, hv]

end Sys2Proof.Machine

/-- Settles O16: the cases of `Dev.trainDone_eq` and `Dev.trainTimeout_eq`, and the guards of the other commands. -/
theorem portsTrain : Obligations.PortsTrain := by
  intro s p d x
  refine ⟨fun w hup hplan hnext => congrArg s.stepDev (Dev.startWave_next hup hplan hnext), fun o => ?_, ?_,
    fun hst hmay hbusy => congrArg s.stepDev (if_pos ?_), fun hst hpark => ⟨fun hmay => congrArg s.stepDev (if_pos ?_),
      fun hmay => congrArg s.stepDev (if_neg ?_)⟩⟩
  · intro d x next n
    obtain ⟨hdetect, heq, hlane, hfec⟩ := Dev.trainDone_eq (d := s.toDev) (p := p) (o := o) rfl
    have hgo {e : Dev} (h : s.toDev.trainDone p o = e) : next e := congrArg (fun e : Dev => s.stepDev e.fillPlaces) h
    refine ⟨fun hst hpark => ⟨fun hno => hgo ?_, fun hno => hgo ?_⟩, fun hst => hgo (heq hst),
      fun hst => ?_, fun hst => hgo (hfec hst)⟩
    · exact (hdetect hst hpark).trans (if_neg (by simp [hno]))
    · exact (hdetect hst hpark).trans (if_pos hno)
    · intro d
      exact ⟨fun hn => hgo ((hlane hst).trans (if_neg hn)), fun hn => hgo ((hlane hst).trans (if_pos hn))⟩
  · intro fails
    obtain ⟨hoff, hhint, hfail⟩ := Dev.trainTimeout_eq (d := s.toDev) (p := p) rfl
    have hgo {e : Dev} (h : s.toDev.trainTimeout p = e) : fails e := congrArg (fun e : Dev => s.stepDev e.fillPlaces) h
    exact ⟨fun hst hpark => hgo (hoff hst hpark), fun hst h => hgo (hhint hst h), fun h => hgo (hfail h)⟩
  · have hnone : ((List.finRange 32).any fun q => (d.port q).busy) = false := by simpa using hbusy
    have hst' : ((d.port p).state == .offline || (d.port p).state == .failed) = true := by simpa using hst
    rw [hmay, hst', hnone]
    rfl
  · simp [show (s.toDev.port p).state = _ from hst, show (s.toDev.port p).parked = _ from hpark,
      show s.toDev.mayTrain p = true from hmay]
  · simp [show s.toDev.mayTrain p = false from hmay]

end

/-! ### DONE, BELL and the end of a task (R134, R187, R188, R237) -/

section
open Sys2Proof Sys2Proof.Machine Sys2Proof.Machine.Claim

namespace Sys2Proof.Machine

/-- A bell's address is aligned. -/
theorem bellAddr_and (a : Word) : (a &&& 0x7FFFFFFFFFFFFFF8#64) &&& ~~~7#64 = a &&& 0x7FFFFFFFFFFFFFF8#64 := by
  rw [BitVec.and_assoc]
  rfl

/-- A bell of this device, to a semaphore that a context of the same job owns, is an update that sets out. -/
theorem Dev.ringTaskBell_here {d : Dev} {a v : Word} {add : Bool} {job : BitVec 16} {o : Origin} {n : Nat}
    {owner : BitVec 12} (halign : a &&& ~~~7#64 = a) (hdev : fabDev a = d.lnk.devId) (hn : n < semCount)
    (hpa : a.toNat % 2 ^ 48 = semBase + 8 * n) (hown : d.semOwner n = some owner) (hjob : (d.ctx owner).job = job) :
    d.ringTaskBell a v add job o = { d with mkt := { d.mkt with
      semQ := d.mkt.semQ ++ [{ sem := n, value := v, add := add }] } } := by
  have hin : semBase ≤ a.toNat % 2 ^ 48 ∧ a.toNat % 2 ^ 48 < semBase + 8 * semCount := by omega
  have hix : (a.toNat % 2 ^ 48 - semBase) / 8 = n := by omega
  simp only [Dev.ringTaskBell, Dev.bell, halign, hdev, beq_self_eq_true, if_true, Dev.bellHere, if_pos hin, hix, hown,
    hjob, Dev.pushSem]

/-- A fault with an address of the virtual space. -/
theorem mkFault_virtual (op : Op) (x : Insn) (code unit a : Nat) :
    mkFault op x code unit (some (a % 2 ^ 52, true)) = {
      code := BitVec.ofNat 8 code, unit := BitVec.ofNat 4 unit
      precise := true, addrV := true, addr := BitVec.ofNat 52 a, space := true, insn := insnWord op x } := by
  have haddr : BitVec.ofNat 52 (a % 2 ^ 52) = BitVec.ofNat 52 a := BitVec.eq_of_toNat_eq (by simp)
  simp only [mkFault, Option.map_some, Option.getD_some, Option.isSome_some, haddr]

namespace Claim

theorem doneEnds : DoneEnds := by
  intro s f x hdst hc
  dsimp only
  refine ⟨fun ha hb hmod hready => ?_, fun hmod hready => ?_⟩
  · have hlegal : doneBody.legal x = true := by simp [doneBody, fieldsOk, regOk, bellOp, hdst, ha, hb, hc, hmod]
    have huses : doneBody.uses x = [] := by simp [doneBody, hmod]
    exact Ready.issue_upd (op := .done) (imm := 0) (huses ▸ hready) rfl hlegal (if_neg (by simp [hmod]))
  · have hbell : x.mod.getLsbD 0 = true := by rcases hmod with h | h <;> rw [h] <;> rfl
    have hadd : x.mod.getLsbD 1 = decide (x.mod = 3) := by rcases hmod with h | h <;> rw [h] <;> rfl
    have hlegal : doneBody.legal x = true := by
      rcases hmod with h | h <;> simp [doneBody, fieldsOk, regOk, rS, bellOp, hdst, hc, h, x.a.isLt, x.b.isLt]
    have huses : doneBody.uses x = [.s x.a, .s x.b] := if_pos hbell
    rw [← huses] at hready
    refine ⟨fun hgrant => ?_, fun hgrant => ?_⟩
    · have hact : doneBody.act s.toDev f x 0 = .next (s.toDev.updFrame f fun fr => { fr with
          state := .ending
          ringing := some ((s.frame f).regs.getS x.a &&& 0x7FFFFFFFFFFFFFF8#64, (s.frame f).regs.getS x.b,
            decide (x.mod = 3)) }) := by
        rw [← hadd]
        exact (if_pos hbell).trans (if_neg (by simpa [bellAddr] using hgrant))
      exact Ready.issue_upd (op := .done) hready rfl hlegal hact
    · have hact : doneBody.act s.toDev f x 0
          = .fault 0x04 0 (some (((s.frame f).regs.getS x.a &&& 0x7FFFFFFFFFFFFFF8#64).toNat % 2 ^ 52, true)) :=
        (if_pos hbell).trans (if_pos (by simpa [bellAddr] using hgrant))
      refine (Ready.issue_fault (op := .done) hready hlegal hact).trans ?_
      rw [mkFault_virtual]
      rfl

/-- BELL goes on to its target when that is granted, of this device, and the frame's work is over. -/
theorem bellBody_near {d : Dev} {f : FrameId} {x : Insn} {imm : Word} {a : Word}
    (ha : (d.frame f).regs.getS x.a &&& 0x7FFFFFFFFFFFFFF8#64 = a) (hgrant : (d.frame f).grantsBell a.toNat = true)
    (hquiet : (d.frame f).quiet = true) (hdev : fabDev a = d.lnk.devId) :
    let v := (d.frame f).regs.getS x.b
    let t := (d.frame f).regs.getS x.c
    let add := x.mod.getLsbD 0
    let o := d.bellOrigin f (insnWord .bell x) add
    let job := (d.ctx (d.frame f).ctx).job
    (x.mod.getLsbD 2 = false → bellBody.act d f x imm = .next (d.ringTaskBell a v add job o))
      ∧ (x.mod.getLsbD 2 = true → d.wag.valid = true → d.waggle < t.toNat → bellBody.act d f x imm
        = .next { d with wag := { d.wag with tbells := d.wag.tbells ++ [{
          addr := a, value := v, add := add, time := t, job := job, origin := o }] } }) := by
  intro v t add o job
  have hfar : (fabDev a != d.lnk.devId) = false := by simp [hdev]
  refine ⟨fun htimed => ?_, fun htimed hvalid hlt => ?_⟩
  · simp only [bellBody, bellAddr, ha, hgrant, hquiet, hfar, htimed, Bool.not_true, Bool.false_eq_true, if_false,
      Bool.false_and]
    rfl
  · simp only [bellBody, bellAddr, ha, hgrant, hquiet, hfar, htimed, hvalid, show d.waggle <
    ((d.frame f).regs.getS x.c).toNat
      from hlt, decide_true, Bool.not_true, Bool.false_eq_true, if_false, Bool.false_and, Bool.and_false, Bool.and_self,
      if_true]
    rfl

theorem bellRings : BellRings := by
  intro s f x n owner hdst
  dsimp only
  intro hgrant hquiet hdev
  obtain ⟨hnow, htimed⟩ := bellBody_near (imm := 0) rfl hgrant hquiet hdev
  refine ⟨fun hc hmod hready hn hpa hown hjob => ?_, fun hmod hready hvalid hlt => ?_⟩
  · have hop : x.mod = 0 ∨ x.mod = 1 := by
      rcases (by omega : x.mod.toNat = 0 ∨ x.mod.toNat = 1) with h | h
      · exact .inl (BitVec.eq_of_toNat_eq h)
      · exact .inr (BitVec.eq_of_toNat_eq h)
    have hplain : x.mod.getLsbD 2 = false := by rcases hop with h | h <;> rw [h] <;> rfl
    have hadd : x.mod.getLsbD 0 = decide (x.mod.toNat = 1) := by rcases hop with h | h <;> rw [h] <;> rfl
    have hlegal : bellBody.legal x = true := by
      rcases hop with h | h <;> simp [bellBody, fieldsOk, regOk, rS, bellOp, hdst, hc, h, x.a.isLt, x.b.isLt]
    have huses : bellBody.uses x = [.s x.a, .s x.b] := by
      simp only [bellBody, hplain, useS, Bool.false_eq_true, if_false]
      rfl
    rw [← huses] at hready
    have hring := Dev.ringTaskBell_here (d := s.toDev) (v := (s.frame f).regs.getS x.b) (add := x.mod.getLsbD 0)
      (o := s.toDev.bellOrigin f (insnWord .bell x) (x.mod.getLsbD 0)) (bellAddr_and ((s.frame f).regs.getS x.a)) hdev
      hn hpa hown hjob
    have hact := (hnow hplain).trans (congrArg Issue.next hring)
    rw [hadd] at hact
    refine (congrArg s.stepDev (Ready.issue_next .bell hready hlegal hact)).trans ?_
    rfl
  · have htime : x.mod.getLsbD 2 = true := by rcases hmod with h | h <;> rw [h] <;> rfl
    have hadd : x.mod.getLsbD 0 = decide (x.mod = 5) := by rcases hmod with h | h <;> rw [h] <;> rfl
    have hlegal : bellBody.legal x = true := by
      rcases hmod with h | h <;>
        simp [bellBody, fieldsOk, regOk, rS, bellOp, hdst, h, x.a.isLt, x.b.isLt, x.c.isLt]
    have huses : bellBody.uses x = [.s x.a, .s x.b, .s x.c] := by
      simp only [bellBody, htime, useS, if_true]
      rfl
    rw [← huses] at hready
    have hact := htimed htime hvalid hlt
    rw [hadd] at hact
    refine (congrArg s.stepDev (Ready.issue_next .bell hready hlegal hact)).trans ?_
    rfl

/-- The fault of a task of a launched graph is recorded, reported and ends the task, its context and its frame's
work. -/
theorem signalFault_graph {d e : Dev} {f : FrameId} {t : TaskRef} {g : Graph} (htask : (d.frame f).task = some t)
    (hst : (d.frame f).state = .faulted) (hquiet : (d.frame f).quiet = true) (hkill : (d.frame f).killing = false)
    (hrec : d.updFrame f Frame.recordFault = e) (hgraph : e.graph? t.graph = some g) (hkind : g.kind = .graph) :
    let en := e.entry? g.queue g.seq
    let c := (e.frame f).ctx
    d.signalFault f = ((((e.updTask t fun x => { x with state := .faulted, frame := none }).faultCtx c).commandFault
      g.queue (some c) {
        kind := 2, code := (e.frame f).fault.code.toNat, tag := (e.graphOf t).2.toNat, frame := some f
        graph := some t.graph, entry := (en.map (·.bytes)).getD (zeros 64)
        ringAddr := (en.map fun en => (e.queue g.queue).ringAddrOf en.seq).getD 0 }).endOnFrame f).trace
      2 f.val c.toNat := by
  have hqueue : (e.graphOf t).1 = g.queue := by simp only [Dev.graphOf, hgraph, Option.map_some, Option.getD_some]
  unfold Dev.signalFault
  dsimp only
  rw [htask]
  dsimp only
  rw [if_neg (by simp [hst, hquiet]), if_neg (by simp [hkill]), hrec, hgraph, hqueue]
  obtain ⟨id, ctx, queue, seq, kind, tasks⟩ := g
  subst hkind
  rfl

theorem taskEnds : TaskEnds := by
  intro s f t htask hquiet hkill hmoves
  dsimp only
  refine ⟨fun hst hring => congrArg s.stepDev ?_, fun g r hst hpend hgraph hkind => congrArg s.stepDev ?_⟩
  · simp only [Dev.signalDone, htask, hst, hquiet, hkill, hring, hmoves, bne_self_eq_false, Bool.not_true, Bool.or_self,
      Bool.false_eq_true, if_false, Bool.false_and, List.any_nil]
  · have hrec : s.toDev.updFrame f Frame.recordFault
        = s.toDev.updFrame f fun fr => { fr with fault := r, pend := none } := by
      simp only [Dev.updFrame, Frame.recordFault, hpend, Option.getD_some]
    have hgo := signalFault_graph htask hst hquiet hkill hrec hgraph hkind
    rw [Dev.frame_updFrame] at hgo
    exact hgo

end Claim
end Sys2Proof.Machine

/-- Settles O36: DONE and BELL by their bodies, and the signals of a task's end by what each does in turn. -/
theorem tasksEnd : Obligations.TasksEnd := ⟨Claim.doneEnds, Claim.bellRings, Claim.taskEnds⟩

end

/-! ### Invalidations, scans and accesses of the host (R207–R209, R274, R275, R415, R505) -/

section
open Sys2Proof Sys2Proof.Machine Sys2Proof.Machine.Claim

namespace Sys2Proof.Machine

/-- A frame without the numbers of the invalidations that its accesses wait for. -/
def Frame.bareInv (fr : Frame) : Frame :=
  { fr with
    loads := fr.loads.map fun l : Load => { l with inv := none }
    stores := fr.stores.map fun x : Store => { x with inv := none } }

def Req.bareInv (r : Req) : Req := { r with inv := none }

theorem Frame.bareInv_markInv (fr : Frame) (n : BitVec 32) (gone : List TlbE) :
    (fr.markInv n gone).bareInv = fr.bareInv := by
  simp only [Frame.bareInv, Frame.markInv, List.map_map]
  rfl

/-- Marking accesses for an invalidation changes nothing but their numbers. -/
theorem Dev.markInv_shape (d : Dev) (n : BitVec 32) (gone : List TlbE) : ∃ (fr : Vector Frame 384) (reqs : List Req),
    fr.map Frame.bareInv = d.fr.map Frame.bareInv ∧ reqs.map Req.bareInv = d.lnk.reqs.map Req.bareInv
      ∧ d.markInv n gone = { d with fr := fr, lnk := { d.lnk with reqs := reqs } } := by
  unfold Dev.markInv
  split
  · exact ⟨d.fr, d.lnk.reqs, rfl, rfl, rfl⟩
  · refine ⟨_, _, ?_, ?_, rfl⟩
    · rw [Vector.map_map]
      exact Vector.map_congr_left fun fr _ => fr.bareInv_markInv n gone
    · rw [List.map_map]
      rfl

/-- An accepted invalidation takes what it names out of every TLB. -/
theorem Dev.acceptTlbi_shape (d : Dev) (t : Tlbi) : ∃ (fr : Vector Frame 384) (reqs : List Req),
    fr.map Frame.bareInv = d.fr.map Frame.bareInv ∧ reqs.map Req.bareInv = d.lnk.reqs.map Req.bareInv
      ∧ d.acceptTlbi t = { d with
          mem := { d.mem with
            tlbiIssued := d.mem.tlbiIssued + 1, tlbs := d.mem.tlbs.map fun e => (e.1, e.2.filter fun e => !t.hits e) }
          fr := fr, lnk := { d.lnk with reqs := reqs } } := by
  obtain ⟨fr, reqs, hfr, hreqs, hmark⟩ := Dev.markInv_shape
    { d with mem := { d.mem with tlbiIssued := d.mem.tlbiIssued + 1 } } (d.mem.tlbiIssued + 1)
    ((d.mem.tlbs.map (·.2)).flatten.filter t.hits)
  refine ⟨fr, reqs, hfr, hreqs, ?_⟩
  rw [Dev.acceptTlbi, hmark]
  rfl

theorem Dev.invalidate_room {d : Dev} (hrun : d.fwRuns = true) (h : (d.mem.tlbiIssued - d.mem.tlbiDone).toNat < 16)
    (t : Tlbi) : d.invalidate t = d.acceptTlbi t :=
  (if_pos hrun).trans (if_neg (by simpa [Dev.tlbiFull] using h))

theorem Dev.invalidate_full {d : Dev} (hrun : d.fwRuns = true) (h : 16 ≤ (d.mem.tlbiIssued - d.mem.tlbiDone).toNat)
    (t : Tlbi) : d.invalidate t = { d with mem := { d.mem with tlbiWait := d.mem.tlbiWait ++ [t] } } :=
  (if_pos hrun).trans (if_pos (by simpa [Dev.tlbiFull] using h))

/-- The oldest invalidation, while one is pending. -/
theorem Dev.invalidated_eq {d : Dev} (hpend : d.mem.tlbiDone ≠ d.mem.tlbiIssued) :
    let n := d.mem.tlbiDone + 1
    let e : Dev := { d with mem := { d.mem with tlbiDone := n } }
    (d.invDone n = true → d.mem.tlbiWait = [] → d.invalidated = e)
      ∧ (∀ t ts, d.invDone n = true → d.mem.tlbiWait = t :: ts →
        d.invalidated = ({ e with mem := { e.mem with tlbiWait := ts } } : Dev).acceptTlbi t)
      ∧ (d.invDone n = false → d.invalidated = d) := by
  intro n e
  have hne : (d.mem.tlbiDone == d.mem.tlbiIssued) = false := by simpa using hpend
  refine ⟨fun hdone hwait => ?_, fun t ts hdone hwait => ?_, fun hdone => if_pos ?_⟩
  · simp only [Dev.invalidated, hne, show d.invDone (d.mem.tlbiDone + 1) = true from hdone, hwait, Bool.not_true,
      Bool.or_self, Bool.false_eq_true, if_false, e, n]
  · simp only [Dev.invalidated, hne, show d.invDone (d.mem.tlbiDone + 1) = true from hdone, hwait, Bool.not_true,
      Bool.or_self, Bool.false_eq_true, if_false, e, n]
  · rw [hne, show d.invDone (d.mem.tlbiDone + 1) = false from hdone]
    rfl

namespace Claim

theorem invalidatesAndScans : InvalidatesAndScans := by
  intro s n bare bareReq issued waits
  have hissue (hrun : s.toDev.fwRuns = true) (hroom : (s.mem.tlbiIssued - s.mem.tlbiDone).toNat < 16) (t : Tlbi) :
      issued (s.stepDev (s.toDev.invalidate t)) t.hits := by
    obtain ⟨fr, reqs, hfr, hreqs, hgo⟩ := s.toDev.acceptTlbi_shape t
    refine ⟨fr, reqs, hfr, hreqs, ?_⟩
    rw [Dev.invalidate_room hrun hroom, hgo]
    rfl
  have hwait (hrun : s.toDev.fwRuns = true) (hfull : 16 ≤ (s.mem.tlbiIssued - s.mem.tlbiDone).toNat) (t : Tlbi) :
      waits (s.stepDev (s.toDev.invalidate t)) t := congrArg s.stepDev (Dev.invalidate_full hrun hfull t)
  refine ⟨fun hrun hroom => ⟨fun c va => hissue hrun hroom (.va c va.toNat), fun c => hissue hrun hroom (.ctx c),
      hissue hrun hroom .all⟩, fun hrun hfull => ⟨fun c va => hwait hrun hfull (.va c va.toNat),
      fun c => hwait hrun hfull (.ctx c), hwait hrun hfull .all⟩, fun hpend => ?_, fun v hrun hgo hkind => ?_,
      fun die ch c sc hc hsc => ?_⟩
  · obtain ⟨hnone, hsome, hopen⟩ := Dev.invalidated_eq (d := s.toDev) hpend
    exact ⟨fun hdone hwait => congrArg s.stepDev (hnone hdone hwait),
      fun t ts hdone hwait => congrArg s.stepDev (hsome t ts hdone hwait), fun hdone => congrArg s.stepDev
        (hopen hdone)⟩
  · intro key c hscan
    have hchan : s.tly.chan = c := if_neg (by rw [hkind]; decide)
    refine congrArg s.stepDev ?_
    have hno : (!s.toDev.fwRuns || !v.getLsbD 0 || s.tly.kind != 1 || s.tly.chan.scan.isSome) = false := by
      rw [hrun, hgo, hkind, hchan, hscan]
      rfl
    unfold Dev.startScan
    dsimp only
    rw [hno, if_neg Bool.false_ne_true, hchan]
    rfl
  · intro k
    refine congrArg s.stepDev ?_
    simp only [Dev.finishScan, hc, Option.getD_some, hsc]
    rfl

end Claim

/-! Registers. -/

theorem goodAccess_iff (a n : Nat) : goodAccess a n = true ↔ (n = 1 ∨ n = 2 ∨ n = 4 ∨ n = 8) ∧ a % n = 0 := by
  simp [goodAccess, or_assoc]

/-- An access of the host to a register, aligned and of a size that R505 permits. -/
theorem Dev.registerWrite_host {d : Dev} {a n : Nat} {v old : Word} (hrun : d.fwRuns = true)
    (hn : n = 1 ∨ n = 2 ∨ n = 4 ∨ n = 8) (hal : a % n = 0) (hreg : d.readReg (a / 8 * 8) = some old) :
    d.registerWrite false a n v =
      if 0x0F0000000100 ≤ a ∧ a < 0x0F0000000180 then
        if 4 ≤ n then { d with hif := { d.hif with
          mbxReq := putBytes d.hif.mbxReq (fun _ => 0) (a - 0x0F0000000000 - 0x100) (le n v.toNat) } }
        else d.aerLog
      else if 0x0F0000010000 ≤ a ∧ a < 0x0F0000018000 then
        if 4 ≤ n then d.writeMsix (a - 0x0F0000000000 - 0x10000) (le n v.toNat) else d.aerLog
      else if n = 8 then d.writeReg a v
      else d.aerLog := by
  have hgood : goodAccess a n = true := (goodAccess_iff a n).mpr ⟨hn, hal⟩
  simp only [Dev.registerWrite, hrun, hgood, hreg, Bool.not_true, Bool.false_eq_true, if_false, Option.isNone_some,
    Bool.or_self]

theorem Dev.readClear_reg {d : Dev} {a n : Nat} {v : Word} (hrun : d.fwRuns = true) (hn : n = 1 ∨ n = 2 ∨ n = 4 ∨ n = 8)
    (hal : a % n = 0) (hlt : a < 2 ^ 48) (hreg : d.readReg (a / 8 * 8) = some v) :
    d.readClear a n = (d.clearRead (a / 8 * 8) (a % 8) (a % 8 + n)).answerHost (slice (le 8 v.toNat) (a % 8) n) := by
  have hgood : goodAccess a n = true := (goodAccess_iff a n).mpr ⟨hn, hal⟩
  have hdb : ¬ (doorbellBase + 0x4000000 ≤ a ∧ a < doorbellBase + 0x8000000) := by
    unfold doorbellBase
    omega
  simp only [Dev.readClear, hrun, hgood, hreg, hdb, Bool.not_true, Bool.false_eq_true, if_false]

/-- BAR2's reads: of memory, with or without poison, and of what is neither memory nor registers. -/
theorem Dev.bar2_read {d : Dev} {off len : Nat} {errs : LineErrs} (hrun : d.fwRuns = true) (hlen : len ≠ 0)
    (hin : off + len ≤ 2 ^ d.hif.bar2Log2) (hreg : isMmio (d.bar2Base + off) = false) :
    let pa := d.bar2Base + off
    let e := d.demandRead (linesOf pa len) errs
    d.bar2 (.read off len errs) = if d.isMem pa len then
        if e.mem.readPoison pa len then (e.answerHost (List.replicate len 0xFF) true).ledger 0x02 0x02 { addr := pa }
        else e.answerHost (e.read pa len)
      else d.abortHost := by
  intro pa e
  have hsize : ¬ (len = 0 ∨ 2 ^ d.hif.bar2Log2 < off + len) := by omega
  by_cases hmem : d.isMem pa len = true
  · simp only [Dev.bar2, hrun, hsize, hreg, show d.isMem (d.bar2Base + off) len = true from hmem, Bool.not_true,
      Bool.false_eq_true, if_false, hmem, if_true]
    rfl
  · simp only [Dev.bar2, hrun, hsize, hreg, show d.isMem (d.bar2Base + off) len = false by simpa using hmem,
      Bool.not_true, Bool.not_false, Bool.false_eq_true, if_false, hmem, if_true]

theorem Dev.bar2_write {d : Dev} {off : Nat} {bs : List Byte} {p : Bool} {errs : LineErrs} (hrun : d.fwRuns = true)
    (hbs : bs ≠ []) (hin : off + bs.length ≤ 2 ^ d.hif.bar2Log2) (hreg : isMmio (d.bar2Base + off) = false) :
    let pa := d.bar2Base + off
    d.bar2 (.write off bs p errs) = if d.isMem pa bs.length then
        (d.demandRead (partLines pa bs.length) errs).write pa bs p
      else d.aerLog := by
  intro pa
  have hsize : ¬ (bs.isEmpty = true ∨ 2 ^ d.hif.bar2Log2 < off + bs.length) := by simp [hbs]; omega
  by_cases hmem : d.isMem pa bs.length = true
  · simp only [Dev.bar2, hrun, hsize, hreg, show d.isMem (d.bar2Base + off) bs.length = true from hmem, Bool.not_true,
      Bool.false_eq_true, if_false, hmem, if_true]
    rfl
  · simp only [Dev.bar2, hrun, hsize, hreg, show d.isMem (d.bar2Base + off) bs.length = false by simpa using hmem,
      Bool.not_true, Bool.not_false, Bool.false_eq_true, if_false, hmem, if_true]

/-- An access of BAR0 that no register answers is logged, and a read ends in Completer Abort. -/
theorem Dev.abortAccess_bad {d : Dev} {off n : Nat} {w : Bool} (hrun : d.fwRuns = true) (hin : off < 0x8000000)
    (hbad : d.badBar0 off n w = true) : d.abortAccess off n w = if w then d.aerLog else d.abortHost := by
  have hno : (!d.fwRuns || decide (0x8000000 ≤ off) || !d.badBar0 off n w) = false := by
    simp [hrun, hbad, hin]
  simp only [Dev.abortAccess, hno, Bool.false_eq_true, if_false]

namespace Claim

theorem hostAccesses : HostAccesses := by
  intro s hrun aer
  refine ⟨fun a v old hal hreg hmbx hmsix => ?_, fun o n v old hn hal hreg => ?_,
    fun a n v hn hal hlt hreg => congrArg s.stepDev (Dev.readClear_reg hrun hn hal hlt hreg), fun off n hoff hbad => ?_,
    fun off n hlo hhi hreg hn => congrArg s.stepDev ((Dev.abortAccess_bad hrun hhi ?_).trans (if_pos rfl)),
    fun off len errs => ?_, fun off bs p errs => ?_, fun l hlo hhi => congrArg s.stepDev ?_⟩
  · have ha : a / 8 * 8 = a := by omega
    have hno : ¬ (0x0F0000000100 ≤ a ∧ a < 0x0F0000000180) := by omega
    have hno' : ¬ (0x0F0000010000 ≤ a ∧ a < 0x0F0000018000) := by omega
    have hgo (n : Nat) (hn : n = 1 ∨ n = 2 ∨ n = 4 ∨ n = 8) : s.toDev.registerWrite false a n v
        = if n = 8 then s.toDev.writeReg a v else s.toDev.aerLog :=
      (Dev.registerWrite_host hrun hn (by rcases hn with rfl | rfl | rfl | rfl <;> omega) (ha.symm ▸ hreg)).trans
        ((if_neg hno).trans (if_neg hno'))
    refine ⟨congrArg s.stepDev ((hgo 8 (by omega)).trans (if_pos rfl)), fun n hn => ?_⟩
    exact congrArg s.stepDev ((hgo n (by omega)).trans (if_neg (by omega)))
  · have hgo := Dev.registerWrite_host (d := s.toDev) (a := 0x0F0000000000 + o) (n := n) (v := v) (old := old) hrun
      (by omega) (by rcases hn with rfl | rfl <;> omega) (by rw [← hreg]; congr 1; omega)
    rw [Nat.add_sub_cancel_left] at hgo
    refine ⟨fun hlo hhi => congrArg s.stepDev (hgo.trans ((if_pos (by omega)).trans (if_pos (by omega)))), fun hlo hhi
      =>
      congrArg s.stepDev (hgo.trans ((if_neg (by omega)).trans ((if_pos (by omega)).trans (if_pos (by omega)))))⟩
  · have hb (w : Bool) : s.toDev.badBar0 off n w = true := by
      unfold Dev.badBar0
      rcases hbad with hsize | hal | hnone
      · simp [goodAccess, hsize]
      · simp [goodAccess, hal]
      · simp [hnone, hoff]
    exact ⟨congrArg s.stepDev ((Dev.abortAccess_bad hrun (by omega) (hb true)).trans (if_pos rfl)),
      congrArg s.stepDev ((Dev.abortAccess_bad hrun (by omega) (hb false)).trans (if_neg Bool.false_ne_true))⟩
  · have hnarrow : narrowDb off n = true := by
      unfold narrowDb
      simp only [Bool.and_eq_true, Bool.or_eq_true, decide_eq_true_eq]
      omega
    simp [Dev.badBar0, hnarrow]
  · intro pa d hlen hin hreg
    have hgo := Dev.bar2_read (d := s.toDev) (errs := errs) hrun hlen hin hreg
    refine ⟨fun hmem hps => congrArg s.stepDev ?_, fun hmem hps => congrArg s.stepDev ?_,
      fun hmem => congrArg s.stepDev ?_⟩
    · exact hgo.trans ((if_pos hmem).trans (if_neg (by simpa using hps)))
    · exact hgo.trans ((if_pos hmem).trans (if_pos hps))
    · exact hgo.trans (if_neg (by simpa using hmem))
  · intro pa hbs hin hreg
    exact congrArg s.stepDev (Dev.bar2_write hrun hbs hin hreg)
  · exact (if_neg (by simp [hrun])).trans (if_pos ⟨hlo, hhi⟩)

end Claim
end Sys2Proof.Machine

/-- Settles O48: invalidations by `Dev.acceptTlbi_shape`, registers by `Dev.registerWrite_host` and `Dev.readClear_reg`,
BAR2 by `Dev.bar2_read` and `Dev.bar2_write`. -/
theorem hostCommands : Obligations.HostCommands := ⟨Claim.invalidatesAndScans, Claim.hostAccesses⟩

end


/-! ### CTX_CTRL on queues and rings, and the end of a destroyed queue (R286, R294, R295) -/

section
open Sys2Proof Sys2Proof.Machine Sys2Proof.Machine.Claim

namespace Sys2Proof.Machine

theorem Ctl.badId_eq_false {k : Ctl} (hctx : k.ctx ≤ 4095) (hqueue : k.queue ≤ 16383) : k.badId = false := by
  simp [Ctl.badId, hctx, hqueue]

theorem Dev.endCtl_ok (d : Dev) (k : Ctl) : d.endCtl k .ok = (d.complete 0 k.e .ok).1 := rfl

/-- The queue record that the image `b` of CREATE_QUEUE describes (R286). -/
def queueOf (b : List Byte) : QRec := {
  state := .idle, hostDma := bit (field b 1 1) 1, tailSem := bit (field b 1 1) 2, ctx := BitVec.ofNat 16 (field b 2 2)
  log2 := field b 4 1, cring := BitVec.ofNat 16 (field b 6 2), ring := BitVec.ofNat 64 (field b 8 8)
  headA := BitVec.ofNat 64 (field b 16 8), tailA := BitVec.ofNat 64 (field b 24 8)
  sem := BitVec.ofNat 32 (field b 32 4), hangMs := BitVec.ofNat 32 (field b 36 4) }

/-- The ring record that the image `b` of CREATE_CRING describes (R286). -/
def cringOf (b : List Byte) : CRing := {
  active := true, irqAll := bit (field b 1 1) 0, ctx := BitVec.ofNat 16 (field b 2 2), log2 := field b 4 1
  vector := BitVec.ofNat 16 (field b 6 2), ring := BitVec.ofNat 64 (field b 8 8)
  headA := BitVec.ofNat 64 (field b 16 8), modUs := BitVec.ofNat 32 (field b 24 4) }

theorem Dev.ctlCreateQueue_ok {d : Dev} {k : Ctl} {b : List Byte} (hk : d.ctl 4 = some k) (hid : k.badId = false)
    (h0 : k.queue ≠ 0) (hb : d.physRead k.arg0 64 = some b)
    (hring : (d.cring (field b 6 2)).active = true ∧ (d.cring (field b 6 2)).ctx.toNat = field b 2 2)
    (hflags : field b 0 1 ≤ 5 ∧ field b 1 1 < 8 ∧ bit (field b 1 1) 0 = false) (hctx : field b 2 2 ≤ 4095)
    (hsize : 6 ≤ field b 4 1 ∧ field b 4 1 ≤ 20) (hzero : field b 5 1 = 0 ∧ field b 0x38 8 = 0)
    (hsem : bit (field b 1 1) 2 = true → field b 0x20 4 < semCount)
    (hlive : d.ctxDead (BitVec.ofNat 12 (field b 2 2)) = false) (hfree : (d.queue k.queue).state = .free) :
    d.ctlCreateQueue = (d.setQueue k.queue (queueOf b)).endCtl k .ok := by
  obtain ⟨hactive, howner⟩ := hring
  obtain ⟨hprio, hfl, hbit⟩ := hflags
  obtain ⟨hlo, hhi⟩ := hsize
  obtain ⟨h5, h38⟩ := hzero
  have hperm : (!(d.cring (field b 6 2)).active || (d.cring (field b 6 2)).ctx.toNat != field b 2 2) = false := by
    simp [hactive, howner]
  have hgood : (k.badId || decide (field b 0 1 > 5) || decide (field b 2 2 > 4095) || field b 1 1 / 8 != 0
      || bit (field b 1 1) 0 || decide (field b 4 1 < 6) || decide (field b 4 1 > 20) || field b 5 1 != 0
      || field b 0x38 8 != 0 || (bit (field b 1 1) 2 && decide (field b 0x20 4 ≥ semCount))) = false := by
    simp only [Bool.or_eq_false_iff, Bool.and_eq_false_imp, decide_eq_false_iff_not, bne_eq_false_iff_eq]
    refine ⟨⟨⟨⟨⟨⟨⟨⟨⟨hid, by omega⟩, by omega⟩, by omega⟩, hbit⟩, by omega⟩, by omega⟩, h5⟩, h38⟩, fun h => ?_⟩
    have := hsem h
    omega
  simp only [Dev.ctlCreateQueue, hk, h0, hb, hperm, hgood, hlive, hfree, bne_self_eq_false, Bool.false_eq_true,
    if_false]
  rfl

theorem Dev.ctlCreateRing_ok {d : Dev} {k : Ctl} {b : List Byte} (hk : d.ctl 7 = some k) (hid : k.badId = false)
    (h0 : k.queue ≠ 0) (hb : d.physRead k.arg0 32 = some b) (hflags : field b 0 1 ≤ 1 ∧ field b 1 1 ≤ 1)
    (hctx : field b 2 2 ≤ 4095) (hsize : 6 ≤ field b 4 1 ∧ field b 4 1 ≤ 20)
    (hzero : field b 5 1 = 0 ∧ field b 0x1C 4 = 0)
    (hvec : field b 6 2 ≠ 0 ∧ (field b 6 2 ≤ 2047 ∨ field b 6 2 = 0xFFFF))
    (hlive : d.ctxDead (BitVec.ofNat 12 (field b 2 2)) = false) (hfree : (d.cring k.queue).active = false) :
    d.ctlCreateRing = (d.setCring k.queue (cringOf b)).endCtl k .ok := by
  obtain ⟨hv, hf⟩ := hflags
  obtain ⟨hlo, hhi⟩ := hsize
  obtain ⟨h5, h1C⟩ := hzero
  obtain ⟨hv0, hvector⟩ := hvec
  have hgood : (decide (field b 0 1 > 1) || decide (field b 1 1 > 1) || decide (field b 2 2 > 4095)
      || decide (field b 4 1 < 6) || decide (field b 4 1 > 20) || field b 5 1 != 0 || field b 6 2 == 0
      || (decide (field b 6 2 > 2047) && field b 6 2 != 0xFFFF) || field b 0x1C 4 != 0) = false := by
    simp only [Bool.or_eq_false_iff, Bool.and_eq_false_imp, decide_eq_false_iff_not, bne_eq_false_iff_eq,
      beq_eq_false_iff_ne, decide_eq_true_eq]
    refine ⟨⟨⟨⟨⟨⟨⟨⟨by omega, by omega⟩, by omega⟩, by omega⟩, by omega⟩, h5⟩, hv0⟩, fun _ => by omega⟩, h1C⟩
  simp only [Dev.ctlCreateRing, hk, h0, hid, hb, hgood, hlive, hfree, Bool.false_eq_true, if_false]
  rfl

/-- A completion ring that no live queue uses is freed (R286). -/
theorem Dev.ctlDestroyRing_ok {d : Dev} {k : Ctl} (hk : d.ctl 8 = some k) (hid : k.badId = false) (h0 : k.queue ≠ 0)
    (hactive : (d.cring k.queue).active = true)
    (hunused : ∀ q ∈ d.hif.queues, q.2.state = .free ∨ q.2.cring.toNat ≠ k.queue) :
    d.ctlDestroyRing = (d.setCring k.queue {}).endCtl k .ok := by
  have hany : (d.hif.queues.any fun q => q.2.state != .free && q.2.cring.toNat == k.queue) = false := by
    rw [List.any_eq_false]
    intro q hq
    rcases hunused q hq with h | h <;> simp [h]
  simp only [Dev.ctlDestroyRing, hk, h0, hid, hactive, hany, Bool.not_true, Bool.false_eq_true, if_false]

theorem Dev.ctlDestroyQueue_starts {d : Dev} {k : Ctl} (hk : d.ctl 5 = some k) (hid : k.badId = false)
    (h0 : k.queue ≠ 0) (hfree : (d.queue k.queue).state ≠ .free) (hdes : (d.queue k.queue).state ≠ .destroying) :
    d.ctlDestroyQueue = (d.openCtl k).destroyQueue k.queue (some k.e.seq) := by
  have hon : ((d.queue k.queue).state == .free || (d.queue k.queue).state == .destroying) = false := by
    simp [hfree, hdes]
  simp only [Dev.ctlDestroyQueue, hk, h0, hid, hon, Bool.false_eq_true, if_false]

theorem QRec.ctx?_of_ctx {r : QRec} {c : BitVec 12} (h : r.ctx = c.setWidth 16) : r.ctx? = some c := by
  have hc : r.ctx.toNat = c.toNat := by
    rw [h, BitVec.toNat_setWidth]
    omega
  have hlt : r.ctx.toNat < 4096 := by omega
  rw [QRec.ctx?, if_pos hlt]
  congr 1
  apply BitVec.eq_of_toNat_eq
  rw [BitVec.toNat_setWidth]
  omega

/-- The wait for a destroyed queue that a CTX_CTRL entry asked for expires (R295). -/
theorem Dev.quiesceLate_entry {d : Dev} {q e : Nat} {c : BitVec 12} (hst : (d.queue q).state = .destroying)
    (hbusy : d.queueBusy q = true) (hlate : (d.queue q).disc.late = false) (hctx : (d.queue q).ctx = c.setWidth 16)
    (hentry : (d.queue q).disc.entry = some e) :
    d.quiesceLate q = (((d.setQueue q { d.queue q with disc :=
      { (d.queue q).disc with late := true, entry := none } }).faultCtx c).commandFault q (some c)
        { kind := 5, code := 0xC }).finishDestroy (d.queue q).disc .quiesceTimeout := by
  have hnot : ((d.queue q).state != .destroying || !d.queueBusy q || (d.queue q).disc.late) = false := by
    simp [hst, hbusy, hlate]
  unfold Dev.quiesceLate Dev.updQueue
  dsimp only
  rw [hnot, QRec.ctx?_of_ctx hctx]
  dsimp only
  rw [hentry, if_neg Bool.false_ne_true, Option.isSome_some, if_pos rfl]
  congr 2

namespace Claim

theorem queueOperations : QueueOperations := by
  intro s k hctx hqueue h0 finish live
  have hid := Ctl.badId_eq_false hctx hqueue
  refine ⟨fun b hk hb h00 h1 hbit hc hlo hhi h5 h38 hsem hact hown hlive hfree => congrArg s.stepDev ?_,
    fun b hk hb h00 h1 hc hlo hhi h5 hv0 hvec h1C hlive hfree => congrArg s.stepDev ?_,
    fun hk hact hun => congrArg s.stepDev (Dev.ctlDestroyRing_ok hk hid h0 hact hun),
    fun hk hfree hdes => congrArg s.stepDev (Dev.ctlDestroyQueue_starts hk hid h0 hfree hdes)⟩
  · exact Dev.ctlCreateQueue_ok hk hid h0 hb ⟨hact, hown⟩ ⟨h00, h1, hbit⟩ hc ⟨hlo, hhi⟩ ⟨h5, h38⟩ hsem hlive hfree
  · exact Dev.ctlCreateRing_ok hk hid h0 hb ⟨h00, h1⟩ hc ⟨hlo, hhi⟩ ⟨h5, h1C⟩ ⟨hv0, hvec⟩ hlive hfree

theorem queueEnds : QueueEnds := by
  intro s q r hst
  refine ⟨fun hidle => congrArg s.stepDev (if_neg ?_), fun c e hbusy hlate hctx hentry =>
    congrArg s.stepDev (Dev.quiesceLate_entry hst hbusy hlate hctx hentry)⟩
  have hst' : (s.toDev.queue q.toNat).state = .destroying := hst
  simp [hst', hidle]

end Claim
end Sys2Proof.Machine

/-- Settles O47: each operation on a queue or ring passes its checks, by `Dev.ctlCreateQueue_ok` and the like. -/
theorem queueControl : Obligations.QueueControl := ⟨Claim.queueOperations, Claim.queueEnds⟩

end


/-! ### Completion records, completion rings and failed host reads (R288–R290, R297) -/

section
open Sys2Proof Sys2Proof.Machine Sys2Proof.Machine.Claim

namespace Sys2Proof.Machine

/-- A record that goes out and has no graph to ring for is taken out of those that wait. -/
theorem Dev.drainWaiting_sent {d e : Dev} {c : BitVec 16} {fuel : Nat} {w : WaitRec} {ws : List WaitRec}
    (hw : d.hif.waiting = w :: ws) (hctx : w.ctx = c) (hgraph : w.graph = none) (ht : d.tryRecord w = (e, true))
    (hsame : e.hif.waiting = w :: ws) :
    d.drainWaiting c (fuel + 1) = ({ e with hif := { e.hif with waiting := ws } } : Dev).drainWaiting c fuel := by
  rw [Dev.drainWaiting, hw, List.find?_cons_of_pos (by simp [hctx])]
  dsimp only
  rw [ht]
  dsimp only
  rw [hgraph, hsame, List.erase_cons_head]

/-- A poll stops at the first record that does not go out. -/
theorem Dev.drainWaiting_stuck {d e : Dev} {c : BitVec 16} {fuel : Nat} {w : WaitRec} {ws : List WaitRec}
    (hw : d.hif.waiting = w :: ws) (hctx : w.ctx = c) (ht : d.tryRecord w = (e, false)) :
    d.drainWaiting c (fuel + 1) = e := by
  rw [Dev.drainWaiting, hw, List.find?_cons_of_pos (by simp [hctx])]
  dsimp only
  rw [ht]

theorem Dev.drainWaiting_none {d : Dev} {c : BitVec 16} (fuel : Nat) (h : d.hif.waiting.find? (·.ctx == c) = none) :
    d.drainWaiting c fuel = d := by
  cases fuel with
  | zero => rfl
  | succ fuel => rw [Dev.drainWaiting, h]

/-- A poll of a ring that is the oldest of its context's that waits goes through the records of that context. -/
theorem Dev.pollRing_eq_drain {d : Dev} {r : Nat} {c : BitVec 16} (hc : (d.cring r).ctx = c)
    (h : ∀ w, d.hif.waiting.find? (·.ctx == c) = some w → w.ring = r) :
    d.pollRing r = d.drainWaiting c d.hif.waiting.length := by
  subst hc
  unfold Dev.pollRing
  dsimp only
  cases hfind : d.hif.waiting.find? (·.ctx == (d.cring r).ctx) with
  | none => exact (Dev.drainWaiting_none _ hfind).symm
  | some w => exact if_pos (by simp [h w hfind])

theorem Dev.moderationEnd_running {d : Dev} {r : Nat} (h : (d.cring r).modRunning = true) :
    d.moderationEnd r = if (d.cring r).modPending then
        (d.setCring r { d.cring r with modRunning := false, modPending := false }).ringVector r
      else d.setCring r { d.cring r with modRunning := false, modPending := false } := by
  unfold Dev.moderationEnd
  dsimp only
  rw [h]
  rfl

/-- The read of host memory that a COPY waits for fails: its entry completes with HOST_ABORT (R297). -/
theorem Dev.hostReadFail_copy {d : Dev} {f : FrameId} {t : TaskRef} {m : Move} {a : Nat} {g : Graph} {e : Entry}
    (htask : (d.frame f).task = some t) (hkill : (d.frame f).killing = false) (hmove : (d.frame f).moves = [m])
    (hcopy : m.copy = true) (hack : m.acked = false) (hsrc : m.src = .host a) (hgraph : d.graph? t.graph = some g) :
    let d' := ((({ d with hif := { d.hif with aer := d.hif.aer + 1 } } : Dev).updTask t fun x =>
      { x with state := .discarded, frame := none }).endOnFrame f)
    d'.entry? g.queue g.seq = some e → d.hostReadFail f = (d'.complete g.queue e .hostAbort).1.dropGraph g.id := by
  intro d' hentry
  have hgraph' : ({ d with hif := { d.hif with aer := d.hif.aer + 1 } } : Dev).graph? t.graph = some g := hgraph
  unfold Dev.hostReadFail
  dsimp only
  rw [htask, hmove, hkill]
  dsimp only
  rw [hgraph', List.any_cons, hcopy, hack, hsrc, if_neg (by simp), if_neg Bool.false_ne_true]
  dsimp only
  rw [show Dev.entry? _ g.queue g.seq = some e from hentry]

namespace Claim

theorem entryCompletes : EntryCompletes := by
  intro d q e st i0 i1 i2 r d'
  have hset : d.setQueue q { r with
      completed := r.completed + 1, entries := r.entries.filter (·.seq != e.seq)
      holder := if r.holder == some e.seq then none else r.holder } = d' := by
    simp only [d', beq_iff_eq]
  constructor
  · intro hst hirq
    have hno : (bit e.flags 0 || st != .ok) = false := by simp [Entry.flags, hst, hirq]
    unfold Dev.complete
    dsimp only
    rw [hno, if_neg Bool.false_ne_true]
    exact congrArg (·, true) hset
  · intro h
    have hyes : (bit e.flags 0 || st != .ok) = true := by
      rcases h with h | h <;> simp [Entry.flags, h]
    unfold Dev.complete
    dsimp only
    rw [hyes, if_pos rfl]
    exact congrArg (Dev.putRecord · _) hset

theorem completionRings : CompletionRings := by
  intro s r cr
  refine ⟨?_, fun hnone => congrArg s.stepDev ?_,
    fun hrun hpend => congrArg s.stepDev ?_, fun hrun hpend => congrArg s.stepDev ?_⟩
  · intro w ws hw hctx hring hgraph t
    have hpoll : s.toDev.pollRing r.toNat = s.toDev.drainWaiting cr.ctx (ws.length + 1) := by
      refine (Dev.pollRing_eq_drain rfl fun v hv => ?_).trans (by rw [hw]; rfl)
      rw [hw, List.find?_cons_of_pos (by simp [hctx, cr])] at hv
      exact Option.some.inj hv ▸ hring
    refine ⟨fun hsent hsame hcring hnext => congrArg s.stepDev ?_, fun hstuck => congrArg s.stepDev ?_⟩
    · rw [hpoll, Dev.drainWaiting_sent hw hctx hgraph (Prod.ext rfl hsent) hsame]
      exact (Dev.pollRing_eq_drain (d := { t.1 with hif := { t.1.hif with waiting := ws } }) hcring hnext).symm
    · exact hpoll.trans (Dev.drainWaiting_stuck hw hctx (Prod.ext rfl hstuck))
  · have hfind : s.toDev.hif.waiting.find? (·.ctx == (s.toDev.cring r.toNat).ctx) = none := by
      simpa using hnone
    exact (Dev.pollRing_eq_drain rfl (by simp [hfind])).trans (Dev.drainWaiting_none _ hfind)
  · have hpend' : (s.toDev.cring r.toNat).modPending = false := hpend
    refine (Dev.moderationEnd_running hrun).trans ((if_neg (by simp [hpend'])).trans ?_)
    rw [← hpend']
  · exact (Dev.moderationEnd_running hrun).trans (if_pos hpend)

theorem hostReadFails : HostReadFails := by
  intro s f t m a g e htask hkill hmove hcopy hack hsrc hgraph _
  exact fun hentry => congrArg s.stepDev (Dev.hostReadFail_copy htask hkill hmove hcopy hack hsrc hgraph hentry)

end Claim
end Sys2Proof.Machine

/-- Settles O45: a poll sends the oldest record and goes on as a poll of its own, by `Dev.pollRing_eq_drain`. -/
theorem completions : Obligations.Completions :=
  ⟨Claim.entryCompletes, Claim.completionRings, Claim.hostReadFails⟩

end


/-! ### Doorbells, fetches and the entries that start (R234, R278–R285, R291, R399) -/

section
open Sys2Proof Sys2Proof.Machine Sys2Proof.Machine.Claim

namespace Sys2Proof.Machine

/-! Doorbells. -/

theorem Dev.ringQueue_refused {d : Dev} {q : Nat} (h : (d.queue q).state = .free ∨ (d.queue q).state = .destroying) :
    d.ringQueue q = d.setQueue q { d.queue q with dbDropped := (d.queue q).dbDropped + 1 } := by
  rcases h with h | h <;> simp only [Dev.ringQueue, Dev.updQueue, h]

theorem Dev.ringQueue_idle {d : Dev} {q : Nat} (h : (d.queue q).state = .idle) :
    d.ringQueue q = d.setQueue q { d.queue q with rung := true, state := .fetching } := by
  simp only [Dev.ringQueue, Dev.updQueue, h]

theorem Dev.ringQueue_rung {d : Dev} {q : Nat}
    (h : (d.queue q).state = .fetching ∨ (d.queue q).state = .held ∨ (d.queue q).state = .stopped) :
    d.ringQueue q = d.setQueue q { d.queue q with rung := true } := by
  rcases h with h | h | h <;> simp only [Dev.ringQueue, Dev.updQueue, h]

/-! The fetcher. -/

/-- A queue record that is not the free one reads back as it was set. -/
theorem Dev.queue_setQueue (d : Dev) (q : Nat) {x : QRec} (h : x ≠ {}) : (d.setQueue q x).queue q = x := by
  simp only [Dev.queue, Dev.setQueue, SMap.putD, if_neg h, SMap.get?_put]
  rfl

theorem Dev.OnlyTlbs.queue {a b : Dev} (h : a.OnlyTlbs b) (q : Nat) : b.queue q = a.queue q := by
  obtain ⟨t, n, rfl⟩ := h
  rfl

theorem Dev.hostRing_only (d : Dev) (c : BitVec 16) (a : Acc6) (va len : Nat) :
    d.OnlyTlbs (d.hostRing c a va len).1 := by
  have h := d.range_only unitQueue (c.setWidth 12) a va len
  unfold Dev.hostRing
  by_cases hc : c.toNat < 4096
  · rw [if_pos hc]
    split
    next d' ss he =>
      rw [he] at h
      split <;> exact h
    · exact h
  · rw [if_neg hc]
    exact .refl d

theorem Dev.ringRead_only (d : Dev) (c : BitVec 16) (va len : Nat) : d.OnlyTlbs (d.ringRead c va len).1 := by
  have h := d.hostRing_only c .read va len
  unfold Dev.ringRead
  split
  next he => rw [he] at h; exact h
  next he => rw [he] at h; exact h

theorem Dev.putHead_ok {d : Dev} {q n : Nat} {c : BitVec 16} {a : Word} (hc : (d.queue q).ctx = c)
    (ha : (d.queue q).headA = a) (hw : (d.ringWrite c a.toNat (le 8 n)).2 = .ok ()) :
    d.putHead q n = ((d.ringWrite c a.toNat (le 8 n)).1, true) := by
  subst hc ha
  unfold Dev.putHead
  dsimp only
  split
  next he => rw [he] at hw; cases hw
  next he => rw [he]

/-- An entry that reads and is good joins its queue. -/
theorem Dev.fetchOne_ok {d : Dev} {q : Nat} {r : QRec} {bs : List Byte} (hq : d.queue q = r)
    (hread : (d.ringRead r.ctx (r.ringAddrOf r.head) 64).2 = .ok (bs, false)) :
    let rd := d.ringRead r.ctx (r.ringAddrOf r.head) 64
    let wr := rd.1.ringWrite r.ctx r.headA.toNat (le 8 (r.head + 1))
    let e : Entry := { seq := r.head, bytes := bs }
    let d' := wr.1.updQueue q fun r' => { r' with
      head := r.head + 1, state := .fetching, entries := r'.entries ++ [e] }
    wr.2 = .ok () → d'.badEntry q e = none → e.type ≠ 4 → e.type ≠ 6 → e.ordered = false → d.fetchOne q = d' := by
  intro rd wr e d' hwrite hgood h4 h6 hord
  have hq' : rd.1.queue q = r := ((d.ringRead_only _ _ _).queue q).trans hq
  have hrd : d.ringRead r.ctx (r.ringAddrOf r.head) 64 = (rd.1, .ok (bs, false)) := Prod.ext rfl hread
  have hhead : rd.1.putHead q (r.head + 1) = (wr.1, true) :=
    Dev.putHead_ok (congrArg QRec.ctx hq') (congrArg QRec.headA hq') hwrite
  have hgo : (e.type == 4 || e.type == 6 || (e.ordered && d'.behind q e)) = false := by simp [h4, h6, hord]
  unfold Dev.fetchOne
  dsimp only
  rw [hq, hrd]
  dsimp only
  rw [hhead]
  dsimp only
  rw [if_neg Bool.false_ne_true, show Dev.badEntry _ q _ = none from hgood]
  exact if_neg (by rw [Bool.not_eq_true]; exact hgo)

theorem Dev.fetchEntry_loop {d : Dev} {q : Nat} (hup : d.up = true) (hmay : d.mayFetch q = true)
    (hhold : (d.queue q).holder = none) (hfront : d.frontEntry q = none) (hst : (d.queue q).state = .fetching)
    (howed : (d.queue q).headOwed = false) :
    d.fetchEntry q = (d.updQueue q fun r => { r with state := .fetching }).fetchSteps q 5 := by
  have hgo : (!d.up || !d.mayFetch q || (d.queue q).holder.isSome || (d.frontEntry q).isSome
      || ((d.queue q).state == .idle && !(d.queue q).rung)) = false := by simp [hup, hmay, hhold, hfront, hst]
  have hset : (d.updQueue q fun r => { r with state := .fetching }).queue q
      = { d.queue q with state := .fetching } :=
    d.queue_setQueue q fun h => QState.noConfusion (congrArg QRec.state h)
  simp only [Dev.fetchEntry, hgo, Bool.false_eq_true, if_false, Dev.fetchLoop, hset, howed]

theorem Dev.fetchSteps_one {d : Dev} {q n : Nat} (hsnap : (d.queue q).snap = true)
    (hin : (d.queue q).head < (d.queue q).tail) : d.fetchSteps q (n + 1) = d.fetchOne q := by
  rw [Dev.fetchSteps]
  exact if_pos (by simp [hsnap, hin])

theorem Dev.fetchSteps_end {d : Dev} {q n : Nat} (hsnap : (d.queue q).snap = true)
    (hout : (d.queue q).tail ≤ (d.queue q).head) (hrung : (d.queue q).rung = false) :
    d.fetchSteps q (n + 1) = d.setQueue q { d.queue q with state := .idle, snap := false } := by
  rw [Dev.fetchSteps]
  refine (if_neg (by simpa [hsnap] using hout)).trans ((if_pos hsnap).trans (if_neg (by simp [hrung])))

/-! Entries that start at once. -/

theorem Dev.starting_queue_ctx {d : Dev} {q : Nat} {c : BitVec 12} (h : (d.queue q).ctx = c.setWidth 16) :
    (d.queue q).ctx? = some c := QRec.ctx?_of_ctx h

theorem Dev.startCopy_offers {d : Dev} {q : Nat} {e : Entry} {c : BitVec 12} (he : d.starting q 3 = some e)
    (hctx : (d.queue q).ctx = c.setWidth 16) :
    let cf := field e.bytes 0x28 1
    let tag : Word := BitVec.ofNat 64 (field e.bytes 8 8)
    let id := d.mkt.nextGraph
    let d' : Dev := { d with mkt := { d.mkt with
      nextGraph := id + 1
      graphs := d.mkt.graphs ++ [{
        id := id, ctx := c, queue := q, seq := e.seq, tag := tag, doneSem := 0, doneVal := 0, bell := false
        bellAdd := false, tasks := [{ prio := 7, tag := tag }]
        kind := .copy (field e.bytes 0x10 8) (field e.bytes 0x18 8) (field e.bytes 0x20 8) (bit cf 0) (bit cf 1) }] } }
    d.startCopy q = ((d'.started q e.seq .running).updEntry q e.seq fun e =>
      { e with graph := some id }).offer { graph := id, idx := 0 } := by
  intro cf tag id d'
  unfold Dev.startCopy
  rw [he, QRec.ctx?_of_ctx hctx]
  dsimp only [Dev.addGraph]
  rw [show bit 0 0 = false by decide, show bit 0 1 = false by decide]
  rfl

theorem Dev.startWait_reached {d : Dev} {q : Nat} {e : Entry} (he : d.starting q 4 = some e)
    (hsem : field e.bytes 0x18 8 ≤ (d.sem (field e.bytes 0x10 4)).toNat) :
    d.startWait q = (d.complete q e .ok).1 := by
  unfold Dev.startWait
  rw [he]
  exact if_pos hsem

theorem Dev.startWait_watches {d : Dev} {q : Nat} {e : Entry} (he : d.starting q 4 = some e)
    (hsem : (d.sem (field e.bytes 0x10 4)).toNat < field e.bytes 0x18 8) (hroom : d.mkt.watchers.length < watcherCap) :
    d.startWait q = ((({ d with mkt := { d.mkt with watchers := d.mkt.watchers ++
      [{ sem := field e.bytes 0x10 4, target := field e.bytes 0x18 8, what := .entry q e.seq }] } } : Dev).updEntry
        q e.seq fun e => { e with state := .watching }).holdQueue q e.seq) := by
  unfold Dev.startWait
  rw [he]
  exact (if_neg (Nat.not_le.mpr hsem)).trans (if_neg (Nat.not_le.mpr hroom))

theorem Dev.waitTimeout_only {d : Dev} {q : Nat} {e : Entry} (hes : (d.queue q).entries = [e])
    (hst : e.state = .watching) (ht : field e.bytes 0x20 4 ≠ 0) :
    d.waitTimeout q = (({ d with mkt := { d.mkt with
      watchers := d.mkt.watchers.filter fun w => w.what != .entry q e.seq } } : Dev).complete q e .waitTimeout).1 := by
  unfold Dev.waitTimeout
  rw [hes, List.find?_cons_of_pos (by simp [hst])]
  exact if_neg ht

namespace Claim

theorem doorbells : Doorbells := by
  intro s q hup r put
  refine ⟨fun h => ?_, fun h => ?_, fun h => ?_, fun hst hhold => ?_⟩
  · exact congrArg s.stepDev ((if_pos hup).trans (Dev.ringQueue_refused h))
  · exact congrArg s.stepDev ((if_pos hup).trans (Dev.ringQueue_idle h))
  · exact congrArg s.stepDev ((if_pos hup).trans (Dev.ringQueue_rung h))
  · refine congrArg (fun x => s.stepDev (s.toDev.setQueue q.toNat x)) (if_pos ?_)
    rw [show (s.toDev.queue q.toNat).state = .held from hst, show (s.toDev.queue q.toNat).holder = none from hhold]
    rfl

theorem entryFetched : EntryFetched := by
  intro s q r d0 rd wr hup hmay hhold hfront hst hsnap howed
  have hloop := Dev.fetchEntry_loop (d := s.toDev) hup hmay hhold hfront hst howed
  have hr : { r with state := .fetching } = r := by rw [← hst]
  have hq : d0.queue q.toNat = r :=
    (s.toDev.queue_setQueue q.toNat fun h => QState.noConfusion (congrArg QRec.state h)).trans hr
  refine ⟨?_, fun hend hrung => congrArg s.stepDev (hloop.trans ?_)⟩
  · intro bs hin hread hwrite e d hgood h4 h6 hord
    refine congrArg s.stepDev (hloop.trans ((Dev.fetchSteps_one (d := d0) ?_ ?_).trans
      (Dev.fetchOne_ok hq hread hwrite hgood h4 h6 hord)))
    · rw [hq]; exact hsnap
    · rw [hq]; exact hin
  · refine (Dev.fetchSteps_end (d := d0) ?_ ?_ ?_).trans (by rw [hq])
    · rw [hq]; exact hsnap
    · rw [hq]; exact hend
    · rw [hq]; exact hrung

theorem entriesStart : EntriesStart := by
  intro s q e
  refine ⟨fun he => congrArg s.stepDev ?_, fun he => ⟨fun hsem => ?_, fun hsem hroom => ?_⟩, fun hes hst ht => ?_,
    fun c he hctx => congrArg s.stepDev (Dev.startCopy_offers he hctx)⟩
  · unfold Dev.startNop
    rw [he]
  · exact congrArg s.stepDev (Dev.startWait_reached he hsem)
  · exact congrArg s.stepDev (Dev.startWait_watches he hsem hroom)
  · exact congrArg s.stepDev (Dev.waitTimeout_only hes hst ht)

end Claim
end Sys2Proof.Machine

/-- Settles O43: the fetcher's steps by `Dev.fetchSteps_one`, `Dev.fetchOne_ok` and `Dev.fetchSteps_end`. -/
theorem queuesFetch : Obligations.QueuesFetch := ⟨Claim.doorbells, Claim.entryFetched, Claim.entriesStart⟩

end


/-! ### Launches, signals and barrier entries (R234, R281, R399) -/

section
open Sys2Proof Sys2Proof.Machine Sys2Proof.Machine.Claim

namespace Sys2Proof.Machine

/-! Launches. -/

/-- What an entry that starts is: the front of its queue, of the type asked for. -/
theorem Dev.starting_front {d : Dev} {q type : Nat} {e : Entry} (h : d.starting q type = some e) :
    d.frontEntry q = some e ∧ e.type = type := by
  unfold Dev.starting at h
  split at h
  next x hx =>
    split at h
    next hgo =>
      obtain rfl := Option.some.inj h
      simp only [Bool.and_eq_true, beq_iff_eq] at hgo
      exact ⟨hx, hgo.1.2⟩
    · cases h
  · cases h

/-- The front entry starts as one type only. -/
theorem Dev.starting_other {d : Dev} {q type other : Nat} {e : Entry} (h : d.starting q type = some e)
    (hne : other ≠ type) : d.starting q other = none := by
  obtain ⟨hfront, htype⟩ := Dev.starting_front h
  unfold Dev.starting
  rw [hfront]
  exact if_neg (by simp [htype, hne.symm])

theorem Dev.tryLaunch_started {d : Dev} {q : Nat} {e : Entry} {batch : Bool} {c : BitVec 12}
    (hctx : (d.queue q).ctx = c.setWidth 16) (hl : (d.launchEntry c q e batch).2 = .started) :
    d.tryLaunch q e batch = (d.launchEntry c q e batch).1.updQueue q fun r =>
      { r with holder := if r.holder = some e.seq then none else r.holder } := by
  unfold Dev.tryLaunch
  rw [QRec.ctx?_of_ctx hctx]
  dsimp only
  generalize d.launchEntry c q e batch = l at hl ⊢
  obtain ⟨d', o⟩ := l
  obtain rfl := hl
  simp only [beq_iff_eq]

theorem Dev.retryLaunch_held {d : Dev} {q : Nat} {e : Entry} {batch : Bool}
    (he : d.starting q (if batch then 2 else 1) = some e) (hhold : (d.queue q).holder = some e.seq) :
    d.retryLaunch q = d.tryLaunch q e batch := by
  have hfront := (Dev.starting_front he).1
  unfold Dev.retryLaunch
  rw [hfront]
  refine (if_pos (by simp [hhold])).trans ?_
  cases batch with
  | false =>
    have he' : d.starting q 1 = some e := he
    rw [he']
  | true =>
    have he' : d.starting q 2 = some e := he
    rw [he', Dev.starting_other he' (by decide : 1 ≠ 2)]

/-! Batches. -/

/-- The record of a task of a batch names no successor. -/
theorem Task.ofRecord_batch {va : Nat} {r : List Byte} {x : Task × Nat × Nat} (h : Task.ofRecord va r true = some x) :
    x.2.2 = 0 := by
  unfold Task.ofRecord at h
  dsimp only at h
  split at h
  · cases h
  next hgood =>
    obtain rfl := Option.some.inj h
    simp only [Bool.or_eq_true, Bool.and_eq_true, not_or] at hgood
    have hlast := hgood.2
    simp only [decide_true, true_and, not_or, bne_iff_ne, ne_eq, not_not] at hlast
    exact hlast.2

theorem mapM_some_forall {α β : Type} {f : α → Option β} {p : β → Prop} (hf : ∀ a b, f a = some b → p b) (l : List α) :
    ∀ {rs : List β}, l.mapM f = some rs → ∀ b ∈ rs, p b := by
  induction l with
  | nil =>
    intro rs h b hb
    obtain rfl := Option.some.inj h
    cases hb
  | cons a l ih =>
    intro rs h b hb
    rw [List.mapM_cons] at h
    obtain ⟨x, hx, h⟩ := Option.bind_eq_some_iff.mp h
    obtain ⟨xs, hxs, h⟩ := Option.bind_eq_some_iff.mp h
    obtain rfl := Option.some.inj h
    rcases List.mem_cons.mp hb with rfl | hb
    · exact hf a b hx
    · exact ih hxs b hb

/-- Tasks that name no successor need no further read. -/
theorem Dev.readSuccs_none (d : Dev) (c : BitVec 12) (succ n : Nat) (rs : List (Task × Nat × Nat))
    (h : ∀ r ∈ rs, r.2.2 = 0) : d.readSuccs c succ n rs = (d, .ok (rs.map fun r => { r.1 with succ := [] })) := by
  induction rs with
  | nil => rfl
  | cons r rs ih =>
    obtain ⟨t, si, sn⟩ := r
    obtain rfl : sn = 0 := h _ List.mem_cons_self
    rw [Dev.readSuccs, if_pos rfl]
    dsimp only
    rw [List.range_zero, List.map_nil, List.any_nil, if_neg Bool.false_ne_true,
      ih fun r hr => h r (List.mem_cons_of_mem _ hr)]
    rfl

/-- A batch whose records read and are good, within its context's quota, is registered and offered (R231, R281). -/
theorem Dev.launchDesc_batch {d : Dev} {c : BitVec 12} {q : Nat} {e : Entry} {g : GDesc} {bs : List Byte}
    {rs : List (Task × Nat × Nat)} (hquota : d.liveOf c + g.ntask ≤ (d.ctx c).maxTasks.toNat)
    (hwatch : d.mkt.watchers.length ≤ watcherCap) (hnext : g.next = 0)
    (hread : (d.readVirt unitMkt c g.tasks (64 * g.ntask)).2 = .ok (bs, false))
    (hrs : Task.records g.tasks true bs g.ntask = some rs) :
    let d' := (d.readVirt unitMkt c g.tasks (64 * g.ntask)).1
    let r := d'.addGraph c q e.seq .batch g (rs.map fun r => { r.1 with succ := [] })
    d.launchDesc c q e true g = ((r.1.updQueue q fun x => { x with entries := x.entries.map fun y =>
      if y.seq == e.seq then { y with state := .running, graph := some r.2 } else y }).releaseReady r.2 g.ntask,
        .started) := by
  intro d' r
  have hmkt : d.mktRead c g.tasks (64 * g.ntask) = (d', some bs) := by
    unfold Dev.mktRead
    rw [show d.readVirt unitMkt c g.tasks (64 * g.ntask) = (d', .ok (bs, false)) from Prod.ext rfl hread]
    rfl
  have hsucc := d'.readSuccs_none c g.succ g.ntask rs
    (mapM_some_forall (p := fun r => r.2.2 = 0) (fun _ _ h => Task.ofRecord_batch h) _ hrs)
  have hroom : (decide ((d.ctx c).maxTasks.toNat < d.liveOf c + g.ntask)
      || decide (watcherCap < d.mkt.watchers.length + g.next)) = false := by
    simp only [Bool.or_eq_false_iff, decide_eq_false_iff_not]
    omega
  unfold Dev.launchDesc
  dsimp only
  rw [if_neg (by omega), hroom, if_neg Bool.false_ne_true, hmkt]
  dsimp only
  rw [hrs]
  dsimp only
  rw [hsucc]
  dsimp only
  rw [if_pos hnext]
  dsimp only
  rw [hnext]
  rfl

/-! Signals. -/

/-- Clearing the three low bits rounds down to a multiple of 8. -/
theorem toNat_align (a : Word) : (a &&& ~~~7#64).toNat = a.toNat / 8 * 8 := by
  have hmask : ~~~7#64 = BitVec.allOnes 64 <<< 3 := rfl
  have hshift : a &&& ~~~7#64 = (a >>> 3) <<< 3 := by
    apply BitVec.eq_of_getLsbD_eq
    intro i hi
    rw [hmask, BitVec.getLsbD_and, BitVec.getLsbD_shiftLeft, BitVec.getLsbD_shiftLeft, BitVec.getLsbD_allOnes,
      BitVec.getLsbD_ushiftRight]
    by_cases h3 : i < 3
    · simp [h3]
    · have hsub : i - 3 < 64 := by omega
      have hadd : 3 + (i - 3) = i := by omega
      simp [hi, h3, hsub, hadd]
  rw [hshift, BitVec.toNat_shiftLeft, BitVec.toNat_ushiftRight, Nat.shiftLeft_eq, Nat.shiftRight_eq_div_pow]
  omega

theorem fabDev_align (a : Word) : fabDev (a &&& ~~~7#64) = fabDev a := by
  have h := toNat_align a
  unfold fabDev bits
  rw [h, Nat.shiftRight_eq_div_pow, Nat.shiftRight_eq_div_pow]
  congr 2
  omega

/-- A bell to a semaphore of this device, of a context of the same job, sets its update out (R291). -/
theorem Dev.bell_here {d : Dev} {a v : Word} {add : Bool} {job : BitVec 16} {o : Origin} {x : Option (Nat × Nat)}
    {n : Nat} {owner : BitVec 12} (hdev : fabDev a = d.lnk.devId) (hpa : a.toNat % 2 ^ 48 / 8 * 8 = semBase + 8 * n)
    (hn : n < semCount) (hown : d.semOwner n = some owner) (hjob : (d.ctx owner).job = job) :
    d.bell a v add job o x = (d.pushSem { sem := n, value := v, add := add, entry := x }, none) := by
  have ha : (a &&& ~~~7#64).toNat % 2 ^ 48 = semBase + 8 * n := by
    rw [toNat_align]
    omega
  have hsub : (semBase + 8 * n - semBase) / 8 = n := by omega
  unfold Dev.bell
  dsimp only
  rw [fabDev_align, hdev, beq_self_eq_true, if_pos rfl]
  unfold Dev.bellHere
  dsimp only
  rw [ha, if_pos (by omega), hsub, hown]
  exact if_pos (by simp [hjob])

theorem Dev.startSignal_here {d : Dev} {q n : Nat} {e : Entry} {c owner : BitVec 12}
    (he : d.starting q 5 = some e) (hctx : (d.queue q).ctx = c.setWidth 16)
    (hdev : fabDev (BitVec.ofNat 64 (field e.bytes 0x10 8)) = d.lnk.devId)
    (hpa : (BitVec.ofNat 64 (field e.bytes 0x10 8)).toNat % 2 ^ 48 / 8 * 8 = semBase + 8 * n) (hn : n < semCount)
    (hown : d.semOwner n = some owner) (hjob : (d.ctx owner).job = (d.ctx c).job) :
    d.startSignal q = (d.started q e.seq .running).pushSem {
      sem := n, value := BitVec.ofNat 64 (field e.bytes 0x18 8), add := field e.bytes 0x20 1 == 1
      entry := some (q, e.seq) } := by
  have hbell := Dev.bell_here (d := d.started q e.seq .running) (job := ((d.started q e.seq .running).ctx c).job)
    (v := BitVec.ofNat 64 (field e.bytes 0x18 8))
    (add := field e.bytes 0x20 1 == 1) (o := .entryBell q e.seq) (x := some (q, e.seq)) hdev hpa hn hown hjob
  unfold Dev.startSignal
  rw [he, QRec.ctx?_of_ctx hctx]
  dsimp only
  rw [hdev, bne_self_eq_false, if_neg Bool.false_ne_true]
  dsimp only
  rw [Bool.not_true, if_neg Bool.false_ne_true, Bool.false_and, if_neg Bool.false_ne_true, hbell]

namespace Claim

theorem launches : Launches := by
  intro s q e batch c hctx he cmd l free
  have hstart : s.toDev.startLaunch q.toNat batch = s.toDev.tryLaunch q.toNat e batch := by
    unfold Dev.startLaunch
    rw [he]
  have hcmd : exec cmd s = .next (withDev s (s.toDev.tryLaunch q.toNat e batch)) := by
    rw [← hstart]
    cases batch <;> rfl
  have hl {o : Launch} (h : l.2 = o) : s.toDev.launchEntry c q.toNat e batch = (l.1, o) := Prod.ext rfl h
  refine ⟨fun h => ?_, fun h => ?_, fun h => ?_, fun cause h => ?_⟩
  · have hgo := Dev.tryLaunch_started hctx h
    exact ⟨hcmd.trans (congrArg s.stepDev hgo),
      fun hhold => congrArg s.stepDev ((Dev.retryLaunch_held he hhold).trans hgo)⟩
  all_goals
    refine hcmd.trans (congrArg s.stepDev ?_)
    unfold Dev.tryLaunch
    rw [QRec.ctx?_of_ctx hctx]
    dsimp only
    rw [hl h]
  rfl

theorem batchRegisters : BatchRegisters := by
  intro s q e c bs rs he hctx n va most h1 h2 h64 h52 hquota hwatch hread hrs d id d'
  have hpos : ¬ (n = 0 ∨ 65536 < n ∨ va % 64 ≠ 0 ∨ 2 ^ 52 ≤ va) := by omega
  have hdesc := Dev.launchDesc_batch (d := s.toDev) (c := c) (q := q.toNat) (e := e)
    (g := { ntask := n, tasks := va, tag := BitVec.ofNat 64 e.tag }) hquota hwatch rfl hread hrs
  have hgo : s.toDev.launchEntry c q.toNat e true
      = s.toDev.launchDesc c q.toNat e true { ntask := n, tasks := va, tag := BitVec.ofNat 64 e.tag } := if_neg hpos
  have hlaunch := hgo.trans hdesc
  have hstart : s.toDev.startLaunch q.toNat true = s.toDev.tryLaunch q.toNat e true := by
    unfold Dev.startLaunch
    rw [show s.toDev.starting q.toNat (if true then 2 else 1) = some e from he]
  refine congrArg s.stepDev (hstart.trans ((Dev.tryLaunch_started hctx (congrArg Prod.snd hlaunch)).trans ?_))
  rw [hlaunch]
  simp only [Dev.addGraph, beq_iff_eq]
  rfl

theorem signalSets : SignalSets := by
  intro s q e c owner n he hctx addr hdev hpa hn hown hjob
  refine congrArg s.stepDev ((Dev.startSignal_here he hctx hdev hpa hn hown hjob).trans ?_)
  rfl

theorem barrierEntryArrives : BarrierEntryArrives := by
  intro s q e he g gr
  refine ⟨fun hst hctx => congrArg s.stepDev ?_, fun hbad => congrArg s.stepDev ?_⟩
  · unfold Dev.startBarrier
    rw [he]
    exact if_neg (by simpa using ⟨hst, hctx⟩)
  · unfold Dev.startBarrier
    rw [he]
    exact if_pos (by simpa using hbad)

end Claim
end Sys2Proof.Machine

/-- Settles O44: a batch is registered by `Dev.launchDesc_batch`, a signal sets out by `Dev.bell_here`. -/
theorem entriesRun : Obligations.EntriesRun :=
  ⟨Claim.launches, Claim.batchRegisters, Claim.signalSets, Claim.barrierEntryArrives⟩

end


/-! ### How collectives end and time out (R315, R336, R341) -/

section
open Sys2Proof Sys2Proof.Machine Sys2Proof.Machine.Claim

namespace Sys2Proof.Machine

/-- A fetched collective of the job's attempt that is not done is incomplete since its phase start. -/
theorem Dev.incomplete_of_bkt {d : Dev} {j : Nat} {n : BitVec 16} {b : Bucket} {c : CDesc}
    (hb : d.bktOf j n = some b) (hc : b.desc = some c) (hst : b.state ≠ .done) :
    d.incomplete j n = some (b.phase, b.onWag, ({ x := Coll.mk' (d.job j) c b.probe, b := b } : XView).awaited) := by
  have hdone : (b.state == .done) = false := by simp [hst]
  simp only [Dev.incomplete, hb, hdone, hc, Bool.false_eq_true, if_false, Option.map_some]

theorem Job.running_iff (x : Job) : x.running = true ↔ x.state = .open ∨ x.state = .overdue := by
  simp [Job.running]

/-- A timeout that has come aborts the attempt under RESTART and marks the collective overdue under WAIT; before it
comes,
nothing. -/
theorem Dev.timeoutColl_eq {d : Dev} {j phase : Nat} {n : BitVec 16} {w : Bool} {rs : List Nat}
    (hinc : d.incomplete j n = some (phase, w, rs)) (hrun : (d.job j).running = true) :
    d.timeoutColl j n = if phase + (d.job j).timeout * 1000000 ≤ (if w = true then d.waggle else d.ns) then
        if (d.job j).policy = true then ((d.overdueRecords j n rs).markOverdue j n).updJob j fun x =>
          { x with state := .overdue }
        else d.raiseAbort j 1
      else d := by
  unfold Dev.timeoutColl
  dsimp only
  rw [hinc]
  dsimp only
  rw [hrun, Bool.not_true, Bool.false_or]
  unfold Dev.timeUp
  by_cases hdue : phase + (d.job j).timeout * 1000000 ≤ (if w = true then d.waggle else d.ns)
  · rw [if_pos hdue, decide_eq_true hdue]
    cases (d.job j).policy <;> rfl
  · rw [if_neg hdue, decide_eq_false hdue]
    rfl

/-- Under WAIT a segment that came wrong twice is asked for again and recorded. -/
theorem Dev.repeatResend_one {d : Dev} {j i k : Nat} {n : BitVec 16} {b : Bucket} {c : CDesc} {r : Rx} {own got : Word}
    (hb : d.bktOf j n = some b) (hc : b.desc = some c) (hpol : (d.job j).policy = true) (hrx : b.rx = [r])
    (hbad : r.bad = [(i, k, own, got)]) (hk : 2 ≤ k) (hgood : i ∉ r.good) :
    let x := d.job j
    let pl := (((Coll.mk' x c r.probe).segs r.stage r.src x.rank)[i]?).bind (·.plane)
    d.repeatResend j n = (d.sendXch (bktPkt x b.key c.fmtByte 0x04 (if r.probe then 32 else 0) r.stage i (le 4 i) b.bad)
      (x.devOf r.src) pl).ledger 0x05 0x01 {
        job := x.job.toNat, step := x.step.toNat, ctx := x.ctx.toNat, attempt := x.attempt
        ta := own.toNat, tb := got.toNat, aux0 := r.src, aux1 := i } := by
  intro x pl
  have hin : (decide (2 ≤ k) && !r.good.contains i) = true := by simp [hk, hgood]
  have hflag : b2n r.probe * 32 = if r.probe then 32 else 0 := by cases r.probe <;> rfl
  have hnot : (!(d.job j).policy) = false := by rw [hpol]; rfl
  unfold Dev.repeatResend
  dsimp only
  rw [hb]
  dsimp only
  rw [hc]
  dsimp only
  rw [hnot, if_neg Bool.false_ne_true, hrx, List.foldl_cons, List.foldl_nil, hbad, List.filter_cons, if_pos hin,
    List.filter_nil, List.foldl_cons, List.foldl_nil, hflag]

theorem Dev.repeatResend_off {d : Dev} {j : Nat} {n : BitVec 16} (h : (d.job j).policy = false) :
    d.repeatResend j n = d := by
  unfold Dev.repeatResend
  dsimp only
  rw [h]
  split
  · rfl
  · split <;> rfl

/-- The codes of a result: the elements of saturated blocks are free values (assumption 142). -/
def collCodes (x : Coll) (c : CDesc) (b : Bucket) (n0 : Nat) (sats : List Nat) (ws : List Word) : List Nat :=
  (List.zip (if c.op = 5 then List.range ws.length else x.wants) ws).map fun p =>
    if sats.contains (p.1 / 32) = true then (Config.free (n0 + p.1)).toNat % 2 ^ c.dstBits else c.dstCode b.exps p.1 p.2

/-- What follows when a result is written: its semaphore rings, the bucket is done, and the job may be open again
(R315, R341). -/
def Dev.collWritten (d : Dev) (j : Nat) (n : BitVec 16) (b : Bucket) (c : CDesc) (x : Coll) (codes : List Nat) : Dev :=
  let cx := (d.job j).ctx.setWidth 12
  let d := if b.bad then d.taintCtx cx else d
  let d := ((d.addOne (d.job j).job c.doneSem.toNat).trace 257 0xFFFF cx.toNat).updJob j fun x =>
    { x with finished := x.finished ++ [{ bucket := n, redo := b.redo, bad := b.bad }] }
  let d := (d.updBkt b.key fun b => { b with state := .done, overdue := false, owes := true }).settleSent b.key
  let late := (d.xch.bkts.any fun b => b.job == j && b.overdue) || (d.xch.heldDesc.get? j).any (·.overdue)
  let d := if (d.job j).state = .overdue ∧ late = false then d.updJob j fun x => { x with state := .open } else d
  (if c.op = 2 ∨ c.op = 5 then d.bktOver b.key else d.sendResult b.key x (packBytes c.dstBits codes) b.bad).commitLoop j

theorem Dev.completeColl_written {d e d1 d2 : Dev} {j : Nat} {n : BitVec 16} {b : Bucket} {c : CDesc} {ws : List Word}
    {sats : List Nat} (hb : d.bktOf j n = some b) (hc : b.desc = some c)
    (hw : ({ x := Coll.mk' (d.job j) c b.probe, b := b } : XView).whole = some ws)
    (hsats : (if c.g32 then satBlocks (Coll.mk' (d.job j) c b.probe) ws else []) = sats)
    (hgo : (b.probe || !b.live || !(d.job j).running || (!sats.isEmpty && !(b.bad && b.redo == 7))) = false)
    (he : (if sats.isEmpty then d else { d with fresh := d.fresh + ws.length }) = e) :
    let x := Coll.mk' (d.job j) c b.probe
    e.writeResult j x (collCodes x c b d.fresh sats ws) b.bad = (d1, .ok ()) →
    (if c.g32 then d1.writeHist j x b ws b.bad else (d1, .ok ())) = (d2, .ok ()) →
    d.completeColl j n = d2.collWritten j n b c x (collCodes x c b d.fresh sats ws) := by
  intro x hwrite hhist
  subst hsats he
  unfold Dev.completeColl
  rw [hb]
  dsimp only
  rw [hc]
  dsimp only
  rw [hw]
  dsimp only
  rw [hgo, if_neg Bool.false_ne_true]
  simp only [beq_iff_eq, Bool.and_eq_true, Bool.or_eq_true, Bool.not_eq_true']
  generalize hg : Dev.writeResult _ _ _ _ _ = w
  obtain rfl := hg.symm.trans hwrite
  dsimp only
  rw [hhist]
  rfl

namespace Claim

theorem collectivesEnd : CollectivesEnd := by
  intro s j n b c ws x v sats e codes wrote hist hb hc hw hprobe hlive hrun hsat hwrote hhist d cx d3 d4 d5 late d6
  have hfresh : (if sats.isEmpty then s.toDev else { s.toDev with fresh := s.fresh + ws.length }) = e := rfl
  have hgo : (b.probe || !b.live || !x.running || (!sats.isEmpty && !(b.bad && b.redo == 7))) = false := by
    have hl : b.live = true := by simpa [Bucket.live, or_assoc] using hlive
    rw [hprobe, hl, (Job.running_iff x).mpr hrun]
    rcases hsat with h | ⟨hbad, hredo⟩
    · simp [h]
    · simp [hbad, hredo]
  exact congrArg (fun d : Dev => s.stepDev (d.stirXch x.job)) (Dev.completeColl_written (d := s.toDev) (d1 := wrote.1)
    (d2 := d) hb hc hw rfl hgo hfresh (Prod.ext rfl hwrote) (Prod.ext rfl hhist))

theorem collectiveTimeouts : CollectiveTimeouts := by
  intro s j n b c x out hb hc hst hrun late due now
  have hgo := Dev.timeoutColl_eq (Dev.incomplete_of_bkt hb hc hst) ((Job.running_iff x).mpr hrun)
  refine ⟨fun h => ?_, fun h hpol => ?_, fun h hpol => ?_, fun hpol => congrArg s.stepDev (Dev.repeatResend_off hpol),
    ?_⟩
  · exact congrArg (fun d : Dev => s.stepDev (d.stirXch x.job)) (hgo.trans (if_neg (Nat.not_le.mpr h)))
  · have hpol' : ¬ (s.toDev.job j.val).policy = true := by rw [Bool.not_eq_true]; exact hpol
    exact congrArg (fun d : Dev => s.stepDev (d.stirXch x.job)) (hgo.trans ((if_pos h).trans ((if_neg hpol').trans
      (if_pos ((Job.running_iff x).mpr hrun)))))
  · exact congrArg (fun d : Dev => s.stepDev (d.stirXch x.job)) (hgo.trans ((if_pos h).trans (if_pos hpol)))
  · intro r i k own got hpol hrx hbad hk hgood pl
    exact congrArg s.stepDev (Dev.repeatResend_one hb hc hpol hrx hbad hk hgood)

end Claim
end Sys2Proof.Machine

/-- Settles O56: completion by `Dev.completeColl_written`, timeouts by `Dev.timeoutColl_eq`. -/
theorem collectiveResults : Obligations.CollectiveResults := ⟨Claim.collectivesEnd, Claim.collectiveTimeouts⟩

end


/-! ### Packets of the Exchange (R307–R309, R318–R320, R336–R345) -/

section
open Sys2Proof Sys2Proof.Machine Sys2Proof.Machine.Claim

namespace Sys2Proof.Machine

/-! What leaves a job alone. -/

theorem Dev.job_congr {d e : Dev} (h : e.xch = d.xch) (j : Nat) : e.job j = d.job j := by
  rw [Dev.job, Dev.job, h]

/-- Taking a flit out of its port's buffer touches the ports alone. -/
theorem Dev.consume_xch (d : Dev) (proto : Byte) (job : BitVec 16) : (d.consume proto job).xch = d.xch := by
  unfold Dev.consume Dev.consumeIf
  split <;> rfl

theorem Dev.trace_xch (d : Dev) (point index ctx a0 a1 : Nat) : (d.trace point index ctx a0 a1).xch = d.xch := by
  obtain ⟨m, x, h⟩ := d.trace_shape point index ctx a0 a1
  rw [h]

theorem Dev.irq_xch (d : Dev) (b : Nat) : (d.irq b).xch = d.xch := by
  unfold Dev.irq Dev.msix
  split <;> rfl

theorem Dev.ledger_xch (d : Dev) (cls code : Nat) (x : LedF) : (d.ledger cls code x).xch = d.xch := by
  unfold Dev.ledger
  split
  · rfl
  · dsimp only
    split
    · rfl
    · simp only [Dev.irq_xch, Dev.write_xch]

theorem Dev.jobById_lt {d : Dev} {id : BitVec 16} {j : Nat} (h : d.jobById id = some j) : j < 256 :=
  List.mem_range.mp (List.mem_of_find?_eq_some h)

theorem Dev.jobById_congr {d e : Dev} (h : e.xch = d.xch) (id : BitVec 16) : e.jobById id = d.jobById id := by
  simp only [Dev.jobById, Dev.job_congr h]

theorem Job.older_iff (x : Job) (p : XPkt) : x.older p = true ↔
    p.step.toNat < x.step.toNat ∨ p.step = x.step ∧ XPkt.attempt p < x.attempt := by
  simp [Job.older]

theorem Job.older_of_current {x : Job} {p : XPkt} (hstep : p.step = x.step) (hat : XPkt.attempt p = x.attempt) :
    x.older p = false := by
  simp [Job.older, hstep, hat]

/-! DATA and TALLY packets. -/

/-- A packet of a sender in order, of a newer step or attempt, that is not a DATA packet of a newer attempt of this
step. -/
theorem Dev.takePkt_place {d : Dev} {j : Nat} {p : XPkt} (hold : (d.job j).older p = false)
    (hat : p.step = (d.job j).step → (d.job j).attempt < XPkt.attempt p ∧ p.kind ≠ 1#8) :
    d.takePkt j p = d.placePkt j p := by
  have hsame : (p.step == (d.job j).step && XPkt.attempt p == (d.job j).attempt) = false := by
    simp only [Bool.and_eq_false_imp, beq_iff_eq, beq_eq_false_iff_ne]
    intro h
    have := (hat h).1
    omega
  have hdata : (p.step == (d.job j).step && p.kind == 1#8) = false := by
    simp only [Bool.and_eq_false_imp, beq_iff_eq, beq_eq_false_iff_ne]
    exact fun h => (hat h).2
  unfold Dev.takePkt
  dsimp only
  rw [hold, if_neg Bool.false_ne_true, hsame, if_neg Bool.false_ne_true, hdata, if_neg Bool.false_ne_true]

/-- A DATA packet of a newer attempt of this step aborts the older ones first. -/
theorem Dev.takePkt_newer {d : Dev} {j : Nat} {p : XPkt} (hstep : p.step = (d.job j).step)
    (hat : (d.job j).attempt < XPkt.attempt p) (hkind : p.kind = 1#8) :
    let e := d.draw.1.peerAbort j p.step (XPkt.attempt p - 1) (d.draw.2.toNat % 256) (XPkt.rank p)
    d.takePkt j p = if (e.job j).state = .faulted then e else e.placePkt j p := by
  have hold : (d.job j).older p = false := by simp [Job.older, hstep, Nat.le_of_lt hat]
  have hsame : (p.step == (d.job j).step && XPkt.attempt p == (d.job j).attempt) = false := by
    simp [hstep, Nat.ne_of_gt hat]
  have hdata : (p.step == (d.job j).step && p.kind == 1#8) = true := by simp [hstep, hkind]
  intro e
  unfold Dev.takePkt
  dsimp only
  rw [hold, if_neg Bool.false_ne_true, hsame, if_neg Bool.false_ne_true, hdata, if_pos rfl]
  simp only [beq_iff_eq]
  rfl

/-- A packet of the attempt in progress: of a finished collective, of a redo that is over, or one to place. -/
theorem Dev.takePkt_current {d : Dev} {j : Nat} {p : XPkt} (hstep : p.step = (d.job j).step)
    (hat : XPkt.attempt p = (d.job j).attempt) :
    d.takePkt j p = match (d.job j).finished.find? (·.bucket == p.bucket) with
      | some fin => d.ackAgain j p fin
      | none => if XPkt.redo p < d.redoOf j p.bucket then d.staleOne j else d.placePkt j p := by
  have hsame : (p.step == (d.job j).step && XPkt.attempt p == (d.job j).attempt) = true := by simp [hstep, hat]
  unfold Dev.takePkt Job.finishedOf
  dsimp only
  rw [Job.older_of_current hstep hat, if_neg Bool.false_ne_true, hsame, if_pos rfl]
  refine (congrArg (fun o => match o with
    | some fin => d.ackAgain j p fin
    | none => if XPkt.redo p < d.redoOf j p.bucket then d.staleOne j else d.placePkt j p) (if_pos rfl)).trans ?_
  cases (d.job j).finished.find? (·.bucket == p.bucket) <;> rfl

theorem Dev.takePkt_stale {d : Dev} {j : Nat} {p : XPkt} (hold : (d.job j).older p = true) :
    d.takePkt j p = d.staleOne j := by
  unfold Dev.takePkt
  dsimp only
  rw [hold]
  rfl

theorem Dev.dataPkt_unknown {d : Dev} {p : XPkt} (h : d.jobById p.job = none) :
    d.dataPkt p = (d.consume 0x01 p.job).unknownJob p := by
  unfold Dev.dataPkt
  rw [h]

/-- A packet that is early with no room, or finds no tally channel, stays in its port's buffer. -/
theorem Dev.dataPkt_stays {d : Dev} {p : XPkt} {j : Nat} (hjob : d.jobById p.job = some j)
    (h : (d.isEarly j p = true ∧ earlyCap < d.earlyUse (XPkt.die p) + pktData)
      ∨ ((d.job j).sender p = .good ∧ (d.job j).older p = false ∧ d.noChannel j p = true)) : d.dataPkt p = d := by
  unfold Dev.dataPkt
  rw [hjob]
  dsimp only
  split
  · rfl
  next hfull =>
    refine if_pos ?_
    rcases h with ⟨hearly, hroom⟩ | ⟨hgood, hold, hno⟩
    · exact absurd (by rw [hearly, decide_eq_true hroom]; rfl) hfull
    · rw [hgood, hold, hno]
      rfl

/-- One that need not stay leaves the buffer and is judged by its job. -/
theorem Dev.dataPkt_leaves {d : Dev} {p : XPkt} {j : Nat} (hjob : d.jobById p.job = some j)
    (hfull : ¬ (d.isEarly j p = true ∧ earlyCap < d.earlyUse (XPkt.die p) + pktData))
    (hch : ¬ ((d.job j).sender p = .good ∧ (d.job j).older p = false ∧ d.noChannel j p = true)) :
    let e := d.consume 0x01 p.job
    d.dataPkt p = if (d.job j).state = .faulted then (if (d.job j).older p = true then e.staleOne j else e)
      else if 4 < XPkt.stage p then e
      else match (d.job j).sender p with
        | .stranger => e.badConfig j p
        | .await => if (d.job j).older p = true then e.staleOne j
            else ((if p.kind == 1#8 && ((d.job j).finishedOf p).isNone then e.entryFor j p else none).getD e).holdPkt p
        | .good => e.takePkt j p := by
  intro e
  unfold Dev.dataPkt
  rw [hjob]
  dsimp only
  rw [if_neg (by simpa using hfull), if_neg (by simpa [and_assoc] using hch)]
  simp only [beq_iff_eq]
  by_cases hf : (d.job j).state = .faulted
  · exact (if_pos hf).trans (if_pos hf).symm
  · refine (if_neg hf).trans (Eq.trans ?_ (if_neg hf).symm)
    split
    · rfl
    · cases (d.job j).sender p <;> rfl

namespace Claim

theorem packetsPlaced : PacketsPlaced := by
  intro s p q r hq d out
  obtain ⟨k, hk, rfl, rfl⟩ : ∃ k : Byte, (k = 1 ∨ k = 2) ∧ q = { p with kind := k }
      ∧ r = s.stepDev ((s.toDev.dataPkt { p with kind := k }).stirXch p.job) := by
    rcases hq with ⟨hq, hr⟩ | ⟨hq, hr⟩
    · exact ⟨1, .inl rfl, hq, hr⟩
    · exact ⟨2, .inr rfl, hq, hr⟩
  have hout {e : Dev} (h : s.toDev.dataPkt { p with kind := k } = e) : out e :=
    congrArg (fun e : Dev => s.stepDev (e.stirXch p.job)) h
  refine ⟨fun hno => hout (Dev.dataPkt_unknown hno), ?_⟩
  intro j hjob x old full noCh
  have hx : d.job j = x := Dev.job_congr (s.toDev.consume_xch ..) j
  have hold : x.older { p with kind := k } = true ↔ old := x.older_iff _
  have hyoung : x.older { p with kind := k } = false ↔ ¬ old := by rw [← hold, Bool.not_eq_true]
  have hleave (hf : ¬ full) (hc : ¬ noCh) := Dev.dataPkt_leaves (d := s.toDev) (p := { p with kind := k }) hjob hf
    fun ⟨hgood, hy, hch⟩ => hc ⟨hgood, hyoung.mp hy, hch⟩
  refine ⟨fun hf => hout (Dev.dataPkt_stays hjob (.inl hf)),
    fun _ hc => hout (Dev.dataPkt_stays hjob (.inr ⟨hc.1, hyoung.mpr hc.2.1, hc.2.2⟩)), fun hf hc hst => ?_,
    fun hf hc hst hstage => ?_⟩
  · have hgo := (hleave hf hc).trans (if_pos hst)
    exact ⟨fun ho => hout (hgo.trans (if_pos (hold.mpr ho))),
      fun ho => hout (hgo.trans (if_neg (by rw [hold]; exact ho)))⟩
  · have hgo := ((hleave hf hc).trans (if_neg hst)).trans (if_neg (Nat.not_lt.mpr hstage))
    refine ⟨fun hsend => hout (hgo.trans ?_), fun hsend => ?_, fun hsend => ?_⟩
    · rw [show (s.toDev.job j).sender _ = .stranger from hsend]
    · rw [show (s.toDev.job j).sender _ = .await from hsend] at hgo
      exact ⟨fun ho => hout (hgo.trans (if_pos (hold.mpr ho))),
        fun ho => hout (hgo.trans (if_neg (by rw [hold]; exact ho)))⟩
    · rw [show (s.toDev.job j).sender _ = .good from hsend] at hgo
      refine ⟨fun ho => hout (hgo.trans (Dev.takePkt_stale (by rw [hx]; exact hold.mpr ho))), fun hstep hat => ?_,
        fun hstep hat => ⟨fun hkind => ?_, ?_⟩, fun hstep => ?_⟩
      · have hcur := hgo.trans (Dev.takePkt_current (by rw [hx]; exact hstep) (by rw [hx]; exact hat))
        rw [hx] at hcur
        refine ⟨fun fin hfin => ?_, fun hfin => ?_⟩
        · rw [show x.finished.find? _ = some fin from hfin] at hcur
          exact hout hcur
        · rw [show x.finished.find? _ = none from hfin] at hcur
          exact ⟨fun hr => hout (hcur.trans (if_pos hr)), fun hr => hout (hcur.trans (if_neg (Nat.not_lt.mpr hr)))⟩
      · refine hout (hgo.trans (Dev.takePkt_place ?_ fun _ => ?_))
        · rw [hx, hyoung]
          rintro (h | ⟨-, h⟩)
          · rw [hstep] at h
            omega
          · omega
        · rw [hx]
          have hne : k ≠ 1#8 := by
            rw [show k = 2 from hkind]
            decide
          exact ⟨hat, hne⟩
      · intro hkind e
        exact hout (hgo.trans (Dev.takePkt_newer (by rw [hx]; exact hstep) (by rw [hx]; exact hat) hkind))
      · refine hout (hgo.trans (Dev.takePkt_place ?_ fun h => ?_))
        · rw [hx, hyoung]
          rintro (h | ⟨h, -⟩)
          · omega
          · rw [h] at hstep
            omega
        · rw [hx] at h
          have h' : p.step = x.step := h
          rw [h'] at hstep
          omega

end Claim

/-! Packets about a job. -/

theorem Dev.forAnyJob_some {d : Dev} {p : XPkt} {j : Nat} (h : (d.consume 0x01 p.job).jobById p.job = some j)
    (f : Dev → Nat → Dev) : d.forAnyJob p f = f (d.consume 0x01 p.job) j := by
  unfold Dev.forAnyJob
  dsimp only
  rw [h]

theorem Dev.forJob_some {d : Dev} {p : XPkt} {j : Nat} (h : (d.consume 0x01 p.job).jobById p.job = some j)
    (hst : ((d.consume 0x01 p.job).job j).state ≠ .faulted) (f : Dev → Nat → Dev) :
    d.forJob p f = f (d.consume 0x01 p.job) j :=
  (Dev.forAnyJob_some h _).trans (if_neg (by simpa using hst))

/-- The mismatch of a result tally that another device reports leaves the job's step, attempt and state alone. -/
theorem Dev.toldMismatch_job {d : Dev} {j : Nat} (hj : j < 256) (rank : Nat) :
    ∃ n, ((d.toldMismatch j rank).job j) = { d.job j with mismatches := n } := by
  unfold Dev.toldMismatch
  dsimp only
  split
  next t _ =>
    refine ⟨satAdd (d.job j).mismatches, ?_⟩
    unfold Dev.resultMismatch Dev.updJob
    dsimp only
    refine (Dev.job_congr rfl j).trans ((Dev.job_setJob _ j _ hj).trans ?_)
    rw [Dev.job_congr (Dev.ledger_xch _ _ _ _) j]
    rfl
  · exact ⟨(d.job j).mismatches, rfl⟩

theorem Dev.peerAbort_current {d : Dev} {j attempt cause rank : Nat} {step : BitVec 32} (hstep : step = (d.job j).step)
    (hat : attempt = (d.job j).attempt) (hrun : (d.job j).running = true) :
    d.peerAbort j step attempt cause rank = d.abortStep j attempt cause rank := by
  have hold : (decide (step.toNat < (d.job j).step.toNat)
      || (step == (d.job j).step && decide (attempt < (d.job j).attempt))) = false := by simp [hstep, hat]
  unfold Dev.peerAbort
  dsimp only
  rw [hold, if_neg Bool.false_ne_true, if_pos (by simp [hstep]), if_pos hrun]

theorem Dev.peerAbort_stale {d : Dev} {j attempt cause rank : Nat} {step : BitVec 32}
    (hold : step.toNat < (d.job j).step.toNat ∨ step = (d.job j).step ∧ attempt < (d.job j).attempt) :
    d.peerAbort j step attempt cause rank = d.staleOne j :=
  if_pos (by simpa using hold)

/-- A STEP_ABORT of the attempt in progress, on a device that its originator sent no tally to judge, aborts. -/
theorem Dev.isTold_no {d : Dev} {j cause rank : Nat} {p : XPkt}
    (h : cause ≠ 3 ∨ rank ∉ (d.job j).tallyTo ∨ ¬ (p.step = (d.job j).step ∧ XPkt.attempt p = (d.job j).attempt)) :
    d.isTold j cause rank p = (d, false) := by
  have htold : (decide (cause = 3) && (d.job j).tallyTo.contains rank && p.step == (d.job j).step
      && XPkt.attempt p == (d.job j).attempt && ((d.job j).running || (d.job j).state == .committing)) = false := by
    rcases h with h | h | h
    · simp [h]
    · simp [h]
    · rw [not_and] at h
      by_cases hs : p.step = (d.job j).step
      · simp [h hs]
      · simp [hs]
  unfold Dev.isTold
  dsimp only
  rw [htold]
  rfl

theorem Dev.isTold_yes {d : Dev} {j rank : Nat} {p : XPkt} (hrank : rank ∈ (d.job j).tallyTo)
    (hstep : p.step = (d.job j).step) (hat : XPkt.attempt p = (d.job j).attempt) (hrun : (d.job j).running = true)
    (hone : (d.job j).s ≤ 1 ∨ (d.job j).nboard ≤ 1) : d.isTold j 3 rank p = (d, true) := by
  have htold : (decide (3 = 3) && (d.job j).tallyTo.contains rank && p.step == (d.job j).step
      && XPkt.attempt p == (d.job j).attempt && ((d.job j).running || (d.job j).state == .committing)) = true := by
    simp [hrank, hstep, hat, hrun]
  have hboth : (decide (1 < (d.job j).s) && decide (1 < (d.job j).nboard)) = false := by
    rw [Bool.and_eq_false_imp, decide_eq_true_eq, decide_eq_false_iff_not]
    omega
  unfold Dev.isTold
  dsimp only
  rw [htold, Bool.true_and, hboth]
  rfl

/-- A STEP_ABORT, as a job that has not faulted judges it (R342). -/
theorem Dev.abortPkt_judged {d e f : Dev} {j : Nat} {p : XPkt} {told : Bool} (hst : (d.job j).state ≠ .faulted)
    (he : d.trace 258 0xFFFF (d.job j).ctx.toNat p.step.toNat (XPkt.attempt p * 256 + field p.data 0 1) = e)
    (htold : e.isTold j (field p.data 0 1) (field p.data 1 2) p = (f, told)) :
    d.abortPkt j p = ((if told then f.toldMismatch j (field p.data 1 2) else f).peerAbort j p.step (XPkt.attempt p)
      (field p.data 0 1) (field p.data 1 2)).flushEarly p.job := by
  unfold Dev.abortPkt
  dsimp only
  rw [if_neg (by simpa using hst), he, htold]

theorem Dev.abortPkt_faulted {d : Dev} {j : Nat} {p : XPkt} (hst : (d.job j).state = .faulted)
    (hold : (d.job j).older p = true) :
    d.abortPkt j p = (d.trace 258 0xFFFF (d.job j).ctx.toNat p.step.toNat
      (XPkt.attempt p * 256 + field p.data 0 1)).staleOne j :=
  (if_pos (by simpa using hst)).trans (if_pos hold)

namespace Claim

theorem jobPackets : JobPackets := by
  intro s p j d hjob x cause rank hit e aborts
  have hfor (hst : x.state ≠ .faulted) (f : Dev → Nat → Dev) : s.toDev.forJob p f = f d j :=
    Dev.forJob_some hjob hst f
  have hnamed (t : SentSeg) : t.named j p = hit t := by
    simp only [SentSeg.named, SentSeg.isOf, XPkt.key, hit]
  have habort : s.toDev.forAnyJob p (fun d j => d.abortPkt j p) = d.abortPkt j p := Dev.forAnyJob_some hjob _
  have hex : e.xch = d.xch := d.trace_xch ..
  have hjx : e.job j = x := Dev.job_congr hex j
  refine ⟨fun hst => ⟨fun hsend => ⟨?_, ?_⟩, fun hsend => ⟨?_, fun t ht => ?_, fun ht => ?_⟩, fun hcfg => ?_,
    fun hcfg => ?_, ?_, fun hstep hat => ?_⟩, fun hstep hat hrun => ⟨fun hno => ?_, fun hc hrank hone => ?_⟩,
    fun hold => ⟨fun hst => ?_, fun hst => ?_⟩⟩
  · exact congrArg s.stepDev ((hfor hst _).trans (if_pos (by simpa using hsend)))
  · exact congrArg s.stepDev ((hfor hst _).trans (if_pos (by simpa using hsend)))
  · refine congrArg s.stepDev ((hfor hst _).trans ((if_neg (by simpa using hsend)).trans ?_))
    simp only [Dev.segAcked, hnamed]
  · refine congrArg s.stepDev ((hfor hst _).trans ((if_neg (by simpa using hsend)).trans ?_))
    simp only [Dev.segAgain, hnamed, ht]
    rfl
  · refine congrArg s.stepDev ((hfor hst _).trans ((if_neg (by simpa using hsend)).trans ?_))
    simp only [Dev.segAgain, hnamed, ht]
  · exact congrArg s.stepDev ((hfor hst _).trans (if_neg (not_not.mpr hcfg)))
  · exact congrArg s.stepDev ((hfor hst _).trans (if_pos hcfg))
  · exact congrArg s.stepDev (hfor hst _)
  · refine congrArg s.stepDev ((hfor hst _).trans (congrArg (fun e : Dev => (e.commitLoop j).stirXch p.job)
    (if_pos ?_)))
    simp [show p.step = (d.job j).step from hstep, show XPkt.attempt p = (d.job j).attempt from hat]
  · have hrunx : x.running = true := (Job.running_iff x).mpr hrun
    have hst : x.state ≠ .faulted := by rcases hrun with h | h <;> rw [h] <;> decide
    have hno' : e.isTold j cause rank p = (e, false) :=
      Dev.isTold_no (by rw [hjx]; exact hno.imp_right .inl)
    have hgo := (Dev.abortPkt_judged hst rfl hno').trans (congrArg (Dev.flushEarly · p.job) (Dev.peerAbort_current
      (d := e) (by rw [hjx]; exact hstep) (by rw [hjx]; exact hat) (by rw [hjx]; exact hrunx)))
    rw [hat] at hgo
    exact congrArg (fun d : Dev => s.stepDev d.progressAll) (habort.trans hgo)
  · have hrunx : x.running = true := (Job.running_iff x).mpr hrun
    have hst : x.state ≠ .faulted := by rcases hrun with h | h <;> rw [h] <;> decide
    have hyes : e.isTold j cause rank p = (e, true) := by
      rw [hc]
      exact Dev.isTold_yes (by rw [hjx]; exact hrank) (by rw [hjx]; exact hstep) (by rw [hjx]; exact hat)
        (by rw [hjx]; exact hrunx) (by rw [hjx]; exact hone)
    obtain ⟨n, hn⟩ := Dev.toldMismatch_job (d := e) (Dev.jobById_lt hjob) rank
    rw [hjx] at hn
    have hgo := (Dev.abortPkt_judged hst rfl hyes).trans (congrArg (Dev.flushEarly · p.job) (Dev.peerAbort_current
      (d := e.toldMismatch j rank) (by rw [hn]; exact hstep) (by rw [hn]; exact hat) (by rw [hn]; exact hrunx)))
    rw [hat, show field p.data 0 1 = 3 from hc] at hgo
    exact congrArg (fun d : Dev => s.stepDev d.progressAll) (habort.trans hgo)
  · exact congrArg (fun d : Dev => s.stepDev d.progressAll)
      (habort.trans (Dev.abortPkt_faulted hst ((x.older_iff p).mpr hold)))
  · have hno : e.isTold j cause rank p = (e, false) := by
      refine Dev.isTold_no (.inr (.inr ?_))
      rw [hjx]
      rintro ⟨hs, ha⟩
      rcases hold with h | ⟨-, h⟩
      · rw [hs] at h
        omega
      · omega
    exact congrArg (fun d : Dev => s.stepDev d.progressAll) (habort.trans ((Dev.abortPkt_judged hst rfl hno).trans
      (congrArg (Dev.flushEarly · p.job) (Dev.peerAbort_stale (d := e) (by rw [hjx]; exact hold)))))

end Claim
end Sys2Proof.Machine

/-- Settles O57: DATA and TALLY by `Dev.dataPkt_leaves` and the `Dev.takePkt` lemmas, STEP_ABORT by
`Dev.abortPkt_judged`. -/
theorem exchangePackets : Obligations.ExchangePackets := ⟨Claim.packetsPlaced, Claim.jobPackets⟩

end


/-! ### Collectives are fetched, wait and start (R310–R314, R395) -/

section
open Sys2Proof Sys2Proof.Machine Sys2Proof.Machine.Claim

namespace Sys2Proof.Machine

/-- A good descriptor's operation is the byte that names it. -/
theorem CDesc.op_of_ofBytes {bs : List Byte} {p : Nat} {c : CDesc} (h : CDesc.ofBytes bs p = some c) :
    c.op = field bs 0 1 := by
  unfold CDesc.ofBytes at h
  dsimp only at h
  split at h
  · obtain ⟨-, h⟩ := Option.ite_none_left_eq_some.mp h
    exact (congrArg CDesc.op (Option.some.inj h)).symm
  · cases h

/-! What becomes of a descriptor (R313). -/

section
variable {d : Dev} {j : Nat} {c : CDesc}

theorem Dev.placeDesc_enters (hstep : c.step = (d.job j).step) (hat : c.attempt = (d.job j).attempt) (hop : c.op ≠ 8) :
    d.placeDesc j c = d.enterBkt j c := by
  have hcur : (c.step == (d.job j).step && c.attempt == (d.job j).attempt) = true := by simp [hstep, hat]
  unfold Dev.placeDesc
  dsimp only
  rw [hcur, if_pos rfl, if_neg (by simpa using hop)]

/-- A COMMIT of the attempt is kept and waits for the tiles its context sampled, or for those it waited for already. -/
theorem Dev.placeDesc_commit (hstep : c.step = (d.job j).step) (hat : c.attempt = (d.job j).attempt) (hop : c.op = 8) :
    let e : Dev := { d with xch := { d.xch with commits := d.xch.commits.put j c } }
    d.placeDesc j c = if d.grd.waits.any (·.what == .nextJob j) = true then e.promoteCommit j
      else e.coverCommit ((d.job j).ctx.setWidth 12) (.job j) := by
  have hcur : (c.step == (d.job j).step && c.attempt == (d.job j).attempt) = true := by simp [hstep, hat]
  intro e
  unfold Dev.placeDesc
  dsimp only
  rw [hcur, if_pos rfl, if_pos (by simp [hop])]

theorem Dev.placeDesc_stale (hold : c.step.toNat < (d.job j).step.toNat
    ∨ c.step = (d.job j).step ∧ c.attempt < (d.job j).attempt) :
    d.placeDesc j c = (d.staleOne j).addOne (d.job j).job c.doneSem.toNat := by
  have hcur : ¬ (c.step == (d.job j).step && c.attempt == (d.job j).attempt) = true := by
    rw [Bool.and_eq_true, beq_iff_eq, beq_iff_eq]
    rintro ⟨hs, ha⟩
    rcases hold with h | ⟨-, h⟩
    · rw [hs] at h
      omega
    · omega
  unfold Dev.placeDesc
  dsimp only
  rw [if_neg hcur, if_pos (by simpa using hold)]

theorem Dev.placeDesc_next (hstep : (d.job j).step.toNat < c.step.toNat) :
    d.placeDesc j c = if c.step = (d.job j).step + 1 ∧ c.attempt = 0 then
        if c.op = 8 then ({ d with xch := { d.xch with heldDesc := d.xch.heldDesc.put j c } } : Dev).coverCommit
          ((d.job j).ctx.setWidth 12) (.nextJob j)
        else { d with xch := { d.xch with heldDesc := d.xch.heldDesc.put j c } }
      else d.jobFault j 0x04 := by
  have hne : c.step ≠ (d.job j).step := fun h => by rw [h] at hstep; omega
  have hcur : ¬ (c.step == (d.job j).step && c.attempt == (d.job j).attempt) = true := by simp [hne]
  have hold : ¬ (decide (c.step.toNat < (d.job j).step.toNat)
      || (c.step == (d.job j).step && decide (c.attempt < (d.job j).attempt))) = true := by
    simp [hne, Nat.le_of_lt hstep]
  unfold Dev.placeDesc
  dsimp only
  rw [if_neg hcur, if_neg hold]
  simp only [Bool.and_eq_true, beq_iff_eq]

theorem Dev.placeDesc_newer (hstep : c.step = (d.job j).step) (hat : (d.job j).attempt < c.attempt) :
    d.placeDesc j c = d.jobFault j 0x04 := by
  have hcur : ¬ (c.step == (d.job j).step && c.attempt == (d.job j).attempt) = true := by
    simp [Nat.ne_of_gt hat]
  have hold : ¬ (decide (c.step.toNat < (d.job j).step.toNat)
      || (c.step == (d.job j).step && decide (c.attempt < (d.job j).attempt))) = true := by
    simp [hstep, Nat.le_of_lt hat]
  have hnext : ¬ (c.step == (d.job j).step + 1 && c.attempt == 0) = true := by
    have : c.attempt ≠ 0 := by omega
    simp [this]
  unfold Dev.placeDesc
  dsimp only
  rw [if_neg hcur, if_neg hold, if_neg hnext]

end

/-- A descriptor that reads and is good is fetched, and its job's head goes on (R310). -/
theorem Dev.fetchDesc_good {d : Dev} {j op : Nat} {bs : List Byte} {c : CDesc} (hfree : (d.job j).state ≠ .free)
    (hfault : (d.job j).state ≠ .faulted) (hctx : (d.ctx ((d.job j).ctx.setWidth 12)).state.fetches = true)
    (htail : (d.job j).head < (d.sem (d.job j).csem.toNat).toNat) (hop : field bs 0 1 = op) :
    let x := d.job j
    let cx := x.ctx.setWidth 12
    let read := d.readVirt unitXch cx (x.cring.toNat + 64 * (x.head % 2 ^ x.clog2)) 64
    let wrote := (read.1.setJob j { x with head := x.head + 1 }).writeVirt unitXch cx x.chead.toNat (le 8 (x.head + 1))
    read.2 = .ok (bs, false) → CDesc.ofBytes bs x.nrank = some c → wrote.2 = .ok () →
    d.fetchDesc j op = wrote.1.placeDesc j { c with
      phase := if c.timed then c.start.toNat else wrote.1.ns, onWag := c.timed } := by
  intro x cx read wrote hread hc hwrote
  have hgo : ((d.job j).state == .free || (d.job j).state == .faulted
      || !(d.ctx ((d.job j).ctx.setWidth 12)).state.fetches
      || decide ((d.sem (d.job j).csem.toNat).toNat ≤ (d.job j).head)) = false := by
    simp [hfree, hfault, hctx, htail]
  have hcode : ¬ (field bs 0 1 != op && decide (1 ≤ field bs 0 1) && decide (field bs 0 1 ≤ 8)) = true := by simp [hop]
  have hread' : d.readVirt unitXch cx (x.cring.toNat + 64 * (x.head % 2 ^ x.clog2)) 64 = (read.1, .ok (bs, false)) :=
    Prod.ext rfl hread
  have hwrote' : (read.1.setJob j { x with head := x.head + 1 }).writeVirt unitXch cx x.chead.toNat
      (le 8 (x.head + 1)) = (wrote.1, .ok ()) := Prod.ext rfl hwrote
  unfold Dev.fetchDesc
  dsimp only
  rw [hgo, if_neg Bool.false_ne_true, hread']
  dsimp only
  rw [if_neg hcode, hwrote']
  dsimp only
  rw [if_neg Bool.false_ne_true, hc]

theorem Dev.collective_held {d : Dev} {j op : Nat} {c : CDesc} (hup : d.up = true)
    (hwith : (d.job j).withdrawn = false) (hheld : d.xch.heldDesc.get? j = some c) (hop : c.op = op) :
    let e := ({ d with xch := { d.xch with heldDesc := d.xch.heldDesc.del j } } : Dev).placeDesc j c
    d.collective j op = if op = 8 then e.commitLoop j else e := by
  intro e
  unfold Dev.collective
  rw [if_neg (by simp [hup, hwith])]
  dsimp only
  rw [hheld]
  dsimp only
  rw [if_pos hop]

theorem Dev.collective_fetches {d : Dev} {j op : Nat} (hup : d.up = true) (hwith : (d.job j).withdrawn = false)
    (hheld : d.xch.heldDesc.get? j = none) (hcommit : op = 8 → d.xch.commits.get? j = none) :
    d.collective j op = if op = 8 then (d.fetchDesc j op).commitLoop j else d.fetchDesc j op := by
  have hno : ¬ (decide (op = 8) && (d.xch.commits.get? j).isSome) = true := by
    rw [Bool.and_eq_true, decide_eq_true_eq]
    rintro ⟨h, hs⟩
    rw [hcommit h] at hs
    cases hs
  unfold Dev.collective
  rw [if_neg (by simp [hup, hwith])]
  dsimp only
  rw [hheld]
  dsimp only
  rw [if_neg hno]

/-- A timed collective starts when its time has come, or when there is no valid time, which is counted (R314, R395). -/
theorem Dev.timedStart_waits {d : Dev} {j : Nat} {n : BitVec 16} {b : Bucket} {c : CDesc} (hb : d.bktOf j n = some b)
    (hc : b.desc = some c) (hst : b.state = .waitStart) :
    d.timedStart j n = if d.timeReached c = true then (d.countEarly c.timed).beginBkt b.key else d := by
  unfold Dev.timedStart
  rw [hb]
  dsimp only
  rw [hc]
  dsimp only
  rw [hst]
  rfl

namespace Claim

theorem exec_collective (op : Fin 8) (j : JobIx) (s : State) :
    exec (collective op j) s = s.stepDev ((s.toDev.collective j.val (op.val + 1)).stirXch (s.toDev.job j.val).job) := by
  fin_cases op <;> rfl

theorem collectivesStart : CollectivesStart := by
  intro s j op bs c0 x cx read wrote hup hwith hheld hcommit hfree hfault hctx htail hread hop hc hwrote d covers y c
    ends
  have h8 : op.val + 1 = 8 ↔ op.val = 7 := by omega
  have hcop : c.op = op.val + 1 := (CDesc.op_of_ofBytes hc).trans hop
  have hfetch := Dev.fetchDesc_good (d := s.toDev) hfree hfault hctx htail hop hread hc hwrote
  have hends {e : Dev} (h : d.placeDesc j.val c = e) : ends e := by
    refine (exec_collective op j s).trans (congrArg (fun e : Dev => s.stepDev (e.stirXch x.job)) ?_)
    refine (Dev.collective_fetches hup hwith hheld fun h => hcommit (h8.mp h)).trans ?_
    rw [hfetch, show Dev.placeDesc _ j.val _ = e from h]
    simp only [h8]
  refine ⟨fun hstep hat => ⟨fun hlt => hends (Dev.placeDesc_enters hstep hat (by omega)), fun h7 => ?_⟩,
    fun hold => hends (Dev.placeDesc_stale hold), fun hstep hat => hends (Dev.placeDesc_newer hstep hat),
    fun hstep => ⟨fun hs ha => ⟨fun hlt => hends ?_, fun h7 => hends ?_⟩, fun hbad => hends ?_⟩⟩
  · intro held put
    have hgo := Dev.placeDesc_commit (d := d) hstep hat (by omega)
    refine ⟨fun hno => hends (hgo.trans (if_neg ?_)), fun hyes => hends (hgo.trans (if_pos ?_))⟩
    · simpa [held] using hno
    · simpa [held] using hyes
  · exact (Dev.placeDesc_next hstep).trans ((if_pos ⟨hs, ha⟩).trans (if_neg (by omega)))
  · exact (Dev.placeDesc_next hstep).trans ((if_pos ⟨hs, ha⟩).trans (if_pos (by omega)))
  · exact (Dev.placeDesc_next hstep).trans (if_neg (by rw [not_and_or]; exact hbad))

theorem collectivesWait : CollectivesWait := by
  intro s j x out
  refine ⟨?_, fun n b c hb hc hst htimed => ?_⟩
  · intro op c hup hwith hheld hop d
    refine (exec_collective op j s).trans (congrArg (fun e : Dev => s.stepDev (e.stirXch x.job)) ?_)
    refine (Dev.collective_held hup hwith hheld hop).trans ?_
    have h8 : op.val + 1 = 8 ↔ op.val = 7 := by omega
    simp only [h8]
    rfl
  · have hgo := Dev.timedStart_waits hb hc hst
    have hout {e : Dev} (h : s.toDev.timedStart j.val n = e) : exec (.timedCollectiveStart j n) s = .next (out e) :=
      congrArg (fun e : Dev => s.stepDev (e.stirXch x.job)) h
    refine ⟨fun hv ht => hout (hgo.trans ((if_pos ?_).trans ?_)), fun hv ht => hout (hgo.trans (if_neg ?_)),
      fun hv => hout (hgo.trans ((if_pos ?_).trans ?_))⟩
    · simp [Dev.timeReached, ht]
    · rw [Dev.countEarly, htimed, hv]
      rfl
    · simp [Dev.timeReached, htimed, hv, ht]
    · simp [Dev.timeReached, hv]
    · rw [Dev.countEarly, htimed, hv]
      rfl

end Claim
end Sys2Proof.Machine

/-- Settles O55: a fetch by `Dev.fetchDesc_good`, and what becomes of its descriptor by the `Dev.placeDesc` lemmas. -/
theorem collectives : Obligations.Collectives := ⟨Claim.collectivesStart, Claim.collectivesWait⟩

end


/-! ### Bells and class B accesses of other devices (R210, R354) -/

section
open Sys2Proof Sys2Proof.Machine Sys2Proof.Machine.Claim

namespace Sys2Proof.Machine

/-- A bell to a semaphore of a context of the same job is an update that sets out. -/
theorem Dev.bellHere_owned {d : Dev} {a v : Word} {add : Bool} {job : BitVec 16} {src n : Nat} {owner : BitVec 12}
    {x : Option (Nat × Nat)} (hn : n < semCount) (hpa : a.toNat % 2 ^ 48 = semBase + 8 * n)
    (hown : d.semOwner n = some owner) (hjob : (d.ctx owner).job = job) :
    d.bellHere a v add job src x = (d.pushSem { sem := n, value := v, add := add, entry := x }, none) := by
  have hsub : (semBase + 8 * n - semBase) / 8 = n := by omega
  unfold Dev.bellHere
  dsimp only
  rw [hpa, if_pos (by omega), hsub, hown]
  exact if_pos (by simp [hjob])

theorem Dev.dataArrived_req {d : Dev} {m : BDataMsg} {r : Req}
    (hr : ((d.consumeTag 0x06 m.tag).lnk.reqs.find? fun r => r.tag == m.tag) = some r) :
    let e := d.consumeTag 0x06 m.tag
    let r' : Req := { r with got := SMap.put r.got m.off m.data, psn := r.psn || m.poison }
    (∀ bs f, r'.whole = some bs → r.origin = .load f →
        d.dataArrived m = (e.dropReq m.tag).loadArrived f m.tag bs r'.psn)
      ∧ (∀ bs f, r'.whole = some bs → r.origin = .moveRead f →
        d.dataArrived m = (e.dropReq m.tag).moveRead f m.tag bs r'.psn)
      ∧ (r'.whole = none → d.dataArrived m = { e with lnk := { e.lnk with
        reqs := e.lnk.reqs.map fun x => if x.tag == m.tag then r' else x } }) := by
  intro e r'
  refine ⟨fun bs f hw ho => ?_, fun bs f hw ho => ?_, fun hw => ?_⟩
  all_goals
    unfold Dev.dataArrived
    dsimp only
    rw [hr]
    dsimp only
    rw [show Req.whole { r with got := SMap.put r.got m.off m.data, psn := r.psn || m.poison } = _ from hw]
  · rw [ho]
  · rw [ho]

theorem Dev.ackArrived_req {d : Dev} {tag : BitVec 32} {r : Req}
    (hr : ((d.consumeTag 0x08 tag).lnk.reqs.find? fun r => r.tag == tag) = some r) :
    let e := (d.consumeTag 0x08 tag).dropReq tag
    (∀ f, r.origin = .store f → d.ackArrived tag r.bytes = e.storeAcked f tag)
      ∧ (∀ f, r.origin = .moveWrite f → d.ackArrived tag r.bytes = (e.moveWritten f tag).pumpTally f 16)
      ∧ (∀ q seq x n, r.origin = .entryBell q seq → e.entry? q seq = some x →
        d.ackArrived tag n = (e.complete q x .ok).1) := by
  intro e
  refine ⟨fun f ho => ?_, fun f ho => ?_, fun q seq x n ho hx => ?_⟩
  all_goals
    unfold Dev.ackArrived
    dsimp only
    rw [hr]
    dsimp only
    rw [ho]
    dsimp only
  · rw [if_pos rfl]
  · rw [if_pos rfl]
  · rw [show Dev.entry? _ q seq = _ from hx]

theorem Dev.errorArrived_req {d : Dev} {tag : BitVec 32} {r : Req} (cause : Nat)
    (hr : (d.lnk.reqs.find? fun r => r.tag == tag) = some r) :
    d.errorArrived tag cause = (d.dropReq tag).originError r cause := by
  unfold Dev.errorArrived
  rw [hr]

namespace Claim

theorem remoteBells : RemoteBells := by
  intro s m hup d addr
  refine ⟨fun n c hmay hn hpa hown hjob => ?_, fun hmay => ?_⟩
  · refine congrArg s.stepDev ((if_pos hup).trans ((if_pos hmay).trans ?_))
    rw [Dev.bellHere_owned hn hpa hown hjob]
  · exact congrArg s.stepDev ((if_pos hup).trans (if_neg (by rw [Bool.not_eq_true]; exact hmay)))

theorem remoteAccesses : RemoteAccesses := by
  intro s refused
  refine ⟨fun hup => ⟨?_, ?_⟩, ?_, ?_, ?_, ?_⟩
  · intro m d pa may hpos hmax hmod
    refine ⟨fun hmay => congrArg s.stepDev ((if_pos hup).trans (if_neg ?_)),
      fun hmay => congrArg s.stepDev ((if_pos hup).trans (if_pos ?_))⟩
    · obtain ⟨hwin, hmem⟩ := Bool.and_eq_true_iff.mp hmay
      rw [show Dev.remoteMay _ m.job .read m.addr m.len = true from hwin, show inDramOrComb _ m.len = true from hmem]
      simp only [Bool.true_eq_false, or_false]
      omega
    · rcases Bool.and_eq_false_iff.mp hmay with h | h
      · exact .inr (.inr (.inr (.inl h)))
      · exact .inr (.inr (.inr (.inr h)))
  · intro m d pa n may hmax
    refine ⟨fun hmay => congrArg s.stepDev ((if_pos hup).trans (if_neg ?_)),
      fun hmay => congrArg s.stepDev ((if_pos hup).trans (if_pos (.inr (Bool.and_eq_false_iff.mp hmay))))⟩
    obtain ⟨hwin, hmem⟩ := Bool.and_eq_true_iff.mp hmay
    rw [show Dev.remoteMay _ m.job .write m.addr _ = true from hwin, show inDramOrComb _ _ = true from hmem]
    simp only [Bool.true_eq_false, or_false]
    omega
  · intro m r f d r' hr
    obtain ⟨hload, hmove, hpart⟩ := Dev.dataArrived_req hr
    exact ⟨fun bs hw ho => congrArg s.stepDev (hload bs f hw ho), fun bs hw ho => congrArg s.stepDev (hmove bs f hw ho),
      fun hw => congrArg s.stepDev (hpart hw)⟩
  · intro tag r f d hr
    obtain ⟨hstore, hmove, hbell⟩ := Dev.ackArrived_req hr
    exact ⟨fun ho => congrArg s.stepDev (hstore f ho), fun ho => congrArg s.stepDev (hmove f ho),
      fun q seq e n ho he => congrArg s.stepDev (hbell q seq e n ho he)⟩
  · intro tag r cause d hr
    exact congrArg s.stepDev (Dev.errorArrived_req cause.toNat hr)
  · intro tag r hr
    have hany : s.lnk.reqs.any (·.tag == tag) = true :=
      List.any_eq_true.mpr ⟨r, List.mem_of_find?_eq_some hr, List.find?_some (p := fun x : Req => x.tag == tag) hr⟩
    exact congrArg s.stepDev ((if_pos hany).trans (Dev.errorArrived_req 0x08 hr))

end Claim
end Sys2Proof.Machine

/-- Settles O52: bells by `Dev.bellHere_owned`, the answers to this device's requests by `Dev.dataArrived_req`,
`Dev.ackArrived_req` and `Dev.errorArrived_req`. -/
theorem remoteRequests : Obligations.RemoteRequests := ⟨Claim.remoteBells, Claim.remoteAccesses⟩

end


/-! ### Link-control flits and messages, lanes, flit slots and routes (R356–R360, R367–R378) -/

section
open Sys2Proof Sys2Proof.Machine Sys2Proof.Machine.Claim

namespace Sys2Proof.Machine

/-! Link-control flits and messages. -/

/-- A good link-control flit of an ACTIVE port: what it acknowledges, asks for again, and grants (R356). -/
theorem Dev.receiveControl_active {d : Dev} {p : Port} {bs : List Byte} (hst : (d.port p).state = .active)
    (hlen : bs.length = 256) (hcls : field bs 0 1 = 3) (hmsg : field bs 1 1 ≤ 6)
    (hcrc : field bs 252 4 = flitCrc 0 (bs.take 252)) (hres : field bs 10 2 < 512) :
    let x := d.port p
    let y := x.acked (BitVec.ofNat 32 (field bs 2 4))
    let y := if bit (field bs 10 2) 0 = true then y.naked (BitVec.ofNat 32 (field bs 6 4)) else y
    d.receiveControl p bs = d.setPort p { y with limit :=
      #v[BitVec.ofNat 16 (x.share classW + field bs 12 2), BitVec.ofNat 16 (x.share classC + field bs 14 2),
        BitVec.ofNat 16 (x.share classB + field bs 16 2)] } := by
  intro x y z
  have hgood : (bs.length != 256 || field bs 0 1 % 4 != 3 || field bs 0xFC 4 != flitCrc 0 (bs.take 252)) = false := by
    simp [hlen, hcls, hcrc]
  have hform : (field bs 0 1 != 3 || field bs 0x0A 2 / 512 != 0) = false := by simp [hcls, hres]
  have hknown : decide (6 < field bs 1 1) = false := decide_eq_false (Nat.not_lt.mpr hmsg)
  have hshare (c : BitVec 2) : z.share c = x.share c := by
    by_cases hnak : bit (field bs 10 2) 0 = true
    · rw [show z = y.naked (BitVec.ofNat 32 (field bs 6 4)) from if_pos hnak]
      unfold LPort.naked
      dsimp only
      split <;> rfl
    · rw [show z = y from if_neg hnak]
      rfl
  have hgo : d.receiveControl p bs = d.setPort p { z with limit :=
      #v[BitVec.ofNat 16 (z.share classW + field bs 12 2), BitVec.ofNat 16 (z.share classC + field bs 14 2),
        BitVec.ofNat 16 (z.share classB + field bs 16 2)] } := by
    unfold Dev.receiveControl
    dsimp only
    rw [hgood, if_neg Bool.false_ne_true, hform, if_neg Bool.false_ne_true, hknown, Bool.and_false,
      if_neg Bool.false_ne_true, if_pos (by simp [hst])]
    rfl
  rw [hgo, hshare, hshare, hshare]

theorem Dev.partnerLanes_active {d : Dev} {p : Port} {mask count : Byte} (hst : (d.port p).state = .active)
    (hle : count.toNat ≤ (d.port p).lanes) (hcount : count = 1 ∨ count = 2 ∨ count = 4 ∨ count = 6 ∨ count = 8) :
    let m := (d.port p).laneMask &&& mask
    let n := min count.toNat (laneCount (goodLanes m))
    d.partnerLanes p mask count
      = if n = 0 then (d.updPort p fun x => { x with laneMask := m }).portDown p .offline else d.setLanes p m n := by
  have hlanes : (laneCount count.toNat == count.toNat && count != 0) = true := by
    rcases hcount with rfl | rfl | rfl | rfl | rfl <;> decide
  have hgo : ((d.port p).state == .active && decide (count.toNat ≤ (d.port p).lanes)
      && laneCount count.toNat == count.toNat && count != 0) = true := by
    rw [hst, decide_eq_true hle, Bool.and_assoc, hlanes]
    rfl
  exact if_pos hgo

/-- A lane of a port fails: an ACTIVE port goes on with fewer, or OFFLINE with its last; a trained one counts
(R374, R375). -/
theorem Dev.laneFails_used {d : Dev} {p : Port} {lane : Fin 8} (hl : (d.port p).laneMask.getLsbD lane.val = true) :
    let x := d.port p
    let mask := x.laneMask &&& ~~~(1#8 <<< lane.val)
    let n := laneCount (goodLanes mask)
    (x.state = .active → d.laneFails p lane
        = if n = 0 then (d.updPort p fun x => { x with laneMask := mask }).portDown p .offline
          else (d.updPort p (·.say ([4] ++ [mask] ++ le 1 n))).setLanes p mask n)
      ∧ (x.state = .fecLock ∨ x.state = .hello ∨ x.state = .quarantined → d.laneFails p lane = d.updPort p fun x =>
        { x with
        laneMask := mask, lanes := n, laneDrops := if n < x.lanes then satAdd x.laneDrops else x.laneDrops }) := by
  intro x mask n
  have hgo : ¬ ((d.port p).laneMask.getLsbD lane.val = false) := by simp [hl]
  refine ⟨fun hst => (if_neg hgo).trans ?_, fun hst => (if_neg hgo).trans ?_⟩
  · rw [show (d.port p).state = .active from hst]
  · rcases hst with hst | hst | hst <;> rw [show (d.port p).state = _ from hst]

/-! Flit slots. -/

/-- The token count of a data slot that does not complete a token's 50 (R360). -/
theorem Dev.flitSlot_data {d : Dev} {p : Port} (hst : (d.port p).state = .active) (hslot : (d.port p).slot < 20)
    (htok : (d.port p).tokenCnt < 49) :
    let x := d.port p
    let y : LPort := { x with slot := x.slot + 1, tokenCnt := x.tokenCnt + 1 }
    let e := d.setPort p y
    d.flitSlot p = if 0 < x.resend then
        match x.replay[x.replay.length - x.resend]? with
        | some (n, fl) => (d.setPort p { y with resend := x.resend - 1 }).emit (.flit p (fl.bytes n))
        | none => d.setPort p { y with resend := 0 }
      else if 4096 ≤ x.replay.length then e.emit (.flit p idleFlit)
      else
        let q := y.pick d.lnk.cWeight.toNat d.lnk.bWeight.toNat
        let r := q.2.pop q.1
        match r.1 with
        | some fl => (d.setPort p r.2).putFlit p fl
        | none => (d.setPort p r.2).emit (.flit p idleFlit) := by
  intro x y e
  have hslot' : (d.port p).slot ≠ 20 := by omega
  have htok' : (d.port p).tokenCnt + 1 ≠ 50 := by omega
  have hgo : ((d.port p).state != .active && (d.port p).state != .quarantined) = false := by simp [hst]
  unfold Dev.flitSlot
  dsimp only
  rw [hgo, if_neg Bool.false_ne_true, if_neg hslot', if_pos (by simp [hst])]
  unfold Dev.dataSlot
  dsimp only
  rw [Dev.updPort_setPort]
  dsimp only
  rw [if_neg htok', Dev.port_setPort]
  dsimp only
  simp only [Dev.setPort_setPort]
  split
  · rfl
  · split
    · rfl
    · rfl

/-- With no flit to send, both deficits begin anew (R360). -/
theorem LPort.pick_none {x : LPort} {cw bw : Nat} (hw : x.egW = []) (hc : x.egC = []) (hb : x.egB = []) :
    x.pick cw bw = (.none, { (if x.arb = (cw, bw) then x else { x with arb := (cw, bw), defC := 0, defB := 0 }) with
      defC := 0, defB := 0 }) := by
  unfold LPort.pick
  by_cases h : x.arb = (cw, bw) <;> simp [h, hw, hc, hb]

/-- A flit of class W that holds a token goes first (R360). -/
theorem LPort.pick_w {x : LPort} {cw bw : Nat} {fl : Flit} {rest : List Flit} (hw : x.egW = fl :: rest)
    (htok : 0 < x.tokens) (hcred : 0 < x.credit classW) (hlim : x.credit classW < 2 ^ 15) :
    let z : LPort := if x.arb = (cw, bw) then x else { x with arb := (cw, bw), defC := 0, defB := 0 }
    x.pick cw bw = (.w, { z with tokens := x.tokens - 1 }) := by
  intro z
  have hz : z.egW = fl :: rest ∧ z.tokens = x.tokens ∧ z.credit classW = x.credit classW := by
    simp only [z]
    split <;> exact ⟨hw, rfl, rfl⟩
  obtain ⟨hzw, hzt, hzc⟩ := hz
  have hgo : ((!z.egW.isEmpty && decide (0 < z.credit classW) && decide (z.credit classW < 2 ^ 15))
      && decide (0 < z.tokens)) = true := by
    rw [hzw, hzc, hzt, decide_eq_true hcred, decide_eq_true hlim, decide_eq_true htok]
    rfl
  rw [← hzt]
  exact if_pos hgo

theorem LPort.pop_w {x : LPort} {fl : Flit} {rest : List Flit} (h : x.egW = fl :: rest) :
    x.pop .w = (some fl, { x with egW := rest }) := by
  unfold LPort.pop
  dsimp only
  rw [h]
  rfl

/-! Routes. -/

theorem Dev.setRtb_lt (d : Dev) (i : Fin 64) (w : Word) :
    d.setRtb i.val w = { d with lnk := { d.lnk with rtb := d.lnk.rtb.set i.val w } } := by
  have h : d.lnk.rtb.setIfInBounds i.val w = d.lnk.rtb.set i.val w := by
    ext j hj
    simp [Vector.getElem_setIfInBounds, Vector.getElem_set]
  unfold Dev.setRtb
  rw [h]

/-- The entry of the device itself is written as 0 (R369). -/
theorem Dev.routeOp_rtb (d : Dev) (i : Fin 64) (v : Word) : d.routeOp (.rtb i v) = { d with lnk := { d.lnk with
    rtb := d.lnk.rtb.set i.val (if i.val = d.lnk.devId.toNat % 64 then 0 else v &&& 0xFFFFFF1F) } } := by
  unfold Dev.routeOp
  dsimp only
  split
  next h => rw [Dev.setRtb_lt]
  next h => rw [Dev.setRtb_lt]; rfl

theorem Dev.setServo_lnk (d : Dev) (st : WState) : (d.setServo st).lnk = d.lnk := by
  obtain ⟨m, x, g, b, h⟩ := d.setServo_shape st
  rw [h]

/-- The tree of Waggle time follows the routes and leaves the ports alone. -/
theorem Dev.refreshTree_lnk (d : Dev) : d.refreshTree.lnk = d.lnk := by
  unfold Dev.refreshTree
  dsimp only
  split
  · rfl
  · split
    · rfl
    · unfold Dev.reform
      split
      · rfl
      · dsimp only
        split
        · exact Dev.setServo_lnk _ _
        · split
          · exact Dev.setServo_lnk _ _
          · rfl

/-- Where no port holds a flit for replay, new routes only move the tree (R370). -/
theorem Dev.changeRoutes_one {d : Dev} {o : RouteOp} (hup : d.up = true) (hlnk : (d.routeOp o).lnk.ports = d.lnk.ports)
    (hempty : ∀ q : Port, (d.port q).replay = []) : d.changeRoutes [o] = (d.routeOp o).refreshTree := by
  have hports (q : Port) : ((d.routeOp o).refreshTree).port q = d.port q := by
    unfold Dev.port
    simp only [Dev.refreshTree_lnk, hlnk]
  unfold Dev.changeRoutes
  rw [if_neg (by simp [hup])]
  dsimp only
  refine List.foldlRecOn (motive := fun e : Dev => e = (d.routeOp o).refreshTree) _ _ rfl ?_
  rintro e rfl q -
  refine if_neg ?_
  rw [hports, hempty]
  simp

namespace Claim

theorem linkMessages : LinkMessages := by
  intro s p x
  refine ⟨?_, fun id q gen hst => ?_, fun hst => ⟨fun hdr => ?_, fun c n => ?_, ?_, fun c => ?_, fun c h1 h4 => ?_⟩, ?_⟩
  · intro bs fec hst hlen hcls hmsg hcrc hres y z
    have hfec : s.toDev.fecErrors p fec = s.toDev.setPort p { x with fecUncorr := satAdd x.fecUncorr fec } :=
      if_pos (by rw [show (s.toDev.port p).state = .active from hst]; rfl)
    have hgo := Dev.receiveControl_active (d := s.toDev.fecErrors p fec) (p := p) (bs := bs)
      (by rw [hfec, Dev.port_setPort]; exact hst) hlen hcls hmsg hcrc hres
    rw [hfec, Dev.port_setPort] at hgo
    exact congrArg s.stepDev ((congrArg (Dev.receiveControl · p bs) hfec).trans
      (hgo.trans (Dev.setPort_setPort _ _ _ _)))
  · exact congrArg (fun d : Dev => s.stepDev d.fillPlaces) (if_neg (by simp [show (s.toDev.port p).state = _ from hst]))
  · exact congrArg s.stepDev (if_pos (by simp [show (s.toDev.port p).state = _ from hst]))
  · exact congrArg s.stepDev (if_pos (by simp [show (s.toDev.port p).state = _ from hst]))
  · intro mask count hle hcount m n
    have hgo := Dev.partnerLanes_active (d := s.toDev) (mask := mask) hst hle hcount
    exact ⟨fun hn => congrArg s.stepDev (hgo.trans (if_neg hn)), fun hn => congrArg s.stepDev (hgo.trans (if_pos hn))⟩
  · exact congrArg s.stepDev (if_pos (by simp [show (s.toDev.port p).state = _ from hst]))
  · exact congrArg s.stepDev (if_pos (by simp [show (s.toDev.port p).state = _ from hst, h1, h4]))
  · intro lane hl mask n next
    obtain ⟨hactive, htrained⟩ := Dev.laneFails_used (d := s.toDev) hl
    exact ⟨fun hst hn => congrArg s.stepDev ((hactive hst).trans (if_pos hn)),
      fun hst hn => congrArg s.stepDev ((hactive hst).trans (if_neg hn)), fun hst => congrArg s.stepDev (htrained hst)⟩

theorem flitSlots : FlitSlots := by
  intro s p x
  refine ⟨fun hst hslot => ?_, fun n fl hst hslot hres htok hfl => ?_, ?_, fun hst hslot => ?_, fun i v hup hempty =>
    ?_,
    fun i v hup hempty => ?_⟩
  · exact congrArg s.stepDev ((if_neg (by simp [show (s.toDev.port p).state = _ from hst])).trans (if_pos hslot))
  · have hgo := (Dev.flitSlot_data (d := s.toDev) hst hslot htok).trans (if_pos hres)
    rw [show (s.toDev.port p).replay[_]? = some (n, fl) from hfl] at hgo
    exact congrArg s.stepDev hgo
  · intro hslot hres htok w y z next
    have hres' : ¬ 0 < (s.toDev.port p).resend := by
      rw [show (s.toDev.port p).resend = 0 from hres]
      exact Nat.lt_irrefl 0
    have hgo (hst : x.state = .active) := (Dev.flitSlot_data (d := s.toDev) hst hslot htok).trans (if_neg hres')
    have hz : (if y.arb = w then y else { y with arb := w, defC := 0, defB := 0 }) = z := rfl
    refine ⟨fun hst hfull => congrArg s.stepDev ((hgo hst).trans (if_pos hfull)), fun hst hroom hw hc hb => ?_,
      fun fl rest hst hroom hw ht hcred hlim => ?_⟩
    · have hpick := LPort.pick_none (x := y) (cw := w.1) (bw := w.2) hw hc hb
      refine congrArg s.stepDev ((hgo hst).trans ((if_neg (Nat.not_le.mpr hroom)).trans ?_))
      dsimp only
      rw [show LPort.pick _ _ _ = _ from hpick]
      rfl
    · have hpick := LPort.pick_w (x := y) (cw := w.1) (bw := w.2) hw ht hcred hlim
      have hzw : z.egW = fl :: rest := by
        simp only [z]
        split <;> exact hw
      refine congrArg s.stepDev ((hgo hst).trans ((if_neg (Nat.not_le.mpr hroom)).trans ?_))
      dsimp only
      rw [show LPort.pick _ _ _ = _ from hpick]
      rw [LPort.pop_w (x := { z with tokens := y.tokens - 1 }) hzw]
  · have hslot' : (s.toDev.port p).slot ≠ 20 := Nat.ne_of_lt hslot
    refine congrArg s.stepDev ((if_neg (by simp [show (s.toDev.port p).state = _ from hst])).trans
      ((if_neg hslot').trans (if_neg (by simp [show (s.toDev.port p).state = _ from hst]))))
  · refine congrArg s.stepDev ((Dev.changeRoutes_one hup ?_ hempty).trans
      (congrArg Dev.refreshTree (Dev.routeOp_rtb _ i v)))
    rw [Dev.routeOp_rtb]
  · exact congrArg s.stepDev (Dev.changeRoutes_one hup rfl hempty)

end Claim
end Sys2Proof.Machine

/-- Settles O51: the messages by `Dev.receiveControl_active`, `Dev.partnerLanes_active` and `Dev.laneFails_used`, the
slots by
`Dev.flitSlot_data`, the routes by `Dev.changeRoutes_one`. -/
theorem portTraffic : Obligations.PortTraffic := ⟨Claim.linkMessages, Claim.flitSlots⟩

end


/-! ### A restore that meets a frame with no image (R264)

O42 says of a restore with nothing left to reload that it changes its context's state and its orphan stop alone,
where every image it finds is of a frame at rest that nobody kills. A frame that waits for the restore and has no image
is
not among those: when its task was killed meanwhile, it ends the task and passes its format flags to the context. -/

section
open Sys2Proof Sys2Proof.Machine

namespace Sys2Proof.Machine.Claim

/-- Context 0 waits for its restore, whose images are none. -/
def waitingCtx : Ctx := { state := .restoring }

/-- A frame that waits for the restore, whose task is being killed. -/
def killedFrame : Frame := { state := .restoring, killing := true, fmtFlags := 1 }

/-- The images of context 0: none. -/
def noImages : SaveImg := { ctx := 0, gen := 0, images := [] }

def restoresNone : State := { State.reset with
  fr := State.reset.fr.set 0 killedFrame
  mkt := { State.reset.mkt with ctxs := [(0, waitingCtx)], saves := [noImages] } }

/-- The killed frame's format flags reach the context. -/
theorem restoresNone_flags : ((restoresNone.restored 0).ctx 0).fmtFlags = 1 := by
  decide +kernel

end Sys2Proof.Machine.Claim

open Sys2Proof.Machine.Claim

/-- Refutes O42: the clause on a restore leaves out a frame with no image whose task is killed, which passes its flags
on. -/
theorem not_contextsSaved : ¬ Obligations.ContextsSaved := by
  rintro ⟨-, hrestore, -⟩
  obtain ⟨d, hd, hctx, -⟩ := hrestore restoresNone 0 noImages rfl rfl (fun g hg => nomatch hg) (fun i hi => nomatch hi)
  obtain rfl := stepDev_inj hd
  have hflags := congrArg Ctx.fmtFlags hctx
  rw [restoresNone_flags] at hflags
  exact absurd hflags (by decide)

end


/-! ### Takes (R109, R120, R240–R242, R252, R506) -/

section
open Sys2Proof Sys2Proof.Machine Sys2Proof.Machine.Claim

namespace Sys2Proof.Machine

/-! Graphs and tasks. -/

/-- A graph reads back as it was updated. -/
theorem Dev.graph?_updGraph {d : Dev} {n : Nat} {h : Graph → Graph} (hid : ∀ g, (h g).id = g.id) :
    (d.updGraph n h).graph? n = (d.graph? n).map h := by
  unfold Dev.updGraph Dev.graph?
  dsimp only
  rw [List.find?_map]
  have hp : ((fun x : Graph => x.id == n) ∘ fun x => if (x.id == n) = true then h x else x) = fun x => x.id == n := by
    funext x
    by_cases hx : (x.id == n) = true
    · simp only [Function.comp, if_pos hx, hid]
    · simp only [Function.comp, if_neg hx]
  rw [hp]
  cases hf : d.mkt.graphs.find? (fun x => x.id == n) with
  | none => rfl
  | some g => exact congrArg some (if_pos (List.find?_some (p := fun x : Graph => x.id == n) hf))

theorem Dev.task?_of_graph {d : Dev} {t : TaskRef} {g : Graph} {x : Task} (hg : d.graph? t.graph = some g)
    (hx : g.tasks[t.idx]? = some x) : d.task? t = some x := by
  rw [Dev.task?, hg]
  exact hx

/-- A take that is given: the task is TAKEN there, the frame no longer asks, the take is counted and traced (R240). -/
theorem Dev.giveTake_eq {d : Dev} {f : FrameId} {t : TaskRef} {g : Graph} {x : Task} (hg : d.graph? t.graph = some g)
    (hx : g.tasks[t.idx]? = some x) :
    d.giveTake f t = ((({ d with mkt := { d.mkt with takes := d.mkt.takes + 1 } } : Dev).updTask t
      (fun x => { x with state := .taken, frame := some f }) |>.updFrame f fun fr =>
        { fr with granted := some t, wantTake := false }).trace 0 f.val g.ctx.toNat x.va.toNat x.offer) := by
  let h (x : Task) : Task := { x with state := .taken, frame := some f }
  let e := (d.updTask t h).updFrame f fun fr => { fr with granted := some t, wantTake := false }
  have hge : e.graph? t.graph = some { g with tasks := g.tasks.modify t.idx h } := by
    have := Dev.graph?_updGraph (d := d) (n := t.graph) (h := fun g => { g with tasks := g.tasks.modify t.idx h })
      fun _ => rfl
    rw [hg] at this
    exact this
  have hxe : e.task? t = some (h x) := Dev.task?_of_graph hge (by simp [hx])
  unfold Dev.giveTake
  dsimp only
  rw [show Dev.task? _ t = some (h x) from hxe, show Dev.graph? _ t.graph = _ from hge]
  rfl

/-- The Market's choice moves deficits and the round pointer: no graph changes (R252). -/
theorem Dev.drr_graphs (d : Dev) (fr : Frame) (cs : List (BitVec 12)) (fuel i : Nat) :
    (d.drr fr cs fuel i).1.mkt.graphs = d.mkt.graphs := by
  induction fuel generalizing d i with
  | zero => rfl
  | succ fuel ih =>
    unfold Dev.drr
    split
    · rfl
    · dsimp only
      split
      · split
        · rfl
        · rw [ih]; rfl
      · rw [ih]; rfl

theorem Dev.chooseTake_graphs (d : Dev) (f : FrameId) : (d.chooseTake f).1.mkt.graphs = d.mkt.graphs := by
  unfold Dev.chooseTake
  dsimp only
  split
  · rfl
  · split
    next he => exact (congrArg (fun r : Dev × _ => r.1.mkt.graphs) he).symm.trans (Dev.drr_graphs _ _ _ _ _)
    next he => exact (congrArg (fun r : Dev × _ => r.1.mkt.graphs) he).symm.trans (Dev.drr_graphs _ _ _ _ _)

theorem Dev.grantTake_choice {d : Dev} {f : FrameId} (hw : (d.frame f).wantTake = true) (hup : d.clusterUp f = true)
    (hgr : (d.frame f).granted = none) (hfl : (d.frame f).svc.flagged = false) (hgw : (d.frame f).guardWork = [])
    (hst : (d.frame f).stallV = true) :
    (∀ t, (d.chooseTake f).2 = some t → d.grantTake f none = (d.chooseTake f).1.giveTake f t)
      ∧ ((d.chooseTake f).2 = none → d.grantTake f none = (d.chooseTake f).1) := by
  have hasks : ((d.frame f).wantTake && d.clusterUp f && (d.frame f).granted.isNone && !(d.frame f).svc.flagged
      && (d.frame f).guardWork.isEmpty && (d.frame f).stallV) = true := by simp [hw, hup, hgr, hfl, hgw, hst]
  have hgo : d.grantTake f none = match d.chooseTake f with
      | (d, some t) => d.giveTake f t
      | (d, none) => d := by
    unfold Dev.grantTake
    dsimp only
    rw [hasks]
    exact if_neg Bool.false_ne_true
  generalize d.chooseTake f = r at hgo
  obtain ⟨e, o⟩ := r
  constructor
  · rintro t rfl
    exact hgo
  · rintro rfl
    exact hgo

theorem Dev.grantTake_asked {d : Dev} {f : FrameId} {t : TaskRef} {g : Graph} {x : Task}
    (hw : (d.frame f).wantTake = true) (hup : d.clusterUp f = true) (hgr : (d.frame f).granted = none)
    (hfl : (d.frame f).svc.flagged = false) (hgw : (d.frame f).guardWork = []) (hst : (d.frame f).stallV = true)
    (hg : d.graph? t.graph = some g) (hx : g.tasks[t.idx]? = some x) (hoff : x.state = .offered)
    (hfit : x.fits (d.frame f) = true) (hmay : d.mayGrant g.ctx = true)
    (hstall : (d.ctx g.ctx).stall.toNat = (d.frame f).stall.toNat) : d.grantTake f (some t) = d.giveTake f t := by
  have hasks : ((d.frame f).wantTake && d.clusterUp f && (d.frame f).granted.isNone && !(d.frame f).svc.flagged
      && (d.frame f).guardWork.isEmpty && (d.frame f).stallV) = true := by simp [hw, hup, hgr, hfl, hgw, hst]
  have hok : (x.state == .offered && x.fits (d.frame f) && d.mayGrant g.ctx
      && (d.ctx g.ctx).stall.toNat == (d.frame f).stall.toNat) = true := by simp [hoff, hfit, hmay, hstall]
  unfold Dev.grantTake
  dsimp only
  rw [Dev.task?_of_graph hg hx, hg]
  dsimp only [Option.map_some, Option.getD_some]
  rw [if_pos hok, if_pos hasks]

/-- A dispatch of a task that is not there, or that the Market may not grant there, is refused (R242). -/
theorem Dev.grantTake_refused {d : Dev} {f : FrameId} {t : TaskRef}
    (h : d.task? t = none ∨ ∃ g x, d.graph? t.graph = some g ∧ g.tasks[t.idx]? = some x
      ∧ (x.state ≠ .offered ∨ x.fits (d.frame f) = false ∨ d.mayGrant g.ctx = false
        ∨ (d.ctx g.ctx).stall.toNat ≠ (d.frame f).stall.toNat)) : d.grantTake f (some t) = d.refuseDispatch f t := by
  unfold Dev.grantTake
  dsimp only
  rcases h with h | ⟨g, x, hg, hx, hbad⟩
  · rw [h]
  · have hno : ¬ (x.state == .offered && x.fits (d.frame f) && d.mayGrant g.ctx
        && (d.ctx g.ctx).stall.toNat == (d.frame f).stall.toNat) = true := by
      rcases hbad with h | h | h | h <;> simp [h]
    rw [Dev.task?_of_graph hg hx, hg]
    exact if_neg hno

/-- A record of the ledger touches memory, the guard's counts and the interrupt causes. -/
theorem Dev.ledger_parts (d : Dev) (cls code : Nat) (x : LedF) :
    (d.ledger cls code x).fr = d.fr ∧ (d.ledger cls code x).mkt = d.mkt := by
  have hirq (e : Dev) : (e.irq 2).fr = e.fr ∧ (e.irq 2).mkt = e.mkt := by
    unfold Dev.irq Dev.msix
    split <;> exact ⟨rfl, rfl⟩
  unfold Dev.ledger
  split
  · exact ⟨rfl, rfl⟩
  · dsimp only
    split
    · exact ⟨rfl, rfl⟩
    · simp only [hirq, Dev.write_fr, Dev.write_mkt, and_self]

/-! A task comes onto its frame. -/

/-- What settles of a frame at rest that nobody kills is the stop it was asked for. -/
theorem Dev.settle_quiet {d : Dev} {f : FrameId} (hq : (d.frame f).quiet = true) (hk : (d.frame f).killing = false) :
    d.settle f = if ((d.frame f).preempt && (d.frame f).state == .running) = true then
      d.setFrame f { d.frame f with state := .saving, preempt := false, held := none } else d := by
  unfold Dev.settle
  dsimp only
  rw [hq, hk, Bool.not_true, Bool.false_and, if_neg Bool.false_ne_true, if_neg Bool.false_ne_true]

theorem Dev.completeTake_task {d : Dev} {f : FrameId} {ref : TaskRef} {g : Graph} {t : Task}
    (hgr : (d.frame f).granted = some ref) (hst : (d.frame f).state = .idle) (htask : (d.frame f).task = none)
    (hgu : (d.frame f).guardRun = none) (hg : d.graph? ref.graph = some g) (ht : g.tasks[ref.idx]? = some t)
    (hkind : g.kind = .graph ∨ g.kind = .batch) :
    d.completeTake f
      = ((d.setFrame f ((d.frame f).taken f g.ctx ref t d.ns)).loadEffects f g.ctx t).settle f := by
  have hgo : ((d.frame f).state != .idle || (d.frame f).task.isSome || (d.frame f).guardRun.isSome) = false := by
    simp [hst, htask, hgu]
  unfold Dev.completeTake
  dsimp only
  rw [hgr]
  dsimp only
  rw [hgo, if_neg Bool.false_ne_true, Dev.task?_of_graph hg ht, hg]
  dsimp only
  rcases hkind with hk | hk <;> rw [hk]

/-- A task finds its record, argument, frame and context in s0 to s3 and every other register and channel clear
(R109, R185). -/
theorem Frame.taken_cleared (fr : Frame) (f : FrameId) (c : BitVec 12) (ref : TaskRef) (t : Task) (ns : Nat) :
    let x := fr.taken f c ref t ns
    x.regs.s.toList = [t.va.setWidth 64, t.arg, BitVec.ofNat 64 f.val, c.setWidth 64] ++ List.replicate 60 0
      ∧ (∀ i : Fin 16, x.regs.a[i.val] = 0) ∧ (∀ i : Fin 32, x.regs.t[i.val].valid = false)
      ∧ (∀ i : Fin 8, x.regs.k[i.val] = 0) ∧ (∀ i : Fin 16, x.regs.ac[i.val] = 0)
      ∧ (∀ i : Fin 8, x.regs.mc[i.val] = 0) ∧ (∀ i : Fin 64, x.chans[i.val] = {}) := by
  intro x
  refine ⟨rfl, ?_, ?_, ?_, ?_, ?_, ?_⟩
  all_goals
    intro i
    simp [x, Frame.taken]

/-- The frame of a task without an effect list, at its first boundary where a stop was asked for. -/
def takenFrame (fr : Frame) (f : FrameId) (c : BitVec 12) (ref : TaskRef) (t : Task) (ns : Nat) : Frame :=
  let x := fr.taken f c ref t ns
  if fr.preempt = true then { x with state := .saving, preempt := false } else x

/-! Effect lists. -/

/-- The fields of an entry, as bits and as digits (R120). -/
theorem effect_bits (v : Nat) : bits v 95 64 = v / 2 ^ 64 % 2 ^ 32 ∧ bits v 99 96 = v / 2 ^ 96 % 2 ^ 8 % 2 ^ 4
    ∧ bits v 103 96 = v / 2 ^ 96 % 2 ^ 8 ∧ bits v 111 104 = v / 2 ^ 104 % 2 ^ 8
    ∧ bits v 127 112 = v / 2 ^ 112 % 2 ^ 16 := by
  have h (hi lo : Nat) : bits v hi lo = v / 2 ^ lo % 2 ^ (hi + 1 - lo) := by rw [bits, Nat.shiftRight_eq_div_pow]
  exact ⟨h 95 64, (h 99 96).trans (Nat.mod_mod_of_dvd _ (by decide)).symm, h 103 96, h 111 104, h 127 112⟩

/-- An entry is bad where the spec's conditions on it fail (R120). -/
theorem effBad_iff (v : Nat) : effBad v = false ↔ goodEffect v := by
  obtain ⟨hlen, -, hrights, hkind, htop⟩ := effect_bits v
  have hlow : v % 64 = v % 2 ^ 64 % 64 := by omega
  unfold effBad goodEffect
  dsimp only
  rw [hlen, hrights, hkind, htop, hlow]
  generalize v % 2 ^ 64 = base
  generalize v / 2 ^ 64 % 2 ^ 32 = len
  generalize v / 2 ^ 96 % 2 ^ 8 = rights
  generalize v / 2 ^ 104 % 2 ^ 8 = kind
  generalize v / 2 ^ 112 % 2 ^ 16 = top
  by_cases hk : kind = 0
  · simp [hk]
    omega
  · simp [hk]
    omega

/-- What the frame keeps of a good entry is the entry. -/
theorem effKept_good {v : Nat} (hv : v < 2 ^ 128) (hgood : goodEffect v) (hlen : v / 2 ^ 64 % 2 ^ 32 ≠ 0) :
    effKept v = v := by
  obtain ⟨hl, hr, -, hk, -⟩ := effect_bits v
  obtain h0 | ⟨htop, h⟩ := hgood
  · exact absurd h0 hlen
  · unfold effKept
    dsimp only
    rw [hl, hr, hk]
    rcases h with ⟨hkind, hrights, hbase, -⟩ | ⟨hkind, hrights, hbase⟩
    · rw [hkind, if_pos (Nat.zero_le 1)]
      simp only [if_pos]
      omega
    · rw [hkind, if_pos (Nat.le_refl 1), hrights]
      simp only [Nat.one_ne_zero, if_false]
      omega

namespace Claim

theorem takeIsRequested : TakeIsRequested := by
  intro s f hup hin hstall hfl hgr hgu hcl hst
  refine congrArg s.stepDev (if_pos ?_)
  rcases hst with h | h <;> simp [hup, hin, hstall, hfl, hgr, hgu, hcl, h]

theorem takeIsGranted : TakeIsGranted := by
  intro s f t g x hw hup hgr hfl hgw hst hg hx given
  obtain ⟨hsome, hnone⟩ := Dev.grantTake_choice (d := s.toDev) hw hup hgr hfl hgw hst
  refine ⟨fun hoff hfit hmay hstall => ?_, fun hc => ?_, fun hc => congrArg s.stepDev (hnone hc)⟩
  · exact congrArg s.stepDev ((Dev.grantTake_asked hw hup hgr hfl hgw hst hg hx hoff hfit hmay hstall).trans
      (Dev.giveTake_eq hg hx))
  · have hg' : (s.toDev.chooseTake f).1.graph? t.graph = some g := by
      rw [Dev.graph?, Dev.chooseTake_graphs]
      exact hg
    exact congrArg s.stepDev ((hsome t hc).trans (Dev.giveTake_eq hg' hx))

theorem dispatchRefused : DispatchRefused := by
  intro s f t h d
  obtain ⟨hfr, hmkt⟩ := Dev.ledger_parts ({ s.toDev with mkt := { s.mkt with
    dispatchRefused := true, refusals := satAdd s.mkt.refusals } }) 0x07 0x03 {
      ctx := ((s.toDev.graph? t.graph).map (·.ctx.toNat)).getD 0xFFFF, unit := 1, index := f.val
      addr := ((s.toDev.task? t).map (·.va.toNat)).getD 0, aux0 := s.lnk.devId.toNat }
  have hmkt' : d.mkt = { s.mkt with dispatchRefused := true, refusals := satAdd s.mkt.refusals } := hmkt
  exact ⟨congrArg s.stepDev (Dev.grantTake_refused h), by rw [hmkt'], by rw [hmkt'], hfr, by rw [hmkt'], by rw [hmkt']⟩

theorem takeCompletes : TakeCompletes := by
  intro s f ref g t hgr hst htask hgu hg ht heff hkind
  have hgo := Dev.completeTake_task (d := s.toDev) hgr hst htask hgu hg ht hkind
  have hload (d : Dev) : d.loadEffects f g.ctx t = d := if_pos (by rw [heff])
  have hset : s.toDev.completeTake f = s.toDev.setFrame f (takenFrame (s.frame f) f g.ctx ref t s.ns) := by
    rw [hgo, hload, Dev.settle_quiet (by rw [Dev.frame_setFrame]; rfl) (by rw [Dev.frame_setFrame]; rfl),
      Dev.frame_setFrame, Dev.setFrame_setFrame]
    unfold takenFrame
    by_cases hp : (s.frame f).preempt = true
    · rw [if_pos (by rw [show (Frame.taken _ _ _ _ _ _).preempt = _ from hp]; rfl)]
      dsimp only
      rw [if_pos hp]
      rfl
    · rw [if_neg (by rw [show (Frame.taken _ _ _ _ _ _).preempt = (s.frame f).preempt from rfl]; simp [hp])]
      dsimp only
      rw [if_neg hp]
  refine ⟨_, congrArg s.stepDev hset, ?_⟩
  obtain ⟨h1, h2, h3, h4, h5, h6, h7⟩ := Frame.taken_cleared (s.frame f) f g.ctx ref t s.ns
  by_cases hp : (s.frame f).preempt = true
  · rw [show takenFrame (s.frame f) f g.ctx ref t s.ns = { (s.frame f).taken f g.ctx ref t s.ns with
      state := .saving, preempt := false } from if_pos hp]
    exact ⟨h1, h2, h3, h4, h5, h6, h7, (if_pos hp).symm, rfl, rfl, rfl, rfl, rfl, rfl, rfl, rfl, rfl, rfl, rfl, rfl,
      rfl, rfl, rfl, rfl, rfl, rfl⟩
  · rw [show takenFrame (s.frame f) f g.ctx ref t s.ns = (s.frame f).taken f g.ctx ref t s.ns from if_neg hp]
    exact ⟨h1, h2, h3, h4, h5, h6, h7, (if_neg hp).symm, Bool.not_eq_true _ ▸ hp, rfl, rfl, rfl, rfl, rfl, rfl, rfl,
      rfl,
      rfl, rfl, rfl, rfl, rfl, rfl, rfl, rfl, rfl⟩

end Claim

/-! An effect list is read and checked before the first instruction. -/

theorem zip_range_map {β : Type} (g : Nat → β) (k : Nat) :
    List.zip (List.range k) ((List.range k).map g) = (List.range k).map fun i => (i, g i) := by
  apply List.ext_getElem <;> simp

/-- A table filled from a list of values, index by index. -/
theorem foldl_setIfInBounds {n : Nat} {α β : Type} (g : Nat → β) (h : β → α) (v : Vector α n) (k i : Nat) (hi : i < n) :
    ((List.zip (List.range k) ((List.range k).map g)).foldl (fun (v : Vector α n) p => v.setIfInBounds p.1 (h p.2))
      v)[i]
      = if i < k then h (g i) else v[i] := by
  induction k with
  | zero => simp
  | succ k ih =>
    rw [zip_range_map, List.foldl_map] at ih ⊢
    rw [List.range_succ, List.foldl_append, List.foldl_cons, List.foldl_nil, Vector.getElem_setIfInBounds]
    by_cases hk : k = i
    · subst hk
      simp
    · rw [if_neg hk, ih]
      have : i < k + 1 ↔ i < k := by omega
      simp [this]

/-- The number that `n` bytes spell is below 256 to the `n`. -/
theorem unle_lt_pow (bs : List Byte) : unle bs < 2 ^ (8 * bs.length) := by
  induction bs with
  | nil => exact Nat.one_pos
  | cons b bs ih =>
    have hb := b.isLt
    rw [unle, List.length_cons, Nat.mul_add, Nat.pow_add]
    omega

/-- Entry `i` of the bytes of an effect list (R120). -/
def effEntry (bs : List Byte) (i : Nat) : Nat := unle ((bs.drop (16 * i)).take 16)

theorem effEntry_lt (bs : List Byte) (i : Nat) : effEntry bs i < 2 ^ 128 := by
  refine Nat.lt_of_lt_of_le (unle_lt_pow _) (Nat.pow_le_pow_right (by decide) ?_)
  rw [List.length_take]
  omega

/-- The effect table of `n` entries as the frame keeps it. -/
def effTable (bs : List Byte) (n : Nat) : Vector (BitVec 128) 16 :=
  (List.zip (List.range n) ((List.range n).map fun i => BitVec.ofNat 128 (effEntry bs i))).foldl
    (fun (v : Vector (BitVec 128) 16) p => v.setIfInBounds p.1 (BitVec.ofNat 128 (effKept p.2.toNat)))
      (Vector.replicate 16 0)

theorem effTable_get (bs : List Byte) (n : Nat) (i : Fin 16) :
    (effTable bs n)[i.val] = if i.val < n then BitVec.ofNat 128 (effKept (effEntry bs i.val)) else 0 := by
  have h := foldl_setIfInBounds (fun i => BitVec.ofNat 128 (effEntry bs i))
    (fun e => BitVec.ofNat 128 (effKept e.toNat)) (Vector.replicate 16 0) n i.val i.isLt
  rw [Vector.getElem_replicate, BitVec.toNat_ofNat, Nat.mod_eq_of_lt (effEntry_lt bs i.val)] at h
  exact h

/-- The list is checked entry by entry: the first malformed one stops the task (R120, R506). -/
theorem Dev.setEffects_eq {d : Dev} {f : FrameId} {addr n : Nat} {bs : List Byte} (hlen : bs.length = 16 * n) :
    let e := d.updFrame f fun fr => { fr with eff := effTable bs n }
    ((∀ i, i < n → goodEffect (effEntry bs i)) → d.setEffects f addr bs = e)
      ∧ (∀ k, k < n → ¬ goodEffect (effEntry bs k) → (∀ i, i < k → goodEffect (effEntry bs i)) →
        d.setEffects f addr bs = e.takeFault f 0x04 (addr + 16 * k)) := by
  intro e
  have hn : bs.length / 16 = n := by omega
  have hbad (i : Nat) : effBad (BitVec.ofNat 128 (effEntry bs i)).toNat = false ↔ goodEffect (effEntry bs i) := by
    rw [BitVec.toNat_ofNat, Nat.mod_eq_of_lt (effEntry_lt bs i), effBad_iff]
  have hgo : d.setEffects f addr bs = match ((List.range n).map fun i => BitVec.ofNat 128 (effEntry bs i)).findIdx?
      fun e => effBad e.toNat with
      | some i => e.takeFault f 0x04 (addr + 16 * i)
      | none => e := by
    unfold Dev.setEffects
    dsimp only
    rw [hn]
    rfl
  refine ⟨fun hall => hgo.trans ?_, fun k hk hbadk hfirst => hgo.trans ?_⟩
  · rw [List.findIdx?_eq_none_iff.mpr]
    intro x hx
    obtain ⟨i, hi, rfl⟩ := List.mem_map.mp hx
    exact (hbad i).mpr (hall i (List.mem_range.mp hi))
  · rw [List.findIdx?_eq_some_iff_getElem.mpr ⟨by simpa using hk, ?_, ?_⟩]
    · simp only [List.getElem_map, List.getElem_range]
      rw [← Bool.not_eq_false, hbad]
      exact hbadk
    · intro j hj
      simp only [List.getElem_map, List.getElem_range, Bool.not_eq_true]
      exact (hbad j).mpr (hfirst j hj)

theorem Dev.memFault_fr (d : Dev) (c : BitVec 12) (x : XErr) (a : Acc6) (unit frame : Nat) :
    (d.memFault c x a unit frame).fr = d.fr := by
  unfold Dev.memFault
  dsimp only
  split <;> rfl

/-- A list on this device that reads without poison is checked; one that does not translate stops the task (R506). -/
theorem Dev.loadEffects_near {d : Dev} {f : FrameId} {c : BitVec 12} {t : Task} (hn : 1 ≤ t.effN) :
    let r := d.range f.val c .read t.eff.toNat (16 * t.effN)
    (∀ ss, r.2 = .ok ss → (∀ x ∈ ss, x.remote = none ∧ d.mem.readPoison x.pa x.len = false) →
        d.loadEffects f c t = r.1.setEffects f t.eff.toNat (ss.flatMap fun x => d.mem.read x.pa x.len))
      ∧ (∀ x, r.2 = .error x →
        d.loadEffects f c t = (r.1.memFault c x .read 0 f.val).takeFault f 0x06 t.eff.toNat) := by
  intro r
  have hpos : ¬ 16 * t.effN = 0 := by omega
  obtain ⟨tl, n, honly⟩ := d.range_only f.val c .read t.eff.toNat (16 * t.effN)
  refine ⟨fun ss hr hss => (if_neg hpos).trans ?_, fun x hr => (if_neg hpos).trans ?_⟩
  · rw [show d.range f.val c .read t.eff.toNat (16 * t.effN) = (r.1, .ok ss) from Prod.ext rfl hr]
    have hremote : ¬ (ss.any (·.remote.isSome)) = true := by
      rw [List.any_eq_true]
      rintro ⟨x, hx, hrem⟩
      rw [(hss x hx).1] at hrem
      cases hrem
    have hpoison : ¬ (ss.any fun s => r.1.mem.readPoison s.pa s.len) = true := by
      rw [List.any_eq_true]
      rintro ⟨x, hx, hp⟩
      rw [show r.1 = _ from honly] at hp
      exact Bool.false_ne_true ((hss x hx).2.symm.trans hp)
    refine (if_neg hremote).trans ((if_neg hpoison).trans ?_)
    rw [show r.1 = _ from honly]
    rfl
  · rw [show d.range f.val c .read t.eff.toNat (16 * t.effN) = (r.1, .error x) from Prod.ext rfl hr]

/-- A frame at rest that a fault stops has nothing left to settle. -/
theorem Dev.settle_takeFault {d : Dev} {f : FrameId} (hq : (d.frame f).quiet = true) (hk : (d.frame f).killing = false)
    (code addr : Nat) : (d.takeFault f code addr).settle f = d.takeFault f code addr := by
  have hquiet : ((d.takeFault f code addr).frame f).quiet = true := by
    simp only [Frame.quiet, Bool.and_eq_true, List.isEmpty_iff] at hq
    obtain ⟨⟨⟨⟨⟨hm, hv⟩, ht⟩, hl⟩, hs⟩, hmv⟩ := hq
    simp [Dev.takeFault, Dev.updFrame, Frame.stopWith, Frame.halt, Frame.keepMma, Frame.quiet, hm, hv, ht, hl, hs]
    simpa using hmv
  have hkill : ((d.takeFault f code addr).frame f).killing = false := by
    simp only [Dev.takeFault, Dev.updFrame, Dev.frame_setFrame]
    exact hk
  have hstate : ((d.takeFault f code addr).frame f).state = .faulted := by
    simp only [Dev.takeFault, Dev.updFrame, Dev.frame_setFrame]
    rfl
  rw [Dev.settle_quiet hquiet hkill, if_neg]
  rw [hstate]
  simp

namespace Claim

theorem takeReadsEffects : TakeReadsEffects := by
  intro s f ref g t hgr hst htask hgu hpre hg ht hn hmax hkind d r stop
  have hgo := Dev.completeTake_task (d := s.toDev) hgr hst htask hgu hg ht (.inl hkind)
  obtain ⟨hok, herr⟩ := Dev.loadEffects_near (d := d) (f := f) (c := g.ctx) hn
  have hfr : r.1.frame f = (s.frame f).taken f g.ctx ref t s.ns :=
    ((d.range_only ..).frame f).trans (Dev.frame_setFrame _ _ _)
  have heff (v : Vector (BitVec 128) 16) : (r.1.updFrame f fun fr => { fr with eff := v }).frame f
      = { (s.frame f).taken f g.ctx ref t s.ns with eff := v } := by
    rw [Dev.updFrame, Dev.frame_setFrame, hfr]
  constructor
  · intro ss hr hss bs hlen ent
    have hload : d.loadEffects f g.ctx t = r.1.setEffects f t.eff.toNat bs := hok ss hr hss
    obtain ⟨hgood, hbad⟩ := Dev.setEffects_eq (d := r.1) (f := f) (addr := t.eff.toNat) hlen
    refine ⟨fun hall => ⟨effTable bs t.effN, fun i => ?_, ?_⟩, fun k hk hbadk hfirst => ⟨effTable bs t.effN, ?_⟩⟩
    · rw [effTable_get]
      by_cases hi : i.val < t.effN
      · rw [if_pos hi, if_pos hi, effKept_good (effEntry_lt _ _) (hall i.val hi).1 (hall i.val hi).2]
        rfl
      · rw [if_neg hi, if_neg hi]
    · refine congrArg s.stepDev (hgo.trans ?_)
      rw [hload, hgood fun i hi => (hall i hi).1, Dev.settle_quiet (by rw [heff]; rfl) (by rw [heff]; rfl), if_neg]
      rw [heff]
      exact fun h => Bool.false_ne_true (hpre.symm.trans (Bool.and_eq_true_iff.mp h).1)
    · refine congrArg s.stepDev (hgo.trans ?_)
      rw [hload, hbad k hk hbadk hfirst, Dev.settle_takeFault (by rw [heff]; rfl) (by rw [heff]; rfl)]
      rfl
  · intro x hr
    have hmem : (r.1.memFault g.ctx x .read 0 f.val).frame f = (s.frame f).taken f g.ctx ref t s.ns := by
      rw [← hfr]
      simp only [Dev.frame, Dev.memFault_fr]
    refine congrArg s.stepDev (hgo.trans ?_)
    rw [herr x hr, Dev.settle_takeFault (by rw [hmem]; rfl) (by rw [hmem]; rfl)]
    rfl

end Claim
end Sys2Proof.Machine

/-- Settles O39: a take is given by `Dev.giveTake_eq`, completes by `Dev.completeTake_task`, and its effect list is
checked by
`Dev.setEffects_eq`. -/
theorem takes : Obligations.Takes :=
  ⟨Claim.takeIsRequested, Claim.takeIsGranted, Claim.dispatchRefused, Claim.takeCompletes, Claim.takeReadsEffects⟩

end


/-! ### Guard runs, verdicts and flagged frames (R22–R25, R422–R426, R430) -/

section
open Sys2Proof Sys2Proof.Machine Sys2Proof.Machine.Claim

namespace Sys2Proof.Machine

/-! Guard buffer space and guard runs. -/

/-- Space in the guard buffer goes to the first instruction of the queue that waits for it. -/
theorem Dev.bufferFreed_first {d : Dev} {f : FrameId} {i : Nat} {j : MmaJob} (hj : (d.frame f).mmaQ[i]? = some j)
    (hw : j.bufHold = true) (hfirst : ∀ k e, k < i → (d.frame f).mmaQ[k]? = some e → e.bufHold = false) :
    d.bufferFreed f = if j.streaming then (d.nextTile f i j).1 else (d.beginStream f i j).pumpMma f 8 := by
  obtain ⟨hi, hji⟩ := List.getElem?_eq_some_iff.mp hj
  have hfind : (d.frame f).mmaQ.findIdx? (·.bufHold) = some i := by
    rw [List.findIdx?_eq_some_iff_getElem]
    refine ⟨hi, by rw [hji]; exact hw, fun k hk => ?_⟩
    rw [hfirst k _ hk (List.getElem?_eq_getElem (hk.trans hi))]
    exact Bool.false_ne_true
  unfold Dev.bufferFreed
  dsimp only
  rw [hfind]
  dsimp only
  rw [hj]

/-- The verdict finds the device with the run's frame free again and its cycles charged to the sampled context. -/
def Dev.guardRan (d : Dev) (f : FrameId) (id : Nat) (t : GTile) : Dev :=
  let cyc := cyclesAt d.ns - cyclesAt (d.frame f).cycles
  (d.updFrame f fun fr => { fr with guardRun := none, guardWork := fr.guardWork.filter (· != id) }).updCtx t.ctx
    fun c => { c with frameCycles := c.frameCycles + BitVec.ofNat 64 cyc, deficit := c.deficit - cyc }

theorem Dev.guardDone_found {d : Dev} {f : FrameId} {fault : Word} {id : Nat} {t : GTile}
    (hrun : (d.frame f).guardRun = some id) (ht : d.grd.tiles.find? (·.id == id) = some t) :
    d.guardDone f fault = ((d.guardRan f id t).verdict id (t.mirror.tally t.pfx ^^^ fault)).resumeGraphs := by
  have hd (e : Dev) (he : e.grd = d.grd) : e.guardTallyOf id fault = t.mirror.tally t.pfx ^^^ fault := by
    rw [Dev.guardTallyOf, he, ht]
    rfl
  unfold Dev.guardDone
  dsimp only
  rw [hrun]
  dsimp only
  rw [Dev.setFrame_grd, ht]
  dsimp only
  exact congrArg (fun w => ((d.guardRan f id t).verdict id w).resumeGraphs) (hd (d.guardRan f id t) rfl)

/-- The first run's tally is the frame's own, or it calls for a referee. -/
theorem Dev.verdict_guard {d : Dev} {id : Nat} {t : GTile} {own tally : Word} (ht : d.grd.tiles.find? (·.id == id) =
    some t)
    (hown : t.tally = some own) (hg : t.guardTally = none) :
    d.verdict id tally = if own = tally then (d.tilePassed t.frame).dropTile id
      else (d.updTile id fun t => { t with guardTally := some tally }).assignReferee id := by
  unfold Dev.verdict
  rw [ht]
  dsimp only
  rw [hg, hown]
  rfl

/-- The referee's tally agrees with the frame's own, or with the guard's. -/
theorem Dev.verdict_referee {d : Dev} {id : Nat} {t : GTile} {own tally g : Word} {gf : FrameId}
    (ht : d.grd.tiles.find? (·.id == id) = some t) (hown : t.tally = some own) (hg : t.guardTally = some g)
    (hgf : t.guard = some gf) :
    (tally = own → d.verdict id tally
        = (((({ d with grd := { d.grd with mismatch := satAdd d.grd.mismatch } } : Dev).flagFrame gf).guardRecord 0x02 t
          tally).dropTile id))
      ∧ (tally = g → g ≠ own → d.verdict id tally
        = (((({ d with grd := { d.grd with mismatch := satAdd d.grd.mismatch } } : Dev).flagFrame t.frame).taintCtx
          t.ctx).guardRecord 0x01 t tally).dropTile id) := by
  unfold Dev.verdict
  rw [ht]
  dsimp only
  rw [hg, hown, hgf]
  dsimp only [Option.getD_some]
  exact ⟨fun h => if_pos h, fun h hne => (if_neg (h.trans_ne hne)).trans (if_pos h)⟩

/-! The end of a guard wait. -/

/-- A record of the ledger leaves the waits of commit points alone. -/
theorem Dev.ledger_waits (d : Dev) (cls code : Nat) (x : LedF) : (d.ledger cls code x).grd.waits = d.grd.waits := by
  have hirq (e : Dev) : (e.irq 2).grd = e.grd := by
    unfold Dev.irq Dev.msix
    split <;> rfl
  unfold Dev.ledger
  split
  · rfl
  · dsimp only
    split
    · rfl
    · rw [hirq]
      rfl

/-- The tile of an expired wait, counted, recorded and marked. -/
def Dev.tileUnverified (d : Dev) (id : Nat) (t : GTile) : Dev :=
  (({ d with grd := { d.grd with unverified := satAdd d.grd.unverified } } : Dev).guardRecord 0x04 t).updTile id
    fun t => { t with unver := true }

theorem Dev.tileUnverified_waits (d : Dev) (id : Nat) (t : GTile) : (d.tileUnverified id t).grd.waits = d.grd.waits :=
  Dev.ledger_waits ..

/-- A context's oldest wait for one tile ends, and no other wait changes. -/
theorem Dev.guardExpire_one {d : Dev} {c : BitVec 12} {id : Nat} {t : GTile} {w : Held430} {ws : List Held430}
    (hws : d.grd.waits = w :: ws) (hc : w.ctx = c) (hb : w.begun = true) (hid : w.tiles = [id])
    (hne : ∀ v ∈ ws, v.ctx = c → v.what ≠ w.what) (ht : (d.grd.tiles.find? fun t => t.id == id && !t.unver) = some t) :
    d.guardExpire c = ({ d.tileUnverified id t with
      grd := { (d.tileUnverified id t).grd with waits := { w with tiles := [] } :: ws } } : Dev).resumeGraphs := by
  have hold : d.oldestWait c = some w := by
    rw [Dev.oldestWait, hws]
    refine List.find?_cons_of_pos ?_
    rw [hb, hid, beq_iff_eq.mpr hc]
    rfl
  have hmap : ((w :: ws).map fun v => if (v.what == w.what && v.ctx == c) = true then { v with tiles := [] } else v)
      = { w with tiles := [] } :: ws := by
    rw [List.map_cons, if_pos (by rw [beq_self_eq_true, beq_iff_eq.mpr hc]; rfl)]
    refine congrArg _ ((List.map_congr_left fun v hv => if_neg fun h => ?_).trans (List.map_id ws))
    obtain ⟨hwhat, hctx⟩ := Bool.and_eq_true_iff.mp h
    exact hne v hv (beq_iff_eq.mp hctx) (beq_iff_eq.mp hwhat)
  have hone : w.tiles.foldl (fun d id => match d.grd.tiles.find? fun t => t.id == id && !t.unver with
      | none => d
      | some t => d.tileUnverified id t) d = d.tileUnverified id t := by
    rw [hid, List.foldl_cons, List.foldl_nil, ht]
  unfold Dev.guardExpire
  rw [hold]
  dsimp only
  refine Eq.trans (b := ({ d.tileUnverified id t with grd := { (d.tileUnverified id t).grd with
    waits := (d.tileUnverified id t).grd.waits.map fun v =>
      if (v.what == w.what && v.ctx == c) = true then { v with tiles := [] } else v } } : Dev).resumeGraphs) ?_ ?_
  · exact congrArg (fun e : Dev => ({ e with grd := { e.grd with waits := e.grd.waits.map fun v =>
      if (v.what == w.what && v.ctx == c) = true then { v with tiles := [] } else v } } : Dev).resumeGraphs) hone
  · rw [Dev.tileUnverified_waits, hws, hmap]

/-! Flagged frames. -/

/-- The record of a frame that has left service. -/
def Frame.outOf (fr : Frame) (cause : Nat) (gen : BitVec 31) : Frame := { fr with
  state := .outOfService, stallV := false, wantTake := false
  geom := { fr.geom with rows := 0, colgrp := 0, byp := 0, spares := 0, fillAdj := 0 }
  svc := { fr.svc with insvc := false, cause := BitVec.ofNat 4 cause, atGen := gen } }

/-- A frame without guard work leaves service: only its own record changes, and the generation moves once. -/
theorem Dev.leaveService_idle {d : Dev} {f : FrameId} {cause : Nat} (hw : (d.frame f).guardWork = []) :
    (d.leaveService [(f, cause)]).fr = (d.setFrame f ((d.frame f).outOf cause (d.insvc.gen + 1))).fr
      ∧ (d.leaveService [(f, cause)]).insvc.gen = d.insvc.gen + 1 := by
  refine ⟨?_, (Dev.leaveService_one d f cause).2.2.1⟩
  let e := ({ d with insvc := { d.insvc with gen := d.insvc.gen + 1 } } : Dev).setFrame f
    ((d.frame f).outOf cause (d.insvc.gen + 1))
  have hew : (e.frame f).guardWork = [] := by
    rw [Dev.frame_setFrame]
    exact hw
  have hmove : e.moveGuardWork f = e := by
    unfold Dev.moveGuardWork
    rw [hew]
    refine Dev.updFrame_of_eq ?_
    generalize e.frame f = x at hew
    cases x
    exact hew ▸ rfl
  refine (show (d.leaveService [(f, cause)]).fr = (e.moveGuardWork f).fr from
    (Dev.ledger_parts (e.moveGuardWork f) 0x04 0x01 _).1).trans ?_
  rw [hmove]
  rfl

namespace Claim

theorem guardRunsStart : GuardRunsStart := by
  intro s f
  refine ⟨fun i j hj hw hfirst => ⟨fun hs => ?_, fun hs => ?_⟩, fun id ids hids hup hin hst ht hg hr hcl => ?_⟩
  · exact congrArg s.stepDev ((Dev.bufferFreed_first hj hw hfirst).trans
    (if_neg (by rw [hs]; exact Bool.false_ne_true)))
  · exact congrArg s.stepDev ((Dev.bufferFreed_first hj hw hfirst).trans (if_pos hs))
  · refine congrArg s.stepDev (show s.toDev.guardTake f = _ from ?_)
    have hfree : (s.frame f).free = true := by rw [Frame.free, hst, ht, hg, hr]; rfl
    unfold Dev.guardTake
    dsimp only
    rw [hids]
    dsimp only
    rw [show s.toDev.up = true from hup, hin, hfree, hcl]
    refine (if_pos rfl).trans ?_
    rw [← hids]
    rfl

theorem guardVerdicts : GuardVerdicts := by
  intro s f fault own id t hrun ht hown tally cyc d out
  have hdone (r : Dev) (h : d.verdict id tally = r) : exec (.guardRunComplete f fault) s = .next (out r) :=
    congrArg s.stepDev ((Dev.guardDone_found hrun ht).trans (congrArg Dev.resumeGraphs h))
  have hd : d.grd.tiles.find? (·.id == id) = some t := ht
  clear_value d tally out
  refine ⟨fun hg h => hdone _ ?_, fun hg h => hdone _ ?_, fun g gf hg hne hgf => ?_⟩
  · exact (Dev.verdict_guard hd hown hg).trans (if_pos h.symm)
  · exact (Dev.verdict_guard hd hown hg).trans (if_neg (Ne.symm h))
  · obtain ⟨hsame, hguard⟩ := Dev.verdict_referee (tally := tally) hd hown hg hgf
    exact ⟨fun h => hdone _ (hsame h), fun h => hdone _ (hguard h hne)⟩

theorem guardWaitExpires : GuardWaitExpires := by
  intro s c id t w ws hws hc hb hid hne ht d e
  exact congrArg s.stepDev (Dev.guardExpire_one hws hc hb hid hne ht)

theorem flaggedFrameLeaves : FlaggedFrameLeaves := by
  intro s f hup hfl hin hst ht hg hr hw
  have hfree : (s.frame f).free = true := by rw [Frame.free, hst, ht, hg, hr]; rfl
  have hgo : s.toDev.removeFlagged f = s.toDev.leaveService [(f, 0x2)] := by
    refine if_pos ?_
    rw [show s.toDev.up = true from hup, hfl, hin, hfree]
    rfl
  obtain ⟨hfr, hgen⟩ := Dev.leaveService_idle (cause := 0x2) hw
  refine ⟨_, congrArg s.stepDev hgo, hgen, ?_, fun g hne => ?_⟩
  · unfold Dev.frame
    rw [hfr]
    exact Dev.frame_setFrame ..
  · unfold Dev.frame
    rw [hfr]
    exact Dev.frame_setFrame_ne _ f g _ (Ne.symm hne)

end Claim
end Sys2Proof.Machine

/-- Settles O38: a guard run and its verdict, the end of a guard wait and the leaving of a flagged frame, each by its
lemma. -/
theorem guardWork : Obligations.GuardWork :=
  ⟨guardRunsStart, guardVerdicts, guardWaitExpires, flaggedFrameLeaves⟩

end


/-! ### Completion in the vector unit (R150, R152, R165–R177) -/

section
open Sys2Proof Sys2Proof.Machine Sys2Proof.Machine.Claim

namespace Sys2Proof.Machine

/-- A frame that is neither killed nor asked to stop keeps its state however quiet it is. -/
theorem Dev.settle_running {d : Dev} {f : FrameId} (hk : (d.frame f).killing = false) (hp : (d.frame f).preempt =
    false) :
    d.settle f = d := by
  unfold Dev.settle
  dsimp only
  rw [hk, hp]
  split <;> rfl

/-- The oldest vector instruction ends where its scales translate. -/
theorem Dev.completeVec_ok {d : Dev} {f : FrameId} {j : VecJob} {js : List VecJob} {sv : ScaleViews}
    (hq : (d.frame f).vecQ = j :: js) (hv : (d.scaleViews f j).2 = .ok sv) :
    d.completeVec f = (d.scaleViews f j).1.finishVec f j sv := by
  unfold Dev.completeVec
  rw [hq]
  dsimp only
  rw [show d.scaleViews f j = ((d.scaleViews f j).1, .ok sv) from Prod.ext rfl hv]

/-- VCMP of poisoned operands writes nothing and kills its context. -/
theorem Dev.finishVec_kill {d : Dev} {f : FrameId} {j : VecJob} {js : List VecJob} {sv : ScaleViews}
    (hq : (d.frame f).vecQ = j :: js) (hop : j.op = .vcmp) (hpsn : vecPoison j d.mem (lsView f) sv = true) :
    d.finishVec f j sv
      = (d.updFrame f fun fr => { fr with vecQ := js }).kill (d.frame f).ctx 6 j.a.base { frame := some f } := by
  unfold Dev.finishVec
  dsimp only
  refine (if_pos (by rw [hpsn, hop, beq_self_eq_true]; rfl)).trans ?_
  rw [hq]
  rfl

/-- Any other instruction writes its results, its predicate where it is VCMP, its flags and its poison. -/
theorem Dev.finishVec_write {d : Dev} {f : FrameId} {j : VecJob} {js : List VecJob} {sv : ScaleViews}
    (hq : (d.frame f).vecQ = j :: js) (hpsn : j.op = .vcmp → vecPoison j d.mem (lsView f) sv = false) :
    let psn := vecPoison j d.mem (lsView f) sv
    let o := vecResult j d.mem (lsView f) sv ((d.frame f).regs.getK j.x.dst)
    d.finishVec f j sv = ({ d with mem := d.mem.applyBuf o.buf psn } : Dev).updFrame f fun fr => { fr with
      vecQ := js, fmtFlags := fr.fmtFlags ||| o.fl
      regs := if j.op = Op.vcmp then fr.regs.setK j.x.dst o.k else fr.regs
      poison := fr.poison || (psn && !o.buf.isEmpty) } := by
  intro psn o
  have hno : (j.op == .vcmp && vecPoison j d.mem (lsView f) sv) = false := by
    by_cases hop : j.op = .vcmp
    · rw [hpsn hop, Bool.and_false]
    · rw [beq_eq_false_iff_ne.mpr hop, Bool.false_and]
  unfold Dev.finishVec
  dsimp only
  refine (if_neg (by rw [hno]; exact Bool.false_ne_true)).trans ?_
  rw [hq]
  rw [show (if (j.op == .vcmp) = true then (d.frame f).regs.setK j.x.dst o.k else (d.frame f).regs)
    = if j.op = .vcmp then (d.frame f).regs.setK j.x.dst o.k else (d.frame f).regs from if_congr beq_iff_eq rfl rfl]
  rfl

end Sys2Proof.Machine

/-- Settles O7: the two ways in which the oldest instruction ends, and a frame that runs does not move on by it. -/
theorem vectorCompletes : Obligations.VectorCompletes := by
  intro s f j js sv hq hv hkill hpre v d' psn o
  have hfr : d'.frame f = s.frame f := (s.toDev.scaleViews_only f j).frame f
  have hq' : (d'.frame f).vecQ = j :: js := by rw [hfr, hq]
  refine ⟨fun hno => ?_, fun hop hyes => ?_⟩
  · refine congrArg s.stepDev ((congrArg (Dev.settle · f) ((Dev.completeVec_ok hq hv).trans
      (Dev.finishVec_write hq' hno))).trans ?_)
    rw [hfr]
    refine Dev.settle_running ?_ ?_
    · rw [Dev.frame_updFrame]
      exact (congrArg Frame.killing hfr).trans hkill
    · rw [Dev.frame_updFrame]
      exact (congrArg Frame.preempt hfr).trans hpre
  · refine congrArg s.stepDev (congrArg (Dev.settle · f) ((Dev.completeVec_ok hq hv).trans
      ((Dev.finishVec_kill hq' hop hyes).trans ?_)))
    rw [hfr]

end


/-! ### Weight planes and the end of a matrix instruction (R66–R68, R85, R162, R163, R418, R422) -/

section
open Sys2Proof Sys2Proof.Machine Sys2Proof.Machine.Claim

namespace Sys2Proof.Machine

/-! Weight planes. -/

/-- The rows in flight are of another shape. -/
def Array.meetsOther (arr : Array) (j : MmaJob) : Bool :=
  arr.shape.isSome && arr.shape != some j.shape && rowsLive arr

theorem Array.meetsOther_false {arr : Array} {j : MmaJob}
    (h : arr.shape = none ∨ arr.shape = some j.shape ∨ arr.rows = []) : arr.meetsOther j = false := by
  unfold Array.meetsOther rowsLive
  rcases h with h | h | h
  · rw [h]
    rfl
  · rw [h, bne_self_eq_false, Bool.and_false, Bool.false_and]
  · rw [h]
    exact Bool.and_false _

theorem Array.meetsOther_true {arr : Array} {j : MmaJob} {sh : Shape} (h : arr.shape = some sh) (hne : sh ≠ j.shape)
    (hr : arr.rows ≠ []) : arr.meetsOther j = true := by
  unfold Array.meetsOther rowsLive
  rw [h, bne_iff_ne.mpr (mt Option.some.inj hne), List.isEmpty_eq_false_iff.mpr hr]
  rfl

section
variable {d : Dev} {f : FrameId} {i : Nat} {j : MmaJob}

/-- The bus loads a plane of the instruction that is next. -/
theorem Dev.loadPlane_next (hn : nextPlane (d.frame f).mmaQ = some i) (hj : (d.frame f).mmaQ[i]? = some j) :
    d.loadPlane f = if (d.frame f).arr.meetsOther j = true then d.shapeFault f j
      else if j.loaded + 1 < j.planes then d.updMma f i fun j => { j with loaded := j.loaded + 1 }
      else match j.wgt with
        | none => d
        | some t => match d.readWeights f j t with
          | (d, none) => d
          | (d, some (cells, scales, fl)) =>
            let d := d.updFrame f fun fr => { (fr.raiseFlags fl) with
              arr := { fr.arr with
                shadow := cells.foldl (fun m c => SMap.put m c.1 c.2)
                  (fr.arr.shadow.filter fun c => !groupCells j.shape j.group c.1)
                next := setWeights fr.arr.next j.shape j.group (some {
                  shape := j.shape, fmt := j.wfmt, signed := j.wsigned, half := j.half
                  n := j.n, k := j.k, scaled := t.scaled, scales := scales }) } }
            (d.updMma f i fun j => { j with loaded := j.planes }).pumpMma f 8 := by
  unfold Dev.loadPlane
  dsimp only
  rw [hn]
  dsimp only
  rw [hj] <;> rfl

end

/-! The later tiles of an instruction. -/

/-- What the rest of a matrix instruction's streaming asks of the device: its queue, and no new samples. -/
def Dev.SameStream (f : FrameId) (d e : Dev) : Prop :=
  (e.frame f).mmaQ = (d.frame f).mmaQ ∧ e.grd.enable = d.grd.enable

theorem Dev.SameStream.refl (f : FrameId) (d : Dev) : Dev.SameStream f d d := ⟨rfl, rfl⟩

theorem Dev.SameStream.trans {f : FrameId} {a b c : Dev} (h : Dev.SameStream f a b) (k : Dev.SameStream f b c) :
    Dev.SameStream f a c :=
  ⟨k.1.trans h.1, k.2.trans h.2⟩

/-- An update of some frame that keeps its matrix queue. -/
theorem Dev.updFrame_stream (d : Dev) (f g : FrameId) {u : Frame → Frame} (h : ∀ fr, (u fr).mmaQ = fr.mmaQ) :
    Dev.SameStream f d (d.updFrame g u) := by
  refine ⟨?_, rfl⟩
  by_cases hg : g = f
  · rw [hg, Dev.frame_updFrame]
    exact h _
  · rw [Dev.frame_updFrame_ne d g f u hg]

/-- A record of the ledger leaves the rate and the switch of sampling alone. -/
theorem Dev.ledger_enable (d : Dev) (cls code : Nat) (x : LedF) : (d.ledger cls code x).grd.enable = d.grd.enable := by
  have hirq (e : Dev) : (e.irq 2).grd = e.grd := by
    unfold Dev.irq Dev.msix
    split <;> rfl
  unfold Dev.ledger
  split
  · rfl
  · dsimp only
    split
    · rfl
    · rw [hirq]
      rfl

theorem Dev.unverified_stream (d : Dev) (f : FrameId) (t : GTile) : Dev.SameStream f d (d.unverified t) := by
  let e : Dev := { d with grd := { d.grd with unverified := satAdd d.grd.unverified } }
  have h : Dev.SameStream f e (e.guardRecord 0x04 t) :=
    ⟨by unfold Dev.frame Dev.guardRecord; rw [(Dev.ledger_parts ..).1], Dev.ledger_enable ..⟩
  exact h

theorem Dev.assignGuard_stream (d : Dev) (f : FrameId) (id : Nat) : Dev.SameStream f d (d.assignGuard id) := by
  unfold Dev.assignGuard
  split
  · exact .refl f d
  · split
    · exact .refl f d
    · split
      · exact d.unverified_stream f _
      · exact Dev.updFrame_stream (d.updTile id _) f _ fun _ => rfl

/-- The end of a tile changes no matrix queue. -/
theorem Dev.endTile_stream (d : Dev) (f : FrameId) (j : MmaJob) (dv : DrainViews) :
    Dev.SameStream f d (d.endTile f j dv) := by
  unfold Dev.endTile
  split
  · exact .refl f d
  · dsimp only
    unfold Dev.closeTile
    split
    · exact .refl f d
    · exact Dev.assignGuard_stream ((d.updTile _ _).updTile _ _) f _

/-- With sampling off, the next tile starts at once, and its instruction waits for nothing. -/
theorem Dev.nextTile_off {d : Dev} {f : FrameId} {i : Nat} {j e : MmaJob} (hoff : d.grd.enable = false)
    (hd : j.drawn = false) (hj : (d.frame f).mmaQ[i]? = some e) :
    (d.nextTile f i j).2 = true ∧ (d.nextTile f i j).1.grd.enable = false
      ∧ ∃ k, ((d.nextTile f i j).1.frame f).mmaQ[i]? = some k ∧ k.bufHold = false := by
  have hdraw : d.drawTile f j = ((d.drawOne f).1, false, false) := by
    unfold Dev.drawTile
    rw [hd, show d.drawOne f = ((d.drawOne f).1, false) from Prod.ext rfl (by unfold Dev.drawOne; rw [hoff]; rfl)]
    rfl
  have hq : ((d.drawOne f).1.frame f).mmaQ = (d.frame f).mmaQ := (congrArg Frame.mmaQ (Dev.frame_setFrame ..)).trans rfl
  have hnext : d.nextTile f i j = ((d.drawOne f).1.updMma f i fun _ =>
      { j with drawn := true, hit := false, bufHold := false, guardRec := none }, true) := by
    unfold Dev.nextTile
    rw [hdraw]
    rfl
  rw [hnext]
  refine ⟨rfl, hoff, { j with drawn := true, hit := false, bufHold := false, guardRec := none }, ?_, rfl⟩
  unfold Dev.updMma
  rw [Dev.frame_updFrame]
  dsimp only
  rw [hq, List.getElem?_modify_eq, hj]
  rfl

/-- With sampling off, every tile of an instruction streams. -/
theorem Dev.streamTiles_off {f : FrameId} {i : Nat} {dv : DrainViews} (n : Nat) {d : Dev} {j : MmaJob}
    (hoff : d.grd.enable = false) (hj : (d.frame f).mmaQ[i]? = some j) (hb : j.bufHold = false) :
    (d.streamTiles f i dv n).2 = true := by
  induction n generalizing d j with
  | zero => rfl
  | succ n ih =>
    obtain ⟨hq, hen⟩ := d.endTile_stream f j dv
    obtain ⟨htrue, hoff', k, hk, hkb⟩ := Dev.nextTile_off (d := d.endTile f j dv) (f := f) (i := i)
      (j := { j with tile := j.tile + 1, drawn := false, hit := false, guardRec := none }) (hen.trans hoff) rfl
      (hq ▸ hj)
    unfold Dev.streamTiles
    rw [hj]
    dsimp only
    refine (congrArg Prod.snd (if_neg (by rw [hb]; exact Bool.false_ne_true))).trans ?_
    split
    · rfl
    · rw [show (d.endTile f j dv).nextTile f i { j with tile := j.tile + 1, drawn := false, hit := false, guardRec :=
      none }
        = (_, true) from Prod.ext rfl htrue]
      exact ih hoff' hk hkb

/-! The end of an instruction. -/

theorem Dev.drainViews_only (d : Dev) (f : FrameId) (j : MmaJob) : d.OnlyTlbs (d.drainViews f j).1 := by
  have opt : ∀ (d : Dev) (s : List Span) (a : Acc6),
      d.OnlyTlbs (match s with | x :: _ => d.view f x a | [] => (d, .ok (lsView f))).1 := by
    intro d s a
    cases s with
    | nil => exact .refl d
    | cons x _ => exact d.view_only f x a
  unfold Dev.drainViews
  dsimp only
  split <;> exact (((opt _ _ _).trans (opt _ _ _)).trans (opt _ _ _)).trans (opt _ _ _)

/-- The oldest streaming instruction of a group. -/
theorem Frame.streamingMma_first {fr : Frame} {g i : Nat} {j : MmaJob} (hj : fr.mmaQ[i]? = some j)
    (hs : j.streaming = true) (hg : j.group = g)
    (hfirst : ∀ k e, k < i → fr.mmaQ[k]? = some e → e.streaming = false ∨ e.group ≠ g) :
    fr.streamingMma g = some (i, j) := by
  obtain ⟨hi, hji⟩ := List.getElem?_eq_some_iff.mp hj
  have hfind : (fr.mmaQ.findIdx? fun j => j.streaming && j.group == g) = some i := by
    rw [List.findIdx?_eq_some_iff_getElem]
    refine ⟨hi, by rw [hji, hs, hg, beq_self_eq_true]; rfl, fun k hk => ?_⟩
    rcases hfirst k _ hk (List.getElem?_eq_getElem (hk.trans hi)) with h | h
    · rw [h]
      exact Bool.false_ne_true
    · rw [beq_eq_false_iff_ne.mpr h, Bool.and_false]
      exact Bool.false_ne_true
  rw [Frame.streamingMma, hfind, Option.bind_some, hj]
  rfl

/-- Errors in lines that are not read change nothing. -/
theorem Dev.demandRead_of_notMem {d : Dev} {lines : List Nat} {errs : LineErrs} (h : ∀ e ∈ errs, e.1 ∉ lines) :
    d.demandRead lines errs = d := by
  have hnone : errs.filter (fun e => lines.contains e.1) = [] :=
    List.filter_eq_nil_iff.mpr fun e he hc => h e he (List.contains_iff_mem.mp hc)
  rw [Dev.demandRead, hnone]
  rfl

theorem Dev.completeMma_of_views {d : Dev} {m : MmaEnd} {i : Nat} {j : MmaJob} {dv : DrainViews}
    (hs : (d.frame m.frame).streamingMma m.group.val = some (i, j)) (hv : (d.drainViews m.frame j).2 = .ok dv) :
    d.completeMma m = match (d.drainViews m.frame j).1.streamTiles m.frame i dv (ceilDiv j.m 512 + 1) with
      | (d, false) => d
      | (d, true) =>
        let d := if m.errs.isEmpty then d else d.demandRead (d.mmaLines m.frame j dv) m.errs
        (((d.updFrame m.frame fun fr => fr.countHolds m.feed m.drain).finishMma m.frame i j dv).settle
          m.frame).resumeGraphs := by
  unfold Dev.completeMma
  dsimp only
  rw [hs]
  dsimp only
  rw [show d.drainViews m.frame j = ((d.drainViews m.frame j).1, .ok dv) from Prod.ext rfl hv] <;> rfl

namespace Claim

theorem weightPlanes : WeightPlanes := by
  intro s f i j t hn hj ht a w
  have hload := Dev.loadPlane_next (d := s.toDev) hn hj
  refine ⟨fun hshape => ⟨fun hlt => ?_, fun cells scales fl hlast hw => ?_⟩, fun sh hsh hne hr => ?_⟩
  · refine congrArg s.stepDev (hload.trans ?_)
    rw [show (s.frame f).arr.meetsOther j = false from Array.meetsOther_false hshape, if_neg Bool.false_ne_true]
    exact if_pos hlt
  · refine congrArg s.stepDev (hload.trans ?_)
    rw [show (s.frame f).arr.meetsOther j = false from Array.meetsOther_false hshape, if_neg Bool.false_ne_true,
      if_neg (by omega), ht]
    dsimp only
    rw [show s.toDev.readWeights f j t = (w.1, some (cells, scales, fl)) from Prod.ext rfl hw]
    dsimp only
    unfold Dev.updMma
    rw [Dev.updFrame_updFrame]
    rfl
  · exact congrArg s.stepDev (hload.trans (if_pos (Array.meetsOther_true hsh hne hr)))

theorem matrixCompletes : MatrixCompletes := by
  intro s m i j dv f hj hs hg hfirst views hv tiles
  have hgo := Dev.completeMma_of_views (d := s.toDev) (Frame.streamingMma_first hj hs hg hfirst) hv
  refine ⟨fun hall herr => congrArg s.stepDev (hgo.trans ?_), fun hno => congrArg s.stepDev (hgo.trans ?_),
    fun hoff hb => ?_⟩
  · rw [show (s.toDev.drainViews m.frame j).1.streamTiles m.frame i dv (ceilDiv j.m 512 + 1) = (tiles.1, true)
      from Prod.ext rfl hall]
    dsimp only
    rw [Dev.demandRead_of_notMem herr, ite_self]
    rfl
  · rw [show (s.toDev.drainViews m.frame j).1.streamTiles m.frame i dv (ceilDiv j.m 512 + 1) = (tiles.1, false)
      from Prod.ext rfl hno]
  · have honly := s.toDev.drainViews_only m.frame j
    refine Dev.streamTiles_off _ ?_ (j := j) ?_ hb
    · obtain ⟨tlbs, fresh, h⟩ := honly
      rw [h]
      exact hoff
    · rw [honly.frame]
      exact hj

end Claim
end Sys2Proof.Machine

/-- Settles O35: the planes of an instruction, and its end once its tiles have streamed. -/
theorem matrixProgress : Obligations.MatrixProgress := ⟨weightPlanes, matrixCompletes⟩

end


/-! ### Moves (R41, R127–R130, R181) -/

section
open Sys2Proof Sys2Proof.Machine Sys2Proof.Machine.Claim

namespace Sys2Proof.Machine

/-! The checks of an instruction, in their order. -/

theorem Check.then_ok {c : Check} {k : Unit → Check} (hc : c = .ok) (hk : k () = .ok) : c.then_ k = .ok := by
  rw [hc]
  exact hk

theorem need_ok {b : Bool} {code : Nat} (h : b = true) : need b code = .ok := if_pos h

theorem checkLs_ok {ss : List Span} (h : lsRange ss = none) : checkLs ss = .ok := by
  rw [checkLs, h]

theorem checkEff_ok {fr : Frame} {ss : List (Right × Span)} (h : ∀ p ∈ ss, fr.spanEffect p.1 p.2 = none) :
    checkEff fr ss = .ok := by
  rw [checkEff, List.findSome?_eq_none_iff.mpr h]

/-! The bytes of a line between tensors of one format in the local store. -/

/-- A move's line of bytes as its destination gets them. -/
def Dev.copiedBytes (d : Dev) (f : FrameId) (src dst : Tensor) (ps : List (Nat × Nat)) : List MByte :=
  ps.map fun p => {
    addr := dst.rowAddr p.1 + p.2, mask := dst.byteMask p.2
    v := if src.fmt = .f40 ∧ 5 ≤ p.2 % 8 then 0 else d.mem.byte (lsAddr f (src.rowAddr p.1 + p.2))
    psn := d.mem.poisonedAt (lsAddr f (src.rowAddr p.1 + p.2)) }

theorem moveByte_same {src dst : Tensor} (h : src.fmt = dst.fmt) (g sg : Nat → Byte × Bool) (r o : Nat) :
    moveByte src dst g sg r o = {
      addr := dst.rowAddr r + o, mask := dst.byteMask o
      v := if src.fmt = .f40 ∧ 5 ≤ o % 8 then 0 else (g (src.rowAddr r + o)).1
      psn := (g (src.rowAddr r + o)).2 } := by
  have hv : (if (src.fmt == .f40 && decide (5 ≤ o % 8)) = true then 0 else (g (src.rowAddr r + o)).1)
      = if src.fmt = .f40 ∧ 5 ≤ o % 8 then 0 else (g (src.rowAddr r + o)).1 :=
    if_congr (by rw [Bool.and_eq_true, beq_iff_eq, decide_eq_true_iff]) rfl rfl
  unfold moveByte
  dsimp only
  rw [if_pos (beq_iff_eq.mpr h), hv]

theorem Dev.viewOf_local {d : Dev} {f : FrameId} {space : Bool} (h : space = false) (as_ : List Nat) (a : Acc6) :
    d.viewOf f space as_ a = (d, .ok (lsView f)) := by
  rw [h]
  rfl

section
variable {d : Dev} {f : FrameId} {m : Move} {src dst : Tensor}

/-- A line of a local move of one format needs nothing from elsewhere. -/
theorem Dev.lineData_local (hs : m.src = .tensor src) (hd : m.dst = .tensor dst) (hfmt : src.fmt = dst.fmt)
    (hspace : src.space = false) (hscale : src.scaleSpace = false) (ps : List (Nat × Nat)) (host : List Byte)
      (hp : Bool) :
    d.lineData f m ps host hp = (d, .bytes (d.copiedBytes f src dst ps)) := by
  have hsrc : m.srcT = src := by
    rw [Move.srcT, hs]
    rfl
  have hdst : m.dstT = dst := by
    rw [Move.dstT, hd]
    rfl
  have hnear (l : List Nat) : l.filter (fun a => ((lsView f).remote a).isSome) = [] :=
    List.filter_eq_nil_iff.mpr fun _ _ => Bool.false_ne_true
  unfold Dev.lineData
  dsimp only
  rw [hs, hsrc, hdst]
  dsimp only
  rw [Dev.viewOf_local hspace]
  dsimp only
  rw [Dev.viewOf_local hscale]
  dsimp only
  rw [hnear, hnear]
  refine congrArg (fun bs => (d, LineData.bytes bs)) (List.map_congr_left fun p _ => ?_)
  exact moveByte_same hfmt _ _ p.1 p.2

/-- Which lines a local move reads does not hang on the device's state. -/
theorem Dev.linesRead_local (e : Dev) (hs : m.src = .tensor src) (hd : m.dst = .tensor dst) (hspace : src.space = false)
    (hdspace : dst.space = false) (hscale : src.scaleSpace = false) (ps : List (Nat × Nat)) :
    e.linesRead f m ps = d.linesRead f m ps := by
  have hsrc : m.srcT = src := by
    rw [Move.srcT, hs]
    rfl
  have hdst : m.dstT = dst := by
    rw [Move.dstT, hd]
    rfl
  unfold Dev.linesRead
  dsimp only
  rw [hsrc, hdst, hspace, hdspace, hscale]
  rfl

/-- A line of a local move that may land, with no error among the lines it reads. -/
theorem Dev.landLine_local {i line : Nat} {host : List Byte} {hp : Bool} {pieces : List Piece} {errs : LineErrs}
    (hm : (d.frame f).moves[i]? = some m) (hs : m.src = .tensor src) (hd : m.dst = .tensor dst)
    (hfmt : src.fmt = dst.fmt) (hspace : src.space = false) (hdspace : dst.space = false)
    (hscale : src.scaleSpace = false) (hl : dst.lines[line]? = some pieces)
    (hmay : (d.frame f).mayLand i line ((lineBytes pieces).map fun p => dst.rowAddr p.1 + p.2) = true)
    (herr : ∀ e ∈ errs, e.1 ∉ d.linesRead f m (lineBytes pieces)) :
    d.landLine f i line host hp errs = (d.updFrame f fun fr => fr.beginChunk i line).putLine f i line m (lsView f)
      (d.copiedBytes f src dst (lineBytes pieces)) := by
  have hdst : m.dstT = dst := by
    rw [Move.dstT, hd]
    rfl
  have hhost : m.src.isHost = false := by
    rw [hs]
    rfl
  have hgo : (!(d.frame f).mayLand i line ((lineBytes pieces).map fun p => dst.rowAddr p.1 + p.2)
      || m.src.isHost && host.length != (lineBytes pieces).length) = false := by
    rw [hmay, hhost]
    rfl
  have hnear (l : List Nat) : l.any (fun a => ((lsView f).remote a).isSome) = false :=
    List.any_eq_false.mpr fun _ _ => Bool.false_ne_true
  have hread : (d.updFrame f fun fr => fr.beginChunk i line).demandRead
      ((d.updFrame f fun fr => fr.beginChunk i line).linesRead f m (lineBytes pieces)) errs
      = d.updFrame f fun fr => fr.beginChunk i line := by
    refine Dev.demandRead_of_notMem ?_
    rw [Dev.linesRead_local (d := d) _ hs hd hspace hdspace hscale]
    exact herr
  unfold Dev.landLine
  dsimp only
  rw [hm]
  dsimp only
  rw [hdst, hl]
  dsimp only
  rw [hgo, if_neg Bool.false_ne_true, hread, ite_self, hd]
  dsimp only
  rw [Dev.viewOf_local hdspace]
  dsimp only
  rw [Dev.lineData_local hs hd hfmt hspace hscale]
  dsimp only
  rw [hnear, if_neg Bool.false_ne_true]
  rfl

/-- The last acknowledgement of a move that is no COPY raises its counter. -/
theorem Dev.ackMove_last {i : Nat} (hm : (d.frame f).moves[i]? = some m) (hack : m.acked = false)
    (hfront : m.front = m.lines) (hcopy : m.copy = false) :
    d.ackMove f i = d.setFrame f { d.frame f with
      moves := ((d.frame f).moves.modify i fun m => { m with acked := true }).filter (!·.over)
      regs := { (d.frame f).regs with mc := (d.frame f).regs.mc.set m.mc.val ((d.frame f).regs.mc[m.mc.val] + 1) }
        } := by
  unfold Dev.ackMove Dev.updFrame
  dsimp only
  rw [hm]
  dsimp only
  rw [hack, hfront, bne_self_eq_false, Bool.or_false, if_neg Bool.false_ne_true, hcopy, if_neg Bool.false_ne_true]

end

namespace Claim

theorem moveIssues : MoveIssues := by
  intro s f x hb hc hdst ha hmod hready fr dR aR t a same scales ac mc hdok haok hdk hak he0 he1 he2 he3 hwide hls hwr
    hrd
    hac hmc hroom hfree
  have hsame : (descField dR.desc 0x30 1 == descField aR.desc 0x30 1) = same := Bool.beq_eq_decide_eq _ _
  have hscales : (if (!same && a.scaled) = true then a.scaleSpan false else []) = scales :=
    if_congr (by rw [Bool.and_eq_true, Bool.not_eq_true']) rfl rfl
  have hlegal : movBody.legal x = true := by
    refine Bool.and_eq_true_iff.mpr ⟨?_, decide_eq_true hmod⟩
    simp [fieldsOk, regOk, rT, hb, hc, hdst, ha]
  have hfmt : (dR.known && aR.known && (same || (widens a.fmt t.fmt && !t.scaled && (!a.scaled || a.fmt.scalable)))) =
    true := by
    rw [hdk, hak]
    cases hs : same with
    | true => rfl
    | false =>
      obtain ⟨hw, hts, hsc⟩ := hwide hs
      rw [hw, hts]
      cases has : a.scaled with
      | false => rfl
      | true => rw [hsc has]; rfl
  have hact : movBody.act s.toDev f x 0 = .next (s.toDev.updFrame f fun fr => { fr with
      moves := fr.moves ++ [{
        word := insnWord .mov x, src := .tensor a, dst := .tensor t, ac := ac, mc := mc
        tch := if x.mod.getLsbD 7 then some ⟨x.mod.toNat / 256 % 64, Nat.mod_lt _ (by decide)⟩ else none
        lines := t.lines.length, stamp := (s.frame f).stamp }]
      stamp := fr.stamp + 1 }) := by
    show movIssue s.toDev f x = _
    unfold movIssue
    dsimp only
    rw [hsame, hscales]
    have hext : (a.e0 == t.e0 && a.e1 == t.e1 && a.e2 == t.e2 && a.e3 == t.e3) = true := by
      rw [he0, he1, he2, he3]
      simp only [beq_self_eq_true, Bool.and_self]
    have heff : checkEff fr ((Right.w, t.span true) :: (Right.r, a.span false) :: scales.map (Right.r, ·)) = .ok := by
      refine checkEff_ok fun p hp => ?_
      rcases List.mem_cons.mp hp with rfl | hp
      · exact hwr
      · obtain ⟨q, hq, rfl⟩ := List.mem_map.mp (show p ∈ (a.span false :: scales).map (Right.r, ·) from hp)
        exact hrd q hq
    have hcount : (decide (fr.regs.ac[ac.val].toNat + fr.acPending ac + t.lines.length < 2 ^ 32)
        && decide (fr.regs.mc[mc.val].toNat + fr.mcPending mc + 1 < 2 ^ 32)) = true := by
      rw [decide_eq_true hac, decide_eq_true hmc]
      rfl
    have hgo : ¬ (64 ≤ (fr.moves.filter (!·.acked)).length || fr.overlaps ([a.span false, t.span true] ++ scales)) =
      true := by
      rw [hfree, decide_eq_false (by omega)]
      exact Bool.false_ne_true
    rw [show (need (dR.ok (!same) && aR.ok (!same)) 0x03
      |>.then_ fun _ => need (a.e0 == t.e0 && a.e1 == t.e1 && a.e2 == t.e2 && a.e3 == t.e3) 0x03
      |>.then_ fun _ => need (dR.known && aR.known
          && (same || (widens a.fmt t.fmt && !t.scaled && (!a.scaled || a.fmt.scalable)))) 0x02
      |>.then_ fun _ => checkLs ([a.span false, t.span true] ++ scales)
      |>.then_ fun _ => checkEff fr ((Right.w, t.span true) :: (Right.r, a.span false) :: scales.map (Right.r, ·))
      |>.then_ fun _ => need (decide (fr.regs.ac[ac.val].toNat + fr.acPending ac + t.lines.length < 2 ^ 32)
          && decide (fr.regs.mc[mc.val].toNat + fr.mcPending mc + 1 < 2 ^ 32)) 0x09) = .ok from
      Check.then_ok (need_ok (Bool.and_eq_true_iff.mpr ⟨hdok, haok⟩)) (Check.then_ok (need_ok hext)
        (Check.then_ok (need_ok hfmt) (Check.then_ok (checkLs_ok hls) (Check.then_ok heff (need_ok hcount)))))]
    exact if_neg hgo
  exact Ready.issue_upd hready rfl hlegal hact

theorem moveLineLands : MoveLineLands := by
  intro s f i line host hp m src dst pieces errs hm hs hd hfmt hspace hdspace hscale hl bs hmay herr
  have haddr : bs.map (·.addr) = (lineBytes pieces).map fun p => dst.rowAddr p.1 + p.2 := List.map_map
  rw [haddr] at hmay
  exact congrArg (fun d : Dev => s.stepDev (d.pumpTally f 16))
    (Dev.landLine_local hm hs hd hfmt hspace hdspace hscale hl hmay herr)

theorem moveAcknowledged : MoveAcknowledged := by
  intro s f i m hkill hpre hm hack hfront hcopy hty
  refine congrArg s.stepDev (?_ : ((s.toDev.ackMove f i).pumpTally f 16).settle f = _)
  have hlast := Dev.ackMove_last (d := s.toDev) hm hack hfront hcopy
  have hempty : ((s.toDev.ackMove f i).frame f).tyQ = [] := by
    rw [hlast, Dev.frame_setFrame]
    exact hty
  rw [Dev.pumpTally_of_tyQ_nil 16 hempty, hlast,
    Dev.settle_running (by rw [Dev.frame_setFrame]; exact hkill) (by rw [Dev.frame_setFrame]; exact hpre)]
  rfl

end Claim
end Sys2Proof.Machine

/-- Settles O34: MOV's issue, a line of a local move, and the last acknowledgement. -/
theorem moves : Obligations.Moves := ⟨moveIssues, moveLineLands, moveAcknowledged⟩

end


/-! ### Issue in the vector unit (R105, R141, R165–R177) -/

section
open Sys2Proof Sys2Proof.Machine Sys2Proof.Machine.Claim

namespace Sys2Proof.Machine

/-- A vector or convert instruction whose checks pass joins the queue. Its operands are named by the t registers they
come
from: no destination for VCMP, and SRCB and SRCC where the operation has them. -/
theorem vecIssue_next {op : Op} {d : Dev} {f : FrameId} {x : Insn} {dR bR cR : Option TReg} {sb : Word}
    {own scales : List Span} {t b c : Tensor} (hd : (if op == .vcmp then none else some ((d.frame f).regs.getT x.dst)) =
      dR)
    (hb : (if Op.hasB op then some ((d.frame f).regs.getT x.b) else none) = bR)
    (hc : (if Op.hasC op then some ((d.frame f).regs.getT x.c) else none) = cR)
    (hsb : (if op == .cvtg then (d.frame f).regs.getS x.b else 0) = sb) :
    let fr := d.frame f
    let aR := fr.regs.getT x.a
    let a := aR.shape
    let rs := dR.toList ++ [aR] ++ bR.toList ++ cR.toList
    let sc (t : Tensor) (w : Bool) : List Span := if op == .cvt || op == .cvtx then t.scaleSpan w else []
    (dR.map (·.shape)).getD a = t → (bR.map (·.shape)).getD a = b → (cR.map (·.shape)).getD a = c →
    [a.span false] ++ (bR.map fun _ => [b.span false]).getD [] ++ (if op == .vfma then [c.span false] else [])
      ++ ((dR.map fun _ => [t.span true]).getD [] ++ (if vecWritesThird op then [c.span true] else [])) = own →
    sc a false ++ (dR.map fun _ => sc t true).getD [] = scales →
    sb.toNat < 256 → (∀ r ∈ rs, r.ok = true ∧ r.known = true ∧ r.shape.space = false) →
    vecExtents op t a b c (cR.getD aR) = true → vecFormats op x t a b c = true → lsRange (own ++ scales) = none →
    (d.allOwnComb f (scales.map fun s => (s, if s.write then .write else .read))).2 = true →
    (∀ p ∈ scales, fr.spanEffect (if p.write then .w else .r) p = none) → fr.vecQ.length < 8 →
    fr.overlaps (own ++ scales) = false →
    vecIssue op d f x = .next ((d.allOwnComb f (scales.map fun s => (s, if s.write then .write else .read))).1.updFrame
      f
      fun fr => { fr with vecQ := fr.vecQ ++ [{
        word := insnWord op x, op := op, x := x, dst := dR.map (·.shape), a := a, b := bR.map (·.shape)
        c := cR.map (·.shape), sb := sb
        pred := if Op.converts op then BitVec.allOnes 256
          else (d.frame f).regs.getK ((x.mod.extractLsb' 0 3).setWidth 6)
        sel := if op == .vsel then (d.frame f).regs.getK x.c else 0 }] }) := by
  intro fr aR a rs sc ht hbt hct hown hscales hsmall hregs hext hfmt hls hcomb heff hroom hfree
  have hok : (rs.all fun r => r.ok && !r.shape.space) = true := by
    refine List.all_eq_true.mpr fun r hr => ?_
    obtain ⟨h1, -, h3⟩ := hregs r hr
    rw [h1, h3]
    rfl
  have hknown : (rs.all (·.known) && vecFormats op x t a b c) = true := by
    rw [hfmt, Bool.and_true]
    exact List.all_eq_true.mpr fun r hr => (hregs r hr).2.1
  have heffs : checkEff fr (scales.map fun s => (if s.write then Right.w else Right.r, s)) = .ok := by
    refine checkEff_ok fun p hp => ?_
    obtain ⟨q, hq, rfl⟩ := List.mem_map.mp hp
    exact heff q hq
  have hgo : ¬ (8 ≤ fr.vecQ.length || fr.overlaps (own ++ scales)) = true := by
    rw [hfree, decide_eq_false (by omega)]
    exact Bool.false_ne_true
  unfold vecIssue
  dsimp only
  rw [hd, hb, hc, hsb, ht, hbt, hct, hscales, hown]
  rw [show (need (decide (sb.toNat < 256)) 0x01
    |>.then_ fun _ => need (rs.all fun r => r.ok && !r.shape.space) 0x03
    |>.then_ fun _ => need (vecExtents op t a b c ((cR.getD aR))) 0x03
    |>.then_ fun _ => need (rs.all (·.known) && vecFormats op x t a b c) 0x02
    |>.then_ fun _ => checkLs (own ++ scales)) = .ok from
    Check.then_ok (need_ok (decide_eq_true hsmall)) (Check.then_ok (need_ok hok) (Check.then_ok (need_ok hext)
      (Check.then_ok (need_ok hknown) (checkLs_ok hls))))]
  dsimp only
  rw [show d.allOwnComb f (scales.map fun s => (s, if s.write then Acc6.write else Acc6.read)) = (_, true) from
    Prod.ext rfl hcomb]
  dsimp only
  rw [heffs]
  exact if_neg hgo

/-- The command of a vector or convert instruction is its coming to issue in the vector unit. -/
theorem exec_vec {op : Op} (hop : op ∈ vecOps) (f : FrameId) (x : Insn) (s : State) :
    exec (insnCommand f op x 0) s = s.stepDev (s.toDev.issue f op x 0 (vecBody op)) := by
  unfold vecOps at hop
  fin_cases hop <;> rfl

/-- Its t registers, each with its operand. -/
theorem vecRegs_map (op : Op) (x : Insn) (r : Regs) :
    (if op = .vcmp then none else some (r.getT x.dst)).toList ++ [r.getT x.a]
      ++ (if Op.hasB op then some (r.getT x.b) else none).toList
      ++ (if Op.hasC op then some (r.getT x.c) else none).toList = (vecRegs op x).map r.getT := by
  unfold vecRegs
  rw [List.map_append, List.map_append, List.map_append]
  refine congr (congrArg _ (congr (congrArg _ (congr (congrArg _ ?_) rfl)) ?_)) ?_ <;> split <;> rfl

theorem twoWord_vec {op : Op} (hop : op ∈ vecOps) : Op.twoWord op = false := by
  unfold vecOps at hop
  fin_cases hop <;> rfl

theorem vecWritesThird_hasC {op : Op} (h : vecWritesThird op = true) : Op.hasC op = true := by
  revert h
  cases op <;> decide

section
variable (op : Op) (x : Insn) (r : Regs)

/-- The operands that the registers name, where the operation has them, and SRCA where not. -/
def vecT : Tensor := if op = .vcmp then (r.getT x.a).shape else (r.getT x.dst).shape
def vecB : Tensor := if Op.hasB op then (r.getT x.b).shape else (r.getT x.a).shape
def vecC : Tensor := if Op.hasC op then (r.getT x.c).shape else (r.getT x.a).shape

/-- The operands in local store. -/
theorem vecSpans_own :
    [(r.getT x.a).shape.span false]
      ++ ((if Op.hasB op then some (r.getT x.b) else none).map fun _ => [(vecB op x r).span false]).getD []
      ++ (if op == .vfma then [(vecC op x r).span false] else [])
      ++ (((if op = .vcmp then none else some (r.getT x.dst)).map fun _ => [(vecT op x r).span true]).getD []
        ++ (if vecWritesThird op then [(vecC op x r).span true] else [])) = (vecSpans op x r).1 := by
  have hB : ((if Op.hasB op then some (r.getT x.b) else none).map fun _ => [(vecB op x r).span false]).getD []
      = if Op.hasB op then [(r.getT x.b).shape.span false] else [] := by
    unfold vecB
    split <;> rfl
  have hC : (if op == .vfma then [(vecC op x r).span false] else [])
      = if op = .vfma then [(r.getT x.c).shape.span false] else [] := by
    by_cases h : op = .vfma
    · rw [if_pos h, if_pos (beq_iff_eq.mpr h), vecC, h]
      rfl
    · rw [if_neg h, if_neg (mt beq_iff_eq.mp h)]
  have hD : ((if op = .vcmp then none else some (r.getT x.dst)).map fun _ => [(vecT op x r).span true]).getD []
      = if op = .vcmp then [] else [(r.getT x.dst).shape.span true] := by
    unfold vecT
    split <;> rfl
  have hE : (if vecWritesThird op then [(vecC op x r).span true] else [])
      = if vecWritesThird op then [(r.getT x.c).shape.span true] else [] := by
    by_cases h : vecWritesThird op = true
    · rw [if_pos h, if_pos h, vecC, if_pos (vecWritesThird_hasC h)]
    · rw [if_neg h, if_neg h]
  rw [hB, hC, hD, hE, ← List.append_assoc]
  rfl

/-- The scale arrays of a conversion, and none of any other operation. -/
theorem vecSpans_scales :
    (if op == .cvt || op == .cvtx then (r.getT x.a).shape.scaleSpan false else [])
      ++ ((if op = .vcmp then none else some (r.getT x.dst)).map fun _ =>
        if op == .cvt || op == .cvtx then (vecT op x r).scaleSpan true else []).getD [] = (vecSpans op x r).2 := by
  have hcv : (op == .cvt || op == .cvtx) = true ↔ op = .cvt ∨ op = .cvtx := by
    rw [Bool.or_eq_true, beq_iff_eq, beq_iff_eq]
  unfold vecSpans vecT
  dsimp only
  by_cases h : op = .cvt ∨ op = .cvtx
  · have hv : op ≠ .vcmp := by rcases h with rfl | rfl <;> decide
    rw [if_pos h, if_pos (hcv.mpr h), if_neg hv, if_neg hv, if_pos (hcv.mpr h)]
    rfl
  · rw [if_neg h, if_neg (mt hcv.mp h), if_neg (mt hcv.mp h)]
    split <;> rfl

end

end Sys2Proof.Machine

/-- Settles O6: what `vecIssue_next` asks of the operands, read off the registers the statement names. -/
theorem vectorIssues : Obligations.VectorIssues := by
  intro s f op x hop hlegal hready r sh a t b c spans hcvtg hregs hext hfmt hls comb hcomb heff hroom hfree
  have hvcmp {α : Type} (u v : α) : (if op == .vcmp then u else v) = if op = .vcmp then u else v :=
    if_congr beq_iff_eq rfl rfl
  have hsb : (if op == .cvtg then r.getS x.b else 0) = if op = .cvtg then r.getS x.b else 0 :=
    if_congr beq_iff_eq rfl rfl
  have hsel : (if op == .vsel then r.getK x.c else 0) = if op = .vsel then r.getK x.c else 0 :=
    if_congr beq_iff_eq rfl rfl
  have hsmall : (if op = .cvtg then r.getS x.b else 0).toNat < 256 := by
    split
    next h => exact hcvtg h
    · decide
  have hact := vecIssue_next (d := s.toDev) (x := x) (hvcmp none (some (r.getT x.dst))) rfl rfl hsb
    (own := spans.1) (scales := spans.2) (t := t) (b := b) (c := c)
    (by dsimp only [t]; split <;> rfl) (by dsimp only [b]; split <;> rfl) (by dsimp only [c]; split <;> rfl)
    (vecSpans_own op x r) (vecSpans_scales op x r) hsmall
    (by rw [vecRegs_map]; intro q hq; obtain ⟨i, hi, rfl⟩ := List.mem_map.mp hq; exact hregs i hi)
    (by refine Eq.trans (congrArg _ ?_) hext; split <;> rfl) hfmt hls hcomb heff hroom hfree
  rw [exec_vec hop]
  refine (Ready.issue_upd hready (twoWord_vec hop) hlegal hact).trans ?_
  have hdst : (if op = .vcmp then none else some (r.getT x.dst)).map (·.shape) = if op = .vcmp then none else some
    t := by
    dsimp only [t]
    split <;> rfl
  have hsrcB : (if Op.hasB op then some (r.getT x.b) else none).map (·.shape) = if Op.hasB op then some b else
    none := by
    dsimp only [b]
    split <;> rfl
  have hsrcC : (if Op.hasC op then some (r.getT x.c) else none).map (·.shape) = if Op.hasC op then some c else
    none := by
    dsimp only [c]
    split <;> rfl
  rw [← hdst, ← hsrcB, ← hsrcC, ← hsel]

end


/-! ### Issue in the matrix unit (R68, R105, R107, R141, R155–R161) -/

section
open Sys2Proof Sys2Proof.Machine Sys2Proof.Machine.Claim

namespace Sys2Proof.Machine

/-! What a matrix instruction names. -/

section
variable (fr : Frame) (x : Insn) (w : Kept)

/-- Its operands. -/
def mmaDst : Tensor := (fr.regs.getT x.dst).shape
def mmaAct : Tensor := (fr.regs.getT x.a).shape
def mmaWgt : Tensor := (fr.regs.getT x.b).shape
def mmaThird : Tensor := (fr.regs.getT x.c).shape

/-- The instruction writes the indices of row winners (R78). -/
def mmaIdx : Bool := (mmaMod x).final && ((mmaMod x).mode == 4 || (mmaMod x).mode == 5)

/-- DST is read before it is written (R77, R78). -/
def mmaReadsDst : Bool := (mmaMod x).final && ((mmaMod x).mode == 1 || (mmaMod x).merge)

def mmaScaled : Bool := (mmaAct fr x).scaled || w.scaled
def mmaHalf : Bool := (mmaAct fr x).fmt.half && w.fmt.half
def mmaInt : Bool := (mmaAct fr x).fmt.isInt && w.fmt.isInt && !mmaScaled fr x w

/-- What it reads: activations, and weights without KEEP. -/
def mmaIns : List Span :=
  (mmaAct fr x).spans false ++ if (mmaMod x).keep then [] else (mmaWgt fr x).spans false

def mmaOuts : List Span := if (mmaMod x).final then [(mmaDst fr x).span true] else []

def mmaThirds : List Span :=
  if usesThird (mmaMod x) then (if mmaIdx x then [(mmaThird fr x).span true] else (mmaThird fr x).spans false) else []

/-- Each operand with its access. -/
def mmaAccesses : List (Span × Acc6) :=
  (mmaIns fr x).map (·, Acc6.read)
    ++ (mmaOuts fr x).map (·, if mmaReadsDst x then Acc6.readWrite else Acc6.write)
    ++ (mmaThirds fr x).map
      (·, if mmaIdx x then (if (mmaMod x).merge then Acc6.readWrite else Acc6.write) else Acc6.read)

/-- The job that joins the queue. -/
def mmaJob (sh : Shape) (op : Op) : MmaJob :=
  let m := mmaMod x
  let a := mmaAct fr x
  { word := insnWord op x, shape := sh, group := m.group, mode := BitVec.ofNat 3 m.mode, start := m.start
    final := m.final, fast := m.fast, merge := m.merge, keep := m.keep, cbase := m.cbase, k := w.k, m := a.e1
    n := w.n, act := a, wgt := if m.keep then none else some (mmaWgt fr x), wfmt := w.fmt, wsigned := w.signed
    dst := mmaDst fr x, third := if usesThird m then some (mmaThird fr x) else none, int := mmaInt fr x w
    planes := if m.keep then 0 else w.fmt.limbs }

/-- What the issue notes in the array: the types of the rows, and the weights its group is given. -/
def mmaArray (sh : Shape) (arr : Array) : Array :=
  let m := mmaMod x
  let a := mmaAct fr x
  { arr with
    issued := if m.final then freeRows sh (mmaHalf fr x w) m.group a.e1 arr.issued
      else typeEntries sh (mmaHalf fr x w) m.group a.e1 w.n (if mmaInt fr x w then 2 else 1) arr.issued
    loadedBy := if m.keep then arr.loadedBy else setWeights arr.loadedBy sh m.group (some w) }

/-- The frame once the job has joined its queue. -/
def mmaJoined (sh : Shape) (op : Op) (y : Frame) : Frame :=
  { y with mmaQ := y.mmaQ ++ [mmaJob fr x w sh op], arr := mmaArray fr x w sh y.arr }

/-- Its descriptors, extents and formats pass (R115, R117, R155–R161). -/
structure MmaFits (sh : Shape) : Prop where
  keep : (mmaMod x).keep = true → w.half = mmaHalf fr x w
  dst : operandOk (fr.regs.getT x.dst) none false = true
  act : operandOk (fr.regs.getT x.a) (some false) true = true
  wgt : (mmaMod x).keep = false → operandOk (fr.regs.getT x.b) (some true) false = true
    ∧ (fr.regs.getT x.b).known = true ∧ (mmaWgt fr x).fmt.arrayOperand = true
    ∧ ((mmaWgt fr x).scaled = true → (mmaWgt fr x).fmt.scalable = true)
  kept : (mmaMod x).keep = true → w.fmt.arrayOperand = true
  third : usesThird (mmaMod x) = true → operandOk (fr.regs.getT x.c) none false = true ∧ (fr.regs.getT x.c).known = true
    ∧ (mmaThird fr x).e1 = (mmaAct fr x).e1 ∧ (mmaThird fr x).fmt ≠ .x8 ∧ (mmaThird fr x).fmt ≠ .g32
    ∧ ((mmaThird fr x).scaled = true → (mmaThird fr x).fmt.scalable = true ∧ (mmaDst fr x).fmt.isInt = false)
    ∧ if mmaIdx x then (mmaThird fr x).e0 = 1 ∧ (mmaThird fr x).fmt = .q32 ∧ (mmaThird fr x).signed = false
        ∧ (mmaThird fr x).scaled = false
      else (mmaThird fr x).e0 = w.n
  rows : (mmaAct fr x).e0 = w.k
  outRows : (mmaDst fr x).e1 = (mmaAct fr x).e1
  outCols : (mmaDst fr x).e0 = if mmaIdx x then 1 else w.n
  dstKnown : (fr.regs.getT x.dst).known = true
  actKnown : (fr.regs.getT x.a).known = true
  actFmt : (mmaAct fr x).fmt.arrayOperand = true
  actScale : (mmaAct fr x).scaled = true → (mmaAct fr x).fmt.scalable = true
  notX8 : (mmaDst fr x).fmt ≠ .x8
  notG32 : (mmaDst fr x).fmt ≠ .g32
  dstScale : (mmaDst fr x).scaled = false
  floatDst : mmaScaled fr x w = true → (mmaDst fr x).fmt.isInt = false
  typed : (mmaMod x).start = true ∨ (mmaAct fr x).e1 ≤ sh.maxRows (mmaHalf fr x w)
    ∧ ∀ r col, r < (mmaAct fr x).e1 → col < w.n →
      fr.arr.issued.get? (accIdx sh (mmaHalf fr x w) (mmaMod x).group r col) = some (if mmaInt fr x w then 2 else 1)

/-- Its shape, its ranges and effects pass, and the queue has room for it (R105, R107, R121, R124, R141). -/
structure MmaPasses (sh : Shape) : Prop where
  depth : w.k ≤ sh.groupRows
  width : w.n ≤ (if mmaHalf fr x w then 16 else 8) * fr.geom.colgrp
  height : (mmaMod x).final = true ∨ (mmaAct fr x).e1 ≤ sh.maxRows (mmaHalf fr x w)
  range : lsRange (mmaIns fr x ++ mmaOuts fr x ++ mmaThirds fr x) = none
  reads : ∀ p ∈ mmaIns fr x, fr.spanEffect .r p = none
  writes : ∀ p ∈ mmaOuts fr x, fr.spanEffect .w p = none
  adds : mmaReadsDst x = true → ∀ p ∈ mmaOuts fr x, fr.spanEffect .r p = none
  thirds : ∀ p ∈ mmaThirds fr x, (mmaIdx x = true → fr.spanEffect .w p = none)
    ∧ (mmaIdx x = false ∨ (mmaMod x).merge = true → fr.spanEffect .r p = none)
  room : fr.mmaQ.length < 4
  free : fr.overlaps (mmaIns fr x ++ mmaOuts fr x ++ mmaThirds fr x) = false

end

/-- The weights of an instruction, as its issue reads them: of SRCB, or with KEEP of the group. -/
theorem weightsOf_reads {sh : Shape} {fr : Frame} {x : Insn} {w : Kept}
    (hw : weightsOf sh (mmaMod x) fr (mmaAct fr x) (mmaWgt fr x) = some w) :
    let keep := (mmaMod x).keep
    let kept := getWeights fr.arr.loadedBy sh (mmaMod x).group
    let bX := if keep then none else some (mmaWgt fr x)
    (if keep then (kept.map (·.k)).getD 0 else (bX.map (·.e1)).getD 0) = w.k
      ∧ (if keep then (kept.map (·.n)).getD 0 else (bX.map (·.e0)).getD 0) = w.n
      ∧ (if keep then kept.map (·.fmt) else bX.map (·.fmt)) = some w.fmt
      ∧ (if keep then (kept.map (·.scaled)).getD false else (bX.map (·.scaled)).getD false) = w.scaled
      ∧ (if keep then (kept.map (·.signed)).getD false else (bX.map (·.signed)).getD false) = w.signed
      ∧ (keep = true → kept = some w)
      ∧ (keep = false → w.fmt = (mmaWgt fr x).fmt ∧ some w = some {
        shape := sh, fmt := w.fmt, signed := w.signed, half := mmaHalf fr x w, n := w.n, k := w.k, scaled := w.scaled
        scales := [] }) := by
  intro keep kept bX
  cases hk : keep with
  | true =>
    have hkept : kept = some w := (if_pos hk).symm.trans hw
    rw [hkept]
    exact ⟨rfl, rfl, rfl, rfl, rfl, fun _ => rfl, fun h => absurd h Bool.noConfusion⟩
  | false =>
    have hno : ¬ keep = true := by
      rw [hk]
      exact Bool.false_ne_true
    obtain rfl : _ = w := Option.some.inj ((if_neg hno).symm.trans hw)
    have hb : bX = some (mmaWgt fr x) := if_neg hno
    rw [hb]
    exact ⟨rfl, rfl, rfl, rfl, rfl, fun h => absurd h Bool.noConfusion, fun _ => ⟨rfl, rfl⟩⟩

/-! The frame on which it issues. -/

/-- Looking for operands in the own comb store changes the TLBs only. -/
theorem Dev.inOwnComb_only (d : Dev) (f : FrameId) (s : Span) (a : Acc6) : d.OnlyTlbs (d.inOwnComb f s a).1 := by
  unfold Dev.inOwnComb
  split
  · exact .refl d
  · extract_lets one
    have hone (d : Dev) (va : Nat) : d.OnlyTlbs (one d va).1 := by
      have h := d.xlate_only f.val (d.frame f).ctx va a
      dsimp only [one]
      split <;> simp_all only []
    clear_value one
    exact (hone d _).trans (hone _ _)

theorem Dev.allOwnComb_only (d : Dev) (f : FrameId) (l : List (Span × Acc6)) : d.OnlyTlbs (d.allOwnComb f l).1 := by
  induction l generalizing d with
  | nil => exact .refl d
  | cons p l ih =>
    unfold Dev.allOwnComb
    dsimp only
    split
    · exact (d.inOwnComb_only f p.1 p.2).trans (ih _)
    · exact d.inOwnComb_only f p.1 p.2

/-- A trace record changes no frame. -/
theorem Dev.trace_frame (d : Dev) (point index ctx a0 a1 : Nat) (f : FrameId) :
    (d.trace point index ctx a0 a1).frame f = d.frame f := by
  obtain ⟨m, y, h⟩ := d.trace_shape point index ctx a0 a1
  rw [h]
  rfl

/-- Two updates that agree on the frame as it is. -/
theorem Dev.updFrame_congr {d : Dev} {f : FrameId} {g h : Frame → Frame} {y : Frame} (hy : d.frame f = y)
    (heq : g y = h y) : d.updFrame f g = d.updFrame f h := by
  rw [Dev.updFrame, Dev.updFrame, hy, heq]

/-! Checks put together. -/

theorem and_ok {a b : Bool} (ha : a = true) (hb : b = true) : (a && b) = true := Bool.and_eq_true_iff.mpr ⟨ha, hb⟩

theorem or_ok {a b : Bool} (h : a = false → b = true) : (a || b) = true := by
  cases a with
  | true => rfl
  | false => exact h rfl

theorem not_or_ok {a b : Bool} (h : a = true → b = true) : (!a || b) = true := by
  cases a with
  | true => exact h rfl
  | false => rfl

/-- Each of some spans is within the effects with the right it needs. -/
def Frame.permits (fr : Frame) (l : List (Right × Span)) : Prop := ∀ p ∈ l, fr.spanEffect p.1 p.2 = none

theorem Frame.permits_append {fr : Frame} {l k : List (Right × Span)} (hl : fr.permits l) (hk : fr.permits k) :
    fr.permits (l ++ k) := fun p hp => (List.mem_append.mp hp).elim (hl p) (hk p)

theorem Frame.permits_map {fr : Frame} {right : Right} {ss : List Span} (h : ∀ p ∈ ss, fr.spanEffect right p = none) :
    fr.permits (ss.map (right, ·)) := by
  intro p hp
  obtain ⟨q, hq, rfl⟩ := List.mem_map.mp hp
  exact h q hq

theorem Frame.permits_ite {fr : Frame} {b : Bool} {l k : List (Right × Span)} (hl : b = true → fr.permits l)
    (hk : b = false → fr.permits k) : fr.permits (if b then l else k) := by
  cases b with
  | true => exact hl rfl
  | false => exact hk rfl

theorem Frame.permits_nil (fr : Frame) : fr.permits [] := fun _ hp => absurd hp List.not_mem_nil

theorem operandOk_ok {t : TReg} {red : Option Bool} {ls : Bool} (h : operandOk t red ls = true) : t.ok = true := by
  simp only [operandOk, Bool.and_eq_true] at h
  exact h.1.1.1.1

/-- The modes with indices have a third operand. -/
theorem usesThird_of_idx {x : Insn} (h : mmaIdx x = true) : usesThird (mmaMod x) = true := by
  simp only [mmaIdx, Bool.and_eq_true, Bool.or_eq_true, beq_iff_eq] at h
  obtain ⟨hf, hm⟩ := h
  simp only [usesThird, Bool.and_eq_true, decide_eq_true_eq]
  exact ⟨⟨hf, by omega⟩, by omega⟩

/-- A matrix instruction whose checks pass joins the queue, with a trace record where one is selected. -/
theorem mmaIssue_next {sh : Shape} {op : Op} {d : Dev} {f : FrameId} {x : Insn} {w : Kept}
    (hw : weightsOf sh (mmaMod x) (d.frame f) (mmaAct (d.frame f) x) (mmaWgt (d.frame f) x) = some w)
    (hfit : MmaFits (d.frame f) x w sh) (hpass : MmaPasses (d.frame f) x w sh)
    (hcomb : (d.allOwnComb f (mmaAccesses (d.frame f) x)).2 = true) :
    mmaIssue sh op d f x = .next (((d.allOwnComb f (mmaAccesses (d.frame f) x)).1.trace 128 f.val (d.frame f).ctx.toNat
      (insnWord op x).toNat).updFrame f (mmaJoined (d.frame f) x w sh op)) := by
  unfold mmaIssue
  extract_lets fr m tr third idx kept dT aT bT cT dX aX bX cX aHalf keepOk ext kK nN wf wScaled wSigned descs exts c0
    plainOut scOk bS tS readsD dAcc
  obtain ⟨hk, hn, hf, hs, hsg, hkeep, hload⟩ := weightsOf_reads hw
  replace hk : kK = w.k := hk
  replace hn : nN = w.n := hn
  replace hf : wf = some w.fmt := hf
  replace hs : wScaled = w.scaled := hs
  replace hsg : wSigned = w.signed := hsg
  clear_value kK nN wf wScaled wSigned
  subst hk hn hf hs hsg
  have hextC (p : Tensor → Bool) (h : third = true → p cT.shape = true) : ext cX p = true := by
    show (Option.map p (if third = true then some cT.shape else none)).getD true = true
    split
    next ht => exact h ht
    · rfl
  have hextB (p : Tensor → Bool) (h : m.keep = false → p bT.shape = true) : ext bX p = true := by
    show (Option.map p (if m.keep = true then none else some bT.shape)).getD true = true
    split
    · rfl
    next hk => exact h (Bool.eq_false_of_not_eq_true hk)
  have hdescs : descs = true :=
    and_ok (and_ok (and_ok (and_ok (operandOk_ok hfit.dst) hfit.dst) hfit.act) (or_ok fun h => (hfit.wgt h).1))
      (not_or_ok fun h => (hfit.third h).1)
  have hcols (h : idx = false) : (dT.shape.e0 == w.n) = true := beq_iff_eq.mpr (hfit.outCols.trans (if_neg (by
    rw [show mmaIdx x = false from h]; exact Bool.false_ne_true)))
  have hthird (h : third = true) := hfit.third h
  have hexts : exts = true := by
    refine and_ok (and_ok (and_ok (and_ok (beq_iff_eq.mpr hfit.rows) (or_ok hcols))
      (and_ok (beq_iff_eq.mpr hfit.outRows)
      (hextC _ fun h => beq_iff_eq.mpr (hthird h).2.2.1))) (not_or_ok fun h => ?_)) (or_ok fun h => hextC _ fun ht =>
        ?_)
    · obtain ⟨-, -, -, -, -, -, hc⟩ := hthird (usesThird_of_idx h)
      rw [if_pos (show mmaIdx x = true from h)] at hc
      obtain ⟨h0, hq, hsgn, hsc⟩ := hc
      refine and_ok (beq_iff_eq.mpr (hfit.outCols.trans (if_pos h))) (hextC _ fun _ => ?_)
      refine and_ok (and_ok (and_ok (beq_iff_eq.mpr h0) (beq_iff_eq.mpr hq)) ?_) ?_
      · exact congrArg (!·) hsgn
      · exact congrArg (!·) hsc
    · obtain ⟨-, -, -, -, -, -, hc⟩ := hthird ht
      rw [if_neg (by rw [show mmaIdx x = false from h]; exact Bool.false_ne_true)] at hc
      exact beq_iff_eq.mpr hc
  have hkeepOk (h : m.keep = true) : keepOk = true := by
    show (match kept with
      | some k => k.half == (aHalf && k.fmt.half)
      | none => false) = true
    rw [show kept = some w from hkeep h]
    exact beq_iff_eq.mpr (hfit.keep h)
  have hc0 : c0 = .ok := Check.then_ok (need_ok (not_or_ok hkeepOk)) (need_ok (and_ok hdescs hexts))
  rw [hc0]
  dsimp -zeta only [dX, aX]
  extract_lets half scaled int ty M typed fmtOk cols aS dS all c1 effs job issued nk loadedBy d'
  have hthirdC (p : Tensor → Bool) (h : third = true → p cT.shape = true) :
      (!third || (cX.map p).getD false) = true := by
    refine not_or_ok fun ht => ?_
    rw [show cX = some cT.shape from if_pos ht]
    exact h ht
  have htyped : (m.start || typed) = true := by
    refine or_ok fun hst => ?_
    obtain ⟨hM, hty⟩ := hfit.typed.resolve_left (by rw [show (mmaMod x).start = false from hst]; exact
      Bool.false_ne_true)
    refine and_ok (not_or_ok fun _ => decide_eq_true hM) (List.all_eq_true.mpr fun r hr => List.all_eq_true.mpr fun c hc
      =>
      beq_iff_eq.mpr (hty r c ?_ (List.mem_range.mp hc)))
    exact (List.mem_range.mp hr).trans_le (min_le_left _ _)
  have hint : (!((scaled || (cX.map (·.scaled)).getD false) && dT.shape.fmt.isInt)) = true := by
    have hC : (cX.map (·.scaled)).getD false = true → dT.shape.fmt.isInt = false := by
      show ((if third = true then some cT.shape else none).map (·.scaled)).getD false = true → _
      split
      next ht => exact fun h => ((hthird ht).2.2.2.2.2.1 h).2
      · exact fun h => absurd h Bool.false_ne_true
    rw [Bool.not_eq_true']
    cases hsc : scaled with
    | true => rw [show dT.shape.fmt.isInt = false from hfit.floatDst hsc, Bool.and_false]
    | false =>
      cases hcs : (cX.map (·.scaled)).getD false with
      | true => rw [hC hcs, Bool.and_false]
      | false => rfl
  have hfmtOk : fmtOk = true := by
    refine and_ok (and_ok (and_ok (and_ok
      (and_ok (and_ok (and_ok (and_ok (and_ok (and_ok (and_ok (and_ok (and_ok hfit.dstKnown
      hfit.actKnown) (or_ok fun h => (hfit.wgt h).2.1)) (not_or_ok fun h => (hthird h).2.1)) hfit.actFmt) ?_)
      (not_or_ok hfit.actScale)) (hextB _ fun h => not_or_ok (hfit.wgt h).2.2.2)) ?_) ?_) ?_) ?_) hint) htyped
    · cases hm : m.keep with
      | true => exact hfit.kept hm
      | false =>
        rw [(hload hm).1]
        exact (hfit.wgt hm).2.2.1
    · exact and_ok (bne_iff_ne.mpr hfit.notX8) (bne_iff_ne.mpr hfit.notG32)
    · exact congrArg (!·) hfit.dstScale
    · exact hthirdC _ fun h => and_ok (bne_iff_ne.mpr (hthird h).2.2.2.1) (bne_iff_ne.mpr (hthird h).2.2.2.2.1)
    · exact hextC _ fun h => not_or_ok fun hs => ((hthird h).2.2.2.2.2.1 hs).1
  have hins : aS ++ bS = mmaIns fr x := by
    refine congrArg (aS ++ ·) ?_
    show ((if m.keep = true then none else some bT.shape).map (·.spans false)).getD [] = _
    split <;> rfl
  have hthirds : tS = mmaThirds fr x := by
    by_cases ht : third = true
    · have hc : cX = some cT.shape := if_pos ht
      refine (if_pos ht).trans (Eq.trans ?_ (if_pos ht).symm)
      rw [hc]
      rfl
    · exact (if_neg ht).trans (if_neg ht).symm
  have hall : all = mmaIns fr x ++ mmaOuts fr x ++ mmaThirds fr x := by
    show aS ++ bS ++ dS ++ tS = _
    rw [hins, hthirds]
    rfl
  have hc1 : c1 = .ok :=
    Check.then_ok (need_ok hfmtOk) (Check.then_ok
      (need_ok (and_ok (decide_eq_true hpass.depth) (decide_eq_true hpass.width)))
      (Check.then_ok (need_ok (hpass.height.elim (fun h => by rw [show m.final = true from h]; rfl) fun h => by
        rw [show decide (M ≤ sh.maxRows half) = true from decide_eq_true h, Bool.or_true]))
          (checkLs_ok (hall ▸ hpass.range))))
  have heffs : checkEff fr effs = .ok := by
    have hw' : ∀ p ∈ tS, idx = true → fr.spanEffect .w p = none := fun p hp => (hpass.thirds p (hthirds ▸ hp)).1
    have hr' : ∀ p ∈ tS, idx = false ∨ m.merge = true → fr.spanEffect .r p = none :=
      fun p hp => (hpass.thirds p (hthirds ▸ hp)).2
    refine checkEff_ok (Frame.permits_append (Frame.permits_append (Frame.permits_append (Frame.permits_append ?_ ?_)
      ?_)
      ?_) ?_)
    · exact Frame.permits_map (hins ▸ hpass.reads)
    · exact Frame.permits_map hpass.writes
    · exact Frame.permits_ite (fun h => Frame.permits_map (hpass.adds h)) fun _ => fr.permits_nil
    · exact Frame.permits_ite (fun h => Frame.permits_map fun p hp => hw' p hp h)
        fun h => Frame.permits_map fun p hp => hr' p hp (.inl h)
    · exact Frame.permits_ite (fun h => Frame.permits_map fun p hp => hr' p hp (.inr (Bool.and_eq_true_iff.mp h).2))
        fun _ => fr.permits_nil
  have hacc : (aS ++ bS).map (·, Acc6.read) ++ dS.map (·, dAcc) ++ tS.map (fun t =>
      (t, if idx then (if m.merge then Acc6.readWrite else Acc6.write) else Acc6.read)) = mmaAccesses fr x := by
    rw [hins, hthirds]
    rfl
  have hgo : ¬ (4 ≤ fr.mmaQ.length || fr.overlaps all) = true := by
    rw [hall, show fr.overlaps _ = false from hpass.free, decide_eq_false (not_le.mpr hpass.room)]
    exact Bool.false_ne_true
  have hloaded : loadedBy = (mmaArray fr x w sh fr.arr).loadedBy := by
    show (if m.keep = true then _ else setWeights fr.arr.loadedBy sh m.group (some nk)) = if m.keep = true then _ else _
    split
    · rfl
    next h => exact congrArg _ (hload (Bool.eq_false_of_not_eq_true h)).2.symm
  rw [hc1]
  dsimp -zeta only
  rw [heffs, hacc]
  refine (if_neg (by rw [show (d.allOwnComb f (mmaAccesses fr x)).2 = true from hcomb]; exact Bool.false_ne_true)).trans
    ((if_neg hgo).trans ?_)
  have hd : d' = (d.allOwnComb f (mmaAccesses fr x)).1.trace 128 f.val fr.ctx.toNat (insnWord op x).toNat :=
    congrArg (fun l => (d.allOwnComb f l).1.trace 128 f.val fr.ctx.toNat (insnWord op x).toNat) hacc
  have hsame : d'.frame f = fr := by
    rw [hd]
    exact (Dev.trace_frame ..).trans ((d.allOwnComb_only f _).frame f)
  rw [hloaded]
  refine congrArg Issue.next ((Dev.updFrame_congr (h := mmaJoined fr x w sh op) hsame ?_).trans
    (congrArg (fun e : Dev => e.updFrame f (mmaJoined fr x w sh op)) hd))
  rfl

/-! What the queue starts. -/

theorem Fmt.limbs_pos (t : Fmt) : 0 < t.limbs := by
  cases t <;> decide

/-- Nothing starts of a queue whose only instruction has planes to load. -/
theorem Dev.pumpMma_loading {d : Dev} {f : FrameId} {j : MmaJob} (hq : (d.frame f).mmaQ = [j])
    (hl : j.loaded ≠ j.planes)
    (n : Nat) : d.pumpMma f n = d := by
  cases n with
  | zero => rfl
  | succ n =>
    have hno : (List.range (d.frame f).mmaQ.length).find? (mayStream (d.frame f).mmaQ) = none := by
      rw [hq]
      refine List.find?_eq_none.mpr fun i hi => ?_
      obtain rfl : i = 0 := by simpa using hi
      unfold mayStream
      simp [hl]
    unfold Dev.pumpMma
    dsimp only
    rw [hno]

end Sys2Proof.Machine

/-- Settles O5: `mmaIssue_next` for the three shapes; a queue whose only instruction still loads starts nothing. -/
theorem matrixIssues : Obligations.MatrixIssues := by
  intro s f x sh w fr m dT aT bT cT t a b c op i third idx scaled int half ty ins outs thirds readsD comb hlegal hready
    hw
    hkeep hdst hact hwgt hkept hthird hrows houtRows houtCols hdk hak hfmt hscale hx8 hg32 hds hfloat htyped hdepth
      hwidth
    hheight hrange hcomb hreads hwrites hadds hthirds hroom hfree out
  have hexec : exec i s = s.stepDev ((s.toDev.issue f op x 0 (mmaBody sh op)).pumpMma f 8) := by
    cases sh <;> rfl
  have hword : Op.twoWord op = false := by
    cases sh <;> rfl
  have hissue := mmaIssue_next (op := op) (d := s.toDev) hw
    ⟨hkeep, hdst, hact, hwgt, hkept, hthird, hrows, houtRows, houtCols, hdk, hak, hfmt, hscale, hx8, hg32, hds, hfloat,
      htyped⟩
    ⟨hdepth, hwidth, hheight, hrange, hreads, hwrites, hadds, hthirds, hroom, hfree⟩ hcomb
  have hstep : s.stepDev (s.toDev.issue f op x 0 (mmaBody sh op)) = .next out :=
    Ready.issue_upd hready hword hlegal hissue
  have hout : s.toDev.issue f op x 0 (mmaBody sh op) = out.toDev := stepDev_inj hstep
  refine ⟨hexec.trans (by rw [hout]; rfl), fun hempty hno => hexec.trans ?_⟩
  have hq : (out.toDev.frame f).mmaQ = [mmaJob fr x w sh op] := by
    refine (congrArg Frame.mmaQ (Dev.frame_updFrame _ f _)).trans ?_
    exact (congrArg (fun y : Frame => y.mmaQ ++ [mmaJob fr x w sh op])
      ((Dev.trace_frame ..).trans ((s.toDev.allOwnComb_only f _).frame f))).trans
        (congrArg (· ++ [mmaJob fr x w sh op]) hempty)
  have hloading : (mmaJob fr x w sh op).loaded ≠ (mmaJob fr x w sh op).planes := by
    refine ne_of_lt (lt_of_lt_of_eq (Fmt.limbs_pos w.fmt) (if_neg ?_).symm)
    rw [show (mmaMod x).keep = false from hno]
    exact Bool.false_ne_true
  rw [hout, Dev.pumpMma_loading hq hloading]
  rfl

end
